-- ==== Sys2Proof/Word.lean ====
section
/-! DEFINITION. The word types of the model and the sparse table type that register files, rings and memory share. -/

namespace Sys2Proof

/-- One byte (R10: every structure is stored as bytes, little-endian). -/
abbrev Byte := BitVec 8

/-- A run of bytes, lowest address first. -/
abbrev Bytes := List Byte

/-- An IEEE 754 binary32 value as its 32 bits (R119). -/
abbrev Fp32 := BitVec 32

/-- A lineage of R241: attempt in bits 31 to 24, from in bits 15 to 0, compared unsigned. -/
abbrev Lineage := BitVec 32

/-- A table by index that lists only entries that differ from what an unlisted index reads as, by rising index. -/
abbrev Tab (α : Type) := List (Nat × α)

end Sys2Proof
end

