-- ==== Sys2Proof/Syntax/Payload.lean ====
section
/-! DEFINITION. The data that commands carry: step tags, message payloads and records, with the fields the spec's layouts give them. -/

namespace Sys2Proof

/-- The step tag of R240 that every datum of a step carries. -/
structure StepTag where
  step : Nat
  seq : Nat
  motif : Nat
  gen : Nat
  layer : Nat
  lineage : Lineage
  /-- For a companion step of R37, the main motif; `none` for every other step. -/
  companion : Option Nat
  deriving DecidableEq, Repr, Inhabited

/-- A tree node of R37 and of a TREE message: token and parent node number. -/
structure TreeNode where
  token : Nat
  parent : Nat
  deriving DecidableEq, Repr, Inhabited

/-- A query row of R245: the query vector in I4B with its four block exponents. -/
structure QueryRow where
  row : Nat
  qHead : Nat
  kvHead : Nat
  node : Nat
  position : Nat
  kvLength : Nat
  ancestors : BitVec 64
  elems : List Int
  scales : List Nat
  deriving DecidableEq, Repr, Inhabited

/-- One slot of a SLOT or COMPACT message (R244): the bytes of keys, values and scales of every KV head, as they lie in the page. -/
structure SlotData where
  position : Nat
  node : Nat
  /-- Per KV head: key elements, value elements, key scales, value scales. -/
  heads : List (Bytes × Bytes × Bytes × Bytes)
  deriving DecidableEq, Repr, Inhabited

/-- The residual rows of an ACT as they come; where the layer is this module's own, its output rows in FP32 (R131, R244). -/
structure ActRows where
  rows : List Bytes
  out : List (List Fp32)
  deriving DecidableEq, Repr, Inhabited

/-- The rows of a QUERY as they come; from this module, the FP32 query head of each row, unrotated, beside them (R127, R228). -/
structure QueryRows where
  rows : List QueryRow
  heads : List (List Fp32)
  deriving DecidableEq, Repr, Inhabited

/-- The slots of a SLOT as they come; from this module, the FP32 key and value of each slot's KV heads, unrotated, beside them (R127, R206). -/
structure SlotRows where
  slots : List SlotData
  heads : List (List (List Fp32 × List Fp32))
  deriving DecidableEq, Repr, Inhabited

/-- A row partial of R232. -/
structure RowPartial where
  row : Nat
  layer : Nat
  rank : Nat
  empty : Bool
  merged : Bool
  shadow : Bool
  m : Fp32
  l : Fp32
  o : List Fp32
  deriving DecidableEq, Repr, Inhabited

/-- The payload of a CHECK message (R252). -/
structure CheckBody where
  modules : Nat
  through : Nat
  replays : Nat
  tambourTiles : Nat
  slow : BitVec 16
  level : Nat
  deriving DecidableEq, Repr, Inhabited

/-- The payload of a COMMIT message (R253). -/
structure CommitBody where
  time : Nat
  tokenLength : Nat
  delivered : Nat
  endFlag : Bool
  prefill : Bool
  uncommitted : Bool
  slow : BitVec 16
  path : List Nat
  tokens : List Nat
  level : Nat
  deriving DecidableEq, Repr, Inhabited

/-- The payload of a RECALL message (R256). -/
structure RecallBody where
  cause : Nat
  noReplay : Bool
  layer : Nat
  array : Nat
  origin : Nat
  time : Nat
  deriving DecidableEq, Repr, Inhabited

/-- A shard table entry of R272. -/
structure ShardEntry where
  offset : Nat
  length : Nat
  machineId : Nat
  tiles : Nat
  vectorLen : Nat
  digest : Bytes
  deriving DecidableEq, Repr, Inhabited

/-- A LOAD_ORDER of R299. -/
structure LoadOrder where
  motif : Nat
  replace : Bool
  regionAddr : Nat
  rkey : Nat
  regionLen : Nat
  entry : ShardEntry
  deriving DecidableEq, Repr, Inhabited

/-- A LOAD_REPORT of R299. `status` is the status code of R79 (0 while programming goes on or at success). -/
structure LoadReport where
  machine : Nat
  motif : Nat
  status : Nat
  detail : Nat
  programmed : Nat
  reprogrammed : Nat
  remapped : Nat
  shardArrays : Nat
  deriving DecidableEq, Repr, Inhabited

/-- A HEAD_SYNC of R296 and R299. -/
structure HeadSync where
  /-- 0 a consumption, 1 a completion, 2 a change of read_count. -/
  kind : Nat
  mailbox : Nat
  firstRecord : Nat
  readCount : Nat
  version : Nat
  entryIndex : Nat
  entry : Bytes
  tokens : List Nat
  deriving DecidableEq, Repr, Inhabited

/-- A ROLE message of R299. -/
structure RoleMsg where
  machine : Nat
  holder : Nat
  firstLayer : Nat
  lastLayer : Nat
  reason : Nat
  deriving DecidableEq, Repr, Inhabited

/-- A training record of R319. -/
structure TrainRec where
  echoTime : Nat
  machineTag : Nat
  serial : Nat
  bride : Nat
  slot : Nat
  group : Nat
  machineId : Nat
  role : Nat
  planOk : Bool
  spareUse : Bool
  lanes : BitVec 8
  fwVersion : Nat
  configVersion : Nat
  topoVersion : Nat
  sentTime : Nat
  deriving DecidableEq, Repr, Inhabited

/-- A LINK_NOTICE of R331. -/
structure LinkNotice where
  source : Nat
  bride : Nat
  state : Nat
  partnerBride : Nat
  partnerId : Nat
  lastWhole : Nat
  deriving DecidableEq, Repr, Inhabited

/-- A TIME_ELECT candidacy of R352. -/
structure Candidacy where
  machineId : Nat
  group : Nat
  serial : Nat
  withdrawn : Bool
  timePriority : Nat
  pps : Bool
  ref10m : Bool
  deriving DecidableEq, Repr, Inhabited

/-- The fields of a timing flit of R353; times in units of 2^-16 ns modulo 2^64. -/
structure TimingFlit where
  tx : Nat
  txPrev : Nat
  rxPrev : Nat
  state : Nat
  stratum : Nat
  refId : Nat
  masterId : Nat
  deriving DecidableEq, Repr, Inhabited

/-- A message between modules, as it leaves (R243, R244, R299, R331, R352). -/
inductive MsgBody where
  | act (firstRow : Nat) (rows : List Bytes)
  | query (rows : List QueryRow)
  | slot (slots : List SlotData)
  | partialRows (recs : List RowPartial)
  | merged (recs : List RowPartial)
  | check (c : CheckBody)
  | recall (r : RecallBody)
  | commit (c : CommitBody)
  | knotAdd (knot : Nat) (delta guard : BitVec 32)
  | compact (slot : SlotData)
  | tree (nodes : List TreeNode)
  | heartbeat (time : Nat)
  | linkNotice (n : LinkNotice)
  | groupLinks (group topoVersion : Nat) (joined : List Nat)
  | topoReady (topoVersion : Nat)
  | timeElect (scope : Nat) (c : Candidacy)
  | timeOffset (state stratum gateLink master : Nat) (offset delay : Int)
  | loadOrder (o : LoadOrder)
  | loadReport (r : LoadReport)
  | shardCopy (motif gen offset : Nat) (data : Bytes)
  | pageCopy (seq layer localIndex : Nat) (home : Bool) (data : Bytes)
  | switch (motif gen : Nat)
  | headSync (h : HeadSync)
  | role (r : RoleMsg)
  | raw (type : Nat) (data : Bytes)
  deriving DecidableEq, Repr, Inhabited

/-- A message with its header of R243. -/
structure Msg where
  source : Nat
  dest : Nat
  last : Bool
  relay : Bool
  tag : Option StepTag
  body : MsgBody
  deriving DecidableEq, Repr, Inhabited

/-- A frame on the host port as R338 and R340 judge it: an IP fragment, the VLAN ids of its tags, its bytes with the FCS, and whether it is a UD packet
other than connection management on QP1. -/
structure FrameIn where
  fragment : Bool
  tags : List Nat
  length : Nat
  ud : Bool
  deriving DecidableEq, Repr, Inhabited

/-- A Delay_Req of R360: transport 0 UDP on IPv4, 1 UDP on IPv6, 2 IEEE 802.3; domain; sequence. -/
structure DelayReq where
  transport : Nat
  domain : Nat
  sequence : Nat
  deriving DecidableEq, Repr, Inhabited

/-- When the partner's echo of a training record came back, in module time, and how long the partner had held it, in ns (R319). -/
structure RoundTrip where
  received : Nat
  hold : Nat
  deriving DecidableEq, Repr, Inhabited

/-- What a bride's receiver knows of one lane over the last 1 ms (R313): lock lost, codewords uncorrectable, codewords. -/
structure LaneFault where
  lane : Nat
  lost : Bool
  uncorrectable : Nat
  codewords : Nat
  deriving DecidableEq, Repr, Inhabited

/-- What a source of R377 gave for a flagged block: its place among the sources of the data's row, counted from 0; the 64 bytes, or none where the source has none;
and the checksum they are checked against (R377 says 'its digest or checksum': here CRC-32C, log 85). -/
structure Rebuild where
  source : Nat
  data : Bytes
  checksum : BitVec 32
  deriving DecidableEq, Repr, Inhabited

/-- An array of a programming round whose cells did not verify after 16 passes, with its first failing row (R275, R389). -/
structure FailedArray where
  array : Nat
  row : Nat
  deriving DecidableEq, Repr, Inhabited

/-- The group whose bitmap a GROUP_LINKS carries, and the module it came from (R331). -/
structure LinksFrom where
  group : Nat
  source : Nat
  deriving DecidableEq, Repr, Inhabited

/-- What a timer, a monitor or the environment reports about one margin comparison (R378, R380, R382). -/
structure MarginResult where
  /-- The run or window passed at margin. -/
  pass : Bool
  /-- It failed by comparison (1) or by a picot check (0). -/
  byCompare : Bool
  /-- The repeat at nominal supply and clock passed. -/
  nominalPass : Bool
  deriving DecidableEq, Repr, Inhabited

/-- One vector offered to an array: its step tag, plane count, block exponent and 1,024 elements (R86, R129). -/
structure LiveVector where
  tag : StepTag
  matrix : Nat
  /-- Row of the step batch the vector belongs to. -/
  row : Nat
  bits : Nat
  exponent : Nat
  elems : List Int
  deriving DecidableEq, Repr, Inhabited

/-- Names one output block's chain of one row of a step (R132, R273). -/
structure ChainKey where
  tag : StepTag
  matrix : Nat
  outputBlock : Nat
  chain : Nat
  row : Nat
  deriving DecidableEq, Repr, Inhabited

/-- A read level of one cell pair in verify mode, in sixteenths of a level step (R188, R189). -/
structure CellReading where
  row : Nat
  column : Nat
  /-- Read minus intended, in 1/16 of a level step. -/
  error16 : Int
  deriving DecidableEq, Repr, Inhabited

/-- What a hardware word read from a stack or a staging bank holds: the 68 symbols and the CRC-32C of R373. -/
structure CodeWord where
  symbols : List Byte
  crc : BitVec 32
  deriving DecidableEq, Repr, Inhabited

end Sys2Proof
end

