-- ==== Sys2Proof/Syntax.lean ====
section
/-! DEFINITION. The commands of the block: one constructor per row of spec/opcode_table.json, in the table's order, with the operands the outside decides. -/

namespace Sys2Proof

/-- One event or operation of the module (spec/95_what_each_step_holds.md: each whole and indivisible). -/
inductive Instr where
  /-- R54: queue pair, module address, bytes. -/
  | hostWrite (qp addr : Nat) (data : Bytes)
  /-- R58. -/
  | mailboxEntryWrite (qp addr : Nat) (data : Bytes)
  /-- R74. -/
  | readCountWrite (m value : Nat)
  /-- R391. -/
  | eventLogReadCountWrite (value : Nat)
  /-- R423. -/
  | captureReadCountWrite (value : Nat)
  /-- R343: a SEND of `len` bytes. -/
  | doorbell (qp len : Nat)
  /-- R343. -/
  | ringScan
  /-- R59, R62. -/
  | mailboxConsume (m : Nat)
  /-- R72. -/
  | statusWordUpdate (m : Nat)
  | identify (m : Nat)
  | configRead (m : Nat)
  | configStage (m : Nat)
  | configCommit (m : Nat)
  | configRevert (m : Nat)
  | motifLoad (m : Nat)
  | motifLoadReplace (m : Nat)
  | motifSwitch (m : Nat)
  | motifDrop (m : Nat)
  | motifQuery (m : Nat)
  | seqOpen (m : Nat)
  | seqAppend (m : Nat)
  | seqGenerate (m : Nat)
  | cancel (m : Nat)
  | seqFork (m : Nat)
  | seqClose (m : Nat)
  | pagesBind (m : Nat)
  | calFreeze (m : Nat)
  | calThaw (m : Nat)
  | calCommit (m : Nat)
  | healthRead (m : Nat)
  | monitorProgram (m : Nat)
  | timeRead (m : Nat)
  | takeover (m : Nat)
  | handback (m : Nat)
  | fwStage (m : Nat)
  | fwActivate (m : Nat)
  | fwRevert (m : Nat)
  | ownerLockSet (m : Nat)
  | ownerLockClear (m : Nat)
  | attest (m : Nat)
  /-- R75. -/
  | doneRecordWrite (m : Nat)
  /-- R35. -/
  | prefillStepStart (motif seq : Nat)
  /-- R238. -/
  | generationStepStart (motif seq : Nat)
  /-- R37: the draft motif's logits for each node of the depth before, in node order. -/
  | companionStep (main seq : Nat) (logits : List (List Fp32))
  /-- R244: nodes of the tree for a main sequence. -/
  | tree (tag : StepTag) (nodes : List TreeNode)
  /-- R129: the FP32 input of a matrix and the seed of each 1,024-element segment; for the output projection, the last layer's output row x of R474. -/
  | rotation (tag : StepTag) (matrix row : Nat) (seeds : List Nat) (values : List Fp32)
  /-- R96: array index and the vector its node offers. -/
  | vectorLatch (array : Nat) (v : LiveVector)
  /-- R106. -/
  | picotCheckReport (array : Nat)
  /-- R168: physical array, plane count. -/
  | internalVector (phys bits : Nat)
  /-- R132: the node of the array at this chain position. -/
  | chainPartial (key : ChainKey) (position : Nat)
  /-- R134. -/
  | tambourTile (array : Nat) (key : ChainKey) (position : Nat) (v : LiveVector)
  /-- R135. -/
  | chainEndPromote (key : ChainKey)
  /-- R137: the output block named by the key (its chain is not used). -/
  | matrixOutput (key : ChainKey)
  /-- R140. -/
  | precisionWindowEnd (motif layer : Nat)
  /-- R131, R244: residual rows of the layer before, or a layer's output rows. -/
  | act (tag : StepTag) (firstRow : Nat) (rows : ActRows)
  /-- R127, R228: query rows. -/
  | query (source : Nat) (tag : StepTag) (last : Bool) (rows : QueryRows)
  /-- R127, R206: keys and values of positions. -/
  | slot (source : Nat) (tag : StepTag) (slots : SlotRows)
  /-- R195: pipeline, and the unit as (row group, run). -/
  | workUnit (pipe : Nat) (tag : StepTag) (group run : Nat)
  /-- R196. -/
  | workUnitEnd (pipe : Nat)
  /-- R221. -/
  | moduleMerge (tag : StepTag) (group : Nat)
  /-- R233: a PARTIAL message. -/
  | partialRows (source : Nat) (tag : StepTag) (recs : List RowPartial)
  /-- R231. -/
  | merged (tag : StepTag) (recs : List RowPartial)
  /-- R251. -/
  | check (tag : StepTag) (c : CheckBody)
  /-- R252. -/
  | checkSend (tag : StepTag)
  /-- R253. -/
  | commitDecision (tag : StepTag)
  /-- R254. -/
  | commit (tag : StepTag) (relay : Bool) (c : CommitBody)
  /-- R225. -/
  | compact (tag : StepTag) (slot : SlotData)
  /-- R257: cause of R256, first recalled layer, flagged array or 0xFFFF. -/
  | recallRaise (tag : StepTag) (cause layer array : Nat)
  /-- R258. -/
  | recall (tag : StepTag) (r : RecallBody)
  /-- R260. -/
  | replay (tag : StepTag)
  /-- R248; `port` is the réseau port of the issuer, `serves` the step and layer the knot is armed for (R250). -/
  | arm (port knot : Nat) (threshold guard count : BitVec 32) (serves : Option StepTag)
  | add (port knot : Nat) (delta guard : BitVec 32)
  | fetchAdd (port knot : Nat) (delta guard : BitVec 32)
  | rearm (port knot : Nat) (threshold guard count : BitVec 32)
  | free (port knot : Nat)
  /-- R244. -/
  | knotAdd (bride knot : Nat) (delta guard : BitVec 32)
  | heartbeatSend
  | heartbeat (peer time : Nat)
  | heartbeatMissing (peer : Nat)
  | badType (bride type source : Nat)
  /-- R327. -/
  | messageForward (bride : Nat) (msg : Msg)
  /-- R274. -/
  | loadOrder (source : Nat) (o : LoadOrder)
  | shardFetchEnd (motif : Nat)
  /-- R275: arrays of the round that did not verify after 16 passes, and those that needed more than one pass. -/
  | programmingRoundEnd (motif : Nat) (failed : List FailedArray) (multi : List Nat)
  | loadReport (r : LoadReport)
  | loadComplete (motif : Nat)
  | shardCopy (source motif gen offset : Nat) (data : Bytes)
  /-- R300: the frame's bytes and the source's page checksum (CRC-32C). -/
  | pageCopy (source seq motif layer localIndex : Nat) (home : Bool) (data : Bytes) (checksum : BitVec 32)
  | switch (motif gen : Nat)
  | oldCopyRelease (motif : Nat)
  | headSync (h : HeadSync)
  | role (r : RoleMsg)
  /-- R295. -/
  | unplannedTakeover (peer : Nat)
  /-- R285: the source module, or none when no source restores the shard. -/
  | mirrorRestore (motif : Nat) (source : Option Nat)
  /-- R165. -/
  | calServiceWindowEnd (phys : Nat)
  | windowTopUp (phys : Nat)
  | shadowCommit (phys : Nat)
  | warmupWindowEnd (phys : Nat)
  | confirmWindowEnd (phys : Nat)
  | freezeEnd
  /-- R188: cells read away from their intended level, and the margin run's outcome. -/
  | refresh (array : Nat) (readings : List CellReading) (margin : MarginResult)
  | standaloneMarginRun (array : Nat) (margin : MarginResult)
  | marginWindow (island : Nat)
  | arrayRetire (array reason : Nat)
  | spareProgrammed (array : Nat)
  | islandRetire (island reason : Nat)
  | degraded (kind : Nat)
  /-- R366: the audited chain; what it compares is in the audit buffer. -/
  | arrayAudit (key : ChainKey)
  | auditDropped (key : ChainKey)
  /-- R368: audited island and the three results (unit, peer, third). -/
  | duplicateAudit (tag : StepTag) (island : Nat) (r0 r1 r2 : Bytes)
  /-- R375: the corrected words, one entry each, as (stack, region), or as (8 + bank, 0) for a staging word. -/
  | scrubPass (corrected : List (Nat × Nat))
  /-- R374: unit kind 7 or 8, index, block address, word as read, reader 0 step 1 copy 2 scrub 3 host. -/
  | uncorrectable (kind index addr : Nat) (word : CodeWord) (reader : Nat) (tag : Option StepTag)
  | regionRetired (stack region : Nat)
  /-- R377: block address, source row, what a source of it gave. -/
  | rebuilt (stack addr sourceRow : Nat) (data : Rebuild) (motif array : Option Nat)
  /-- R310: the 512 bytes of a flit after FEC, symbols corrected, codewords uncorrectable. -/
  | flit (bride : Nat) (data : Bytes) (corrected uncorrectable : Nat)
  /-- R314: mask byte 0x00C, marker byte 0x00D, expected sequence number. -/
  | nak (bride : Nat) (mask marker : BitVec 8) (expected : BitVec 16)
  | brideDown (bride : Nat)
  /-- R313: the lane and what speaks against it. -/
  | laneOut (bride : Nat) (lane : LaneFault)
  | lossOfLock (bride : Nat)
  | routeSwitch (bride : Nat)
  | linkNotice (n : LinkNotice)
  | linkNoticeTimeout (bride : Nat)
  | groupLinks (group : LinksFrom) (topoVersion : Nat) (joined : List Nat)
  | groupLinksSend
  | topoReady (peer topoVersion : Nat)
  /-- R319: the 64 bytes of the partner's record in each exchange, the round trip, and the lanes locked. -/
  | training (bride : Nat) (rec1 rec2 : Bytes) (rtt : RoundTrip) (lanes : BitVec 8)
  /-- R317: whether any lane locked in the attempt. -/
  | trainingRetry (bride : Nat) (locked : Bool)
  | brideClassing (bride : Nat)
  | hold (bride : Nat)
  | reshapeDrainEnd (bride : Nat)
  /-- R315: presence contact and, per wavelength, whether it is below its low limit. -/
  | lightSupplyChange (input : Nat) (present : Bool) (low : BitVec 8)
  | lightSupplyGood (input : Nat)
  | timingFlitSend (bride : Nat)
  /-- R353: the 512 bytes of the flit after FEC, symbols corrected, codewords uncorrectable. -/
  | timingFlit (bride : Nat) (f : Bytes) (rx : Nat × Nat)
  | phaseCorrection
  /-- R348: the reference's time in units of 2^-16 ns. -/
  | timeStep (reference : Nat)
  | slew
  | lockStateChange
  | timeElectSend
  | timeElect (source scope : Nat) (c : Candidacy)
  | candidateExpiry (scope id : Nat)
  | timeOffset (source state stratum gateLink master : Nat) (offset delay : Int)
  | gateLinkChange
  | ppsInEdge
  /-- R356: input 0 PPS_IN or 1 REF10M_IN; the last intervals between pulses in ns; the measured frequency in Hz. -/
  | referenceValidity (input : Nat) (intervals : List Nat) (hz : Nat)
  | ptpAnnounceSend
  | ptpSyncSend
  | delayReq (clock : Nat) (sequence : DelayReq)
  | announce (clock : Nat)
  /-- R342: transport asked for (0 RC), private data, priority, path MTU. -/
  | req (transport : Nat) (priv : Bytes) (priority mtu : Nat)
  | rdmaWrite (qp rkey addr : Nat) (data : Bytes)
  | rdmaRead (qp rkey addr len : Nat)
  | unsupportedOperation (qp : Nat)
  | ackTimeout (qp : Nat)
  /-- R338, R340: a frame that the port may have to drop. -/
  | frameDrop (reason : FrameIn)
  /-- R338: 0 ARP, 1 neighbour discovery, 2 ICMP echo, 3 ICMPv6 echo, with the address asked. -/
  | arp (kind addr : Nat)
  | pause (priority quanta : Nat)
  | pauseSend (priority fill : Nat)
  | ceMark (qp : Nat)
  | congestionNotification (qp : Nat)
  | rateRise (qp : Nat)
  | lldpSend
  | lldp (frame : Bytes)
  /-- R337: input 8's state has driven the port down, or link training ended with it up. -/
  | hostPortLink (up : Bool)
  /-- R401: a reading in 1/128 degrees, or none for a missed sample. -/
  | sensorReading (sensor : Nat) (value : Option Int)
  | throttleUp
  | throttleDown
  | trip
  /-- R408: two sensors of one die, stack or engine. -/
  | hardwareTrip (a b : Nat)
  | sensorGood (sensor : Nat)
  | safeExit
  /-- R411, R412, R416: the last input voltage in mV and current in mA, and their product averaged over the interval in µW. -/
  | governorInterval (mv ma power : Nat)
  | inputLow (mv : Nat)
  | inputRestored (mv : Nat)
  /-- R421: the raw conversions of the entry, in LSB, before clamping. -/
  | monitorEntry (entry : Nat) (samples : List Int)
  | late (entry : Nat)
  | fwConfirm
  /-- R434, R453: reason code. -/
  | fwBootFailed (reason : Nat)
  /-- R465: level of SLOT_ID and HOLDUP_L at power good. -/
  | powerGood (slotPins : Nat) (holdupL : Bool)
  | pwrGoodFall
  | inputUndervoltage (mv : Nat)
  /-- R467: how long RESET_L has been low, in ns. -/
  | hardReset (lowNs : Nat)
  | resetRelease (slotPins : Nat)
  | romBoot
  /-- R470: attempts used by each of the 8 stacks, none for a stack that failed three. -/
  | memoryTraining (trained : List Bool)
  | linksUp
  | moduleReady
  /-- R63: mailbox transfer (kind 0) or shard fetch (kind 1), its owner, success, and the bytes read. -/
  | rdmaResponse (qp kind owner : Nat) (ok : Bool) (data : Bytes)
  | disconnect (qp : Nat)
  | dutyWindowEnd
  | reshapeMissing (bride : Nat)
  | marginWindowEnd (island : Nat) (result : MarginResult)
  | ppsOutEdge
  deriving DecidableEq, Repr

end Sys2Proof
end

