-- ==== Sys2Proof/Decode.lean ====
section
/-! DEFINITION. Commands as words: no row of the table gives a command any bits, so no word spells one. -/

namespace Sys2Proof

/-- The command a word spells by the table's bits. The table gives every row an empty list of fields and no fixed bits
(a command is an event or an operation with operands, not a word), so every word is answered with none. -/
def decodeTableWord (_nbits _w : Nat) : Option Instr := none

end Sys2Proof
end

