-- ==== Sys2Proof/Config.lean ====
section
/-! DEFINITION. What is fixed for the part, and the free values: constants without a body for every value the spec leaves open. -/

namespace Sys2Proof.Config

/-- R4: 32,768 addressable arrays. -/
def arrays : Nat := 32768

/-- R1: 33,280 physical arrays, 130 rows of 256 columns. -/
def physArrays : Nat := 33280

/-- R4: mailboxes. -/
def mailboxes : Nat := 64

/-- R57: entries of a mailbox ring. -/
def ringEntries : Nat := 4096

/-- R56, R74: record slots of a result ring. -/
def resultSlots : Nat := 16383

/-- R391: record slots of the event log. -/
def eventSlots : Nat := 262143

/-- R423: capture slots. -/
def captureSlots : Nat := 262140

/-- R25: the limit of the token length. -/
def maxTokens : Nat := 16777216

/-- R23: open sequences per head. -/
def maxSeqs : Nat := 4096

/-- R341: queue pairs. -/
def maxQps : Nat := 512

/-- R337: line rate of the host port in bit/s. -/
def lineRate : Nat := 1600000000000

/-- R239: bytes of the staging store for retained rows. -/
def retainedBytes : Nat := 192 * 1048576

/-- R376: reserve regions per stack. -/
def reserveRegions : Nat := 16384

/-- R53: the memory window, 1 TiB. -/
def memorySize : Nat := 1099511627776

/-- Free value (log 3): the n-th draw of the generators whose outputs the spec leaves open (R365 selections, R342 rkeys and queue pair numbers). -/
opaque draw : Nat → Nat

/-- Free value (log 4): analog error of one conversion, in 1/256 weight-unit, by draw number, column and plane (R149, R151 bound it only statistically). -/
opaque analogError : Nat → Nat → Nat → Int

/-- Free value (log 5): the calibration pattern of R171 by grid row, grid column, array row and weight column; taken modulo 15, less 7. -/
opaque patternDraw : Nat → Nat → Nat → Nat → Nat

/-- Free value (log 6): bits of the internal vectors of R168 by grid row, grid column, epoch, vector number, plane and row. -/
opaque internalBit : Nat → Nat → Nat → Nat → Nat → Nat → Bool

/-- Free value (log 7): ML-DSA-65 verification (R428; FIPS 204 is outside the spec): public key, signature, message. -/
opaque mldsaVerify : Bytes → Bytes → Bytes → Bool

/-- Free value (log 7): the signature the signing engine makes over an attestation body (R450). -/
opaque mldsaSign : Nat → Bytes → Bytes

/-- Free value (log 7): the ROM's digest of firmware signing key 0 to 3 (R428). -/
opaque romKeyDigest : Nat → Bytes

/-- Free value (log 7): the digest of the ROM measured at boot, 64 bytes (R451). -/
opaque romDigest : Nat → Byte

/-- Free value (log 7): device certificate and intermediate certificate in DER (R450). -/
opaque deviceCert : Nat → Bytes

/-- Free value (log 12): which thermal sensor lies nearest a unit (R387; the spec places no unit), by unit kind and index; taken modulo 196. -/
opaque nearestSensor : Nat → Nat → Nat

/-- Free value (log 12): which of the two supplies R418 gives an array or an optical engine counts as its island supply in a record, by unit kind and index; taken modulo 2. -/
opaque supplyChoice : Nat → Nat → Nat

/-- Free value (log 5): the gain tap of an array that holds its calibration pattern (R158 gives the range 2 to 64 only), by grid row and column; 2 to the power 1 to 6. -/
opaque patternGain : Nat → Nat → Nat

/-- Free value (log 16): what a module must know of a sequence headed elsewhere and no message is said to carry (seed, sampling set, stop ids, page mode, tree nodes): by motif, sequence, step, item, index. -/
opaque remote : Nat → Nat → Nat → Nat → Nat → Nat

/-- Free value (log 25): the bytes of header and tables from which a group spare knows the pricking of a motif generation (no message of R299 carries them to it). -/
opaque spareTables : Nat → Nat → Nat → Bytes

/-- Free value (log 31): the reason byte of a ROLE for a planned takeover; the two bytes after it stand for a loss and for a return (R299 gives the field no values). -/
opaque roleReason : Nat

/-- Free value (log 19): the order of the butterfly stages of a rotation (R125 gives the transform, not the order of its FP32 roundings): strides rising or falling. -/
opaque stridesRise : Bool

/-- Free value (log 17): whether a matrix of a layer follows the layer's attention (the spec gives matrices no roles), by motif, layer and matrix. -/
opaque followsAttention : Nat → Nat → Nat → Bool

/-- Free value (log 17): whether a matrix that follows the layer's attention takes the attention output itself as its input, by motif, layer and matrix. -/
opaque takesAttention : Nat → Nat → Nat → Bool

/-- Free value (log 17): whether the output of one matrix of a layer reaches the input of another (the spec gives matrices no roles), by motif, layer and the two matrices. -/
opaque reaches : Nat → Nat → Nat → Nat → Bool

/-- Free value (log 36): which unit of a kind stands at a chain's end or forms a matrix input (the spec places no unit), by unit kind, motif, layer, matrix and block. -/
opaque unitPlace : Nat → Nat → Nat → Nat → Nat → Nat

/-- Free value (log 40): the bride hops of a route that leaves the group (R324 counts hops to the destination; no message tells a module the links inside another group), by machine and destination; brought into 2 to 15. -/
opaque routeHops : Nat → Nat → Nat

/-- Free value (log 53): the status byte of a LOAD_REPORT for a status code of R79 (R299 gives one byte, R79 codes of 16 bits). -/
opaque reportStatus : Nat → Nat

end Sys2Proof.Config
end

