-- ==== Sys2Proof/Machine/Bits.lean ====
section
/-! DEFINITION. Byte order, bit fields, layouts of records, and the sparse tables in their one canonical form. -/

namespace Sys2Proof.Machine

/-- The value at index `k`, or `d` where the table lists none. -/
def Tab.get {α : Type} (d : α) : Tab α → Nat → α
  | [], _ => d
  | (i, v) :: t, k => if i = k then v else Tab.get d t k

/-- Every index listed is above `k`. -/
def Tab.above {α : Type} (k : Nat) : Tab α → Bool
  | [] => true
  | (i, _) :: _ => decide (k < i)

/-- The table without what it lists at `k`. -/
def Tab.drop {α : Type} (t : Tab α) (k : Nat) : Tab α := t.filter fun e => decide (e.1 ≠ k)

/-- The table with `v` listed at `k`, before the first index above it. -/
def Tab.insert {α : Type} : Tab α → Nat → α → Tab α
  | [], k, v => [(k, v)]
  | (i, w) :: t, k, v => if k < i then (k, v) :: (i, w) :: t else (i, w) :: Tab.insert t k v

/-- The table with index `k` reading as `v`: nothing is listed where `v` is the default. -/
def Tab.put {α : Type} [DecidableEq α] (d : α) (t : Tab α) (k : Nat) (v : α) : Tab α :=
  if v = d then Tab.drop t k else Tab.insert (Tab.drop t k) k v

/-- The canonical form: indices rise strictly and no entry equals the default. -/
def Tab.wf {α : Type} [DecidableEq α] (d : α) : Tab α → Bool
  | [] => true
  | (i, v) :: t => decide (v ≠ d) && Tab.above i t && Tab.wf d t

/-- The table with the value at `k` changed by `f`. -/
def Tab.upd {α : Type} [DecidableEq α] (d : α) (t : Tab α) (k : Nat) (f : α → α) : Tab α :=
  Tab.put d t k (f (Tab.get d t k))

/-- The value listed at `k`, if one is. -/
def Tab.find {α : Type} : Tab α → Nat → Option α
  | [], _ => none
  | (i, v) :: t, k => if i = k then some v else Tab.find t k

/-- `n` as `w` bytes, little-endian (R10). -/
def leBytes : Nat → Nat → Bytes
  | 0, _ => []
  | w + 1, n => BitVec.ofNat 8 n :: leBytes w (n / 256)

/-- The little-endian value of a run of bytes (R10). -/
def ofLE : Bytes → Nat
  | [] => 0
  | b :: t => b.toNat + 256 * ofLE t

/-- The big-endian value of a run of bytes (network byte order, R442). -/
def ofBE (b : Bytes) : Nat := ofLE b.reverse

/-- The unsigned field of `len` bytes at offset `off`. -/
def field (b : Bytes) (off len : Nat) : Nat := ofLE ((b.drop off).take len)

/-- `n` zero bytes. -/
def zeros (n : Nat) : Bytes := List.replicate n 0

/-- `b` cut or padded with zero bytes to `n` bytes. -/
def padTo (n : Nat) (b : Bytes) : Bytes := b.take n ++ zeros (n - b.length)

/-- `b` with the bytes `v` written at offset `off`; bytes beyond the end of `b` are not written. -/
def overlay (b : Bytes) (off : Nat) (v : Bytes) : Bytes :=
  (b.take off ++ v ++ b.drop (off + v.length)).take b.length

/-- A record of `size` bytes with the given fields (offset, width in bytes, value) and zeros elsewhere (R12). -/
def layout (size : Nat) (fields : List (Nat × Nat × Nat)) : Bytes :=
  fields.foldl (fun b f => overlay b f.1 (leBytes f.2.1 f.2.2)) (zeros size)

/-- Bits `hi` to `lo` of `n`. -/
def bits (n hi lo : Nat) : Nat := n / 2 ^ lo % 2 ^ (hi + 1 - lo)

/-- Bit `i` of `n`. -/
def bit (n i : Nat) : Bool := n / 2 ^ i % 2 = 1

/-- `n`, of `w` bits, read as two's complement. -/
def signed (w n : Nat) : Int :=
  let m := n % 2 ^ w
  if m < 2 ^ (w - 1) then (m : Int) else (m : Int) - (2 ^ w : Nat)

/-- The two's complement of `w` bits of an integer. -/
def unsigned (w : Nat) (i : Int) : Nat := (i % ((2 ^ w : Nat) : Int)).toNat

/-- One if `b` holds. -/
def b2n (b : Bool) : Nat := if b then 1 else 0

/-- A count of `w` bits that stops at its largest value. -/
def satTo (w n : Nat) : Nat := min n (2 ^ w - 1)

/-- An integer clamped to a range. -/
def clampI (lo hi x : Int) : Int := if x < lo then lo else if hi < x then hi else x

/-- Rounding a quotient (positive divisor) to the nearest integer, an exact half to even. -/
def roundDivEven (a : Int) (d : Nat) : Int :=
  let q := a / (d : Int)
  let r := a % (d : Int)
  if 2 * r < d then q else if 2 * r = d then (if q % 2 = 0 then q else q + 1) else q + 1

/-- The first offset from `lo`, below `hi`, at which a byte of `b` is not zero. -/
def firstNonZero (b : Bytes) (lo hi : Nat) : Option Nat :=
  ((List.range (hi - lo)).map (· + lo)).find? fun i => b.getD i 0 ≠ 0

/-- The sum of a list of integers. -/
def sumI (l : List Int) : Int := l.foldl (· + ·) 0

/-- The list with the first element that meets `p` replaced by its image, or unchanged. -/
def mapFirst {α : Type} (p : α → Bool) (f : α → α) : List α → List α
  | [] => []
  | a :: t => if p a then f a :: t else a :: mapFirst p f t

/-- Insertion into a rising list without repeats. -/
def insertAsc (k : Nat) : List Nat → List Nat
  | [] => [k]
  | i :: t => if k < i then k :: i :: t else if k = i then i :: t else i :: insertAsc k t

end Sys2Proof.Machine
end

