-- ==== Sys2Proof/Machine/State.lean ====
section
/-! DEFINITION. The state of one module as plain data, its reasons to stop, and the state after reset. Each field's comment gives: width | rule | reset | meaning. -/

namespace Sys2Proof.Machine

/-- Why a command cannot be carried out: its operand names an object that the numbering of R4 and the unit counts of the spec do not have.
Raised by the meaning of the command that carries the operand. Safe: the module has no such object. -/
inductive Fault where
  /-- Raised by a command on a mailbox number above 63 (R4). Safe. -/
  | noSuchMailbox
  /-- Raised by a command on an addressable array above 32,767 or a physical array above 33,279 (R4, R1). Safe. -/
  | noSuchArray
  /-- Raised by a knot operation on a knot above 4,095 (R4). Safe. -/
  | noSuchKnot
  /-- Raised by a command on a bride above 31 (R4). Safe. -/
  | noSuchBride
  /-- Raised by a command on a motif above 15 (R4). Safe. -/
  | noSuchMotif
  /-- Raised by a reading of a sensor above 195 (R399). Safe. -/
  | noSuchSensor
  /-- Raised by a command on a light-supply input above 8 (R315). Safe. -/
  | noSuchInput
  /-- Raised by a command on an attention pipeline above 47 (R192). Safe. -/
  | noSuchPipeline
  /-- Raised by a command on a digital island above 251 (R380). Safe. -/
  | noSuchIsland
  /-- Raised by a command on a memory stack above 7 or a staging bank above 63 (R1). Safe. -/
  | noSuchStore
  /-- Raised by a command on a sequencer entry above 31 (R420). Safe. -/
  | noSuchEntry
  deriving DecidableEq, Repr

/-- Why a command has no meaning here. -/
inductive Refusal where
  /-- Raised by an arm of exec that has no meaning yet. Safe: the machine stops. -/
  | notModelled (mnemonic : String)
  deriving DecidableEq, Repr

/-! ### Mailboxes (R53 to R80) -/

/-- How far the transfer of a command in progress has come (R63). -/
inductive Xfer where
  | none | reading | readDone | readFailed | writing | writeDone | writeFailed
  deriving DecidableEq, Repr, Inhabited

/-- A command in progress: the snapshot of its entry and what has come of it. -/
structure Cmd where
  /-- 64 B | R59 | none in progress | snapshot of the entry -/
  entry : Bytes
  /-- 12 bits | R59, R71 | 0 | ring index of the entry -/
  index : Nat
  /-- queue pair number | R343 | 0 | the queue pair that posted the command -/
  qp : Nat
  /-- count | R437 | 0 | order of consumption, for commands that run one at a time -/
  order : Nat
  /-- state | R63 | none | its transfer -/
  xfer : Xfer
  /-- bytes | R63 | empty | bytes its transfer has read -/
  data : Bytes
  /-- count | R63 | 0 | bytes its transfer asks for -/
  want : Nat
  /-- 24 bits | R344 | 0 | queue pair over which its transfer was issued -/
  via : Nat
  /-- flag | R62 | clear | the checks of steps 5 to 7 have passed and its effect has begun -/
  begun : Bool
  /-- count | R31 | 0 | token length, at consumption, of the sequence a sequence command names -/
  tokensThen : Nat
  /-- step numbers | R214 | empty | for a PAGES_BIND: steps in flight that had latched a descriptor of its layers at consumption -/
  latchedThen : List Nat
  /-- flag | R297 | clear | the command of a lost head that this spare continues: its transfers go over a queue pair of the spare -/
  continued : Bool
  deriving DecidableEq, Repr, Inhabited

/-- A DONE record that waits for a free result slot (R75, R78). -/
structure DoneRec where
  status : Nat
  detail : Nat
  progress : Nat
  result : Nat
  deriving DecidableEq, Repr, Inhabited

/-- One mailbox: its ring, its command, its status word and its result ring. -/
structure Mailbox where
  /-- 4,096 x 64 B | R57 | 0 | ring entries -/
  entries : Tab Bytes
  /-- queue pair number per entry | R343 | 0 | queue pair whose write set OWN -/
  posted : Tab Nat
  /-- 12 bits | R59 | 0 | consume index -/
  consume : Nat
  /-- 16 bits or none | R80 | none | negotiated interface version -/
  version : Option Nat
  /-- command or none | R51, R59 | none | command in progress -/
  cur : Option Cmd
  /-- 16 bits | R71 | 0 | updates of the status word, wraps -/
  updates : BitVec 16
  /-- 16 bits | R71 | 0 | discarded host writes, wraps -/
  discarded : BitVec 16
  /-- 16 bits | R71, R290 | 0 | old-generation steps in flight -/
  oldGen : Nat
  /-- 16 bits | R73 | 0 | slowdown causes -/
  slow : BitVec 16
  /-- 64 bits | R71 | 0 | module time of the last update -/
  time : Nat
  /-- 64 bits | R71 | 0 | first result record of the described command -/
  firstRecord : Nat
  /-- 64 bits | R71, R74 | 0 | records written since module start -/
  records : Nat
  /-- 64 bits | R67, R71 | 0 | progress target -/
  target : Nat
  /-- 64 bits | R51, R71 | 0 | progress -/
  progress : Nat
  /-- 32 bits | R71, R79 | 0 | detail -/
  detail : Nat
  /-- 16 bits | R71, R79 | ST_OK | completion status -/
  status : Nat
  /-- 12 bits | R71 | 0 | ring index of the described entry -/
  entryIdx : Nat
  /-- 32 bits | R71 | 0 | host_tag of the described entry -/
  hostTag : Nat
  /-- 16 bits | R71 | 0 | opcode of the described entry -/
  opcode : Nat
  /-- bit 7 of flags | R71 | 1 | the command has completed -/
  done : Bool
  /-- bit 5 of flags | R71 | 1 | no command in progress -/
  idle : Bool
  /-- 64 bits | R74 | 0 | kept read_count of the result ring -/
  readCount : Nat
  /-- 16,383 x 64 B | R74 | 0 | record slots 1 to 16,383 -/
  results : Tab Bytes
  /-- record or none | R75 | none | DONE record waiting for a slot -/
  doneWait : Option DoneRec
  /-- (cause bit, module time) list | R73 | empty | causes that affected steps of the sequence that the described command names -/
  slowAt : List (Nat × Nat)
  /-- (entry, module time) or none | R13, R60 | none | entry whose OWN bit the bobbin cleared last, and when -/
  cleared : Option (Nat × Nat)
  deriving DecidableEq, Repr, Inhabited

/-- A mailbox after module start (R71: flags 0xA0, status ST_OK). -/
def Mailbox.init : Mailbox :=
  { entries := [], posted := [], consume := 0, version := none, cur := none, updates := 0, discarded := 0,
    oldGen := 0, slow := 0, time := 0, firstRecord := 0, records := 0, target := 0, progress := 0, detail := 0,
    status := 0, entryIdx := 0, hostTag := 0, opcode := 0, done := true, idle := true, readCount := 0,
    results := [], doneWait := none, slowAt := [], cleared := none }

/-- The 64 mailboxes and the bobbin's scan. -/
structure Mailboxes where
  /-- 64 mailboxes | R4 | Mailbox.init | by number -/
  box : Tab Mailbox
  /-- list of numbers | R52, R343 | empty | mailboxes the last scans found consumable, rising -/
  noted : List Nat
  /-- count | R437 | 0 | consumptions so far -/
  consumed : Nat
  deriving DecidableEq, Repr, Inhabited

/-! ### Host port (R337 to R347, R360) -/

/-- One queue pair (R341 to R346). -/
structure QueuePair where
  /-- 24 bits | R342 | free value at connection | queue pair number -/
  qpn : Nat
  /-- flag | R342 | from REQ | LOAD -/
  load : Bool
  /-- flag | R341, R344 | clear | in the error state -/
  error : Bool
  /-- 3 bits | R345 | from REQ | priority of its packets -/
  priority : Nat
  /-- bytes | R340 | from REQ | path MTU -/
  mtu : Nat
  /-- bit/s | R346 | line rate | send rate -/
  rate : Nat
  /-- time or none | R346 | none | last congestion notification sent -/
  cnpSent : Option Nat
  /-- time or none | R346 | none | last congestion notification received, or last rise after it -/
  cnpGot : Option Nat
  /-- count | R341 | 0 | retries of the request in flight used -/
  retries : Nat
  /-- 64 bits | R343 | at connection | module time at which it connected -/
  since : Nat
  deriving DecidableEq, Repr, Inhabited

/-- What every PTP message carries (R360): transport 0 UDP on IPv4, 1 UDP on IPv6, 2 IEEE 802.3; domain; clockIdentity of the sender. -/
structure PtpHead where
  transport : Nat
  domain : Nat
  clockIdentity : Nat
  deriving DecidableEq, Repr, Inhabited

/-- What leaves the host port. -/
inductive HostOut where
  /-- A REP (R342) with its 64 bytes of private data. -/
  | rep (qp : Nat) (priv : Bytes)
  /-- A rejection with the reason "no resources" (R342) or for an unsupported transport (R340). -/
  | reject (noResources : Bool)
  /-- The data of an RDMA READ (R55). -/
  | readResponse (qp : Nat) (data : Bytes)
  /-- Acknowledgement of an RDMA WRITE or a SEND. -/
  | ack (qp : Nat)
  /-- NAK remote access error (R54) or invalid request (R340), or receiver not ready (R344). -/
  | nakAccess (qp : Nat)
  | nakInvalid (qp : Nat)
  | rnr (qp : Nat)
  /-- An RDMA READ the module issues: owner kind (0 mailbox, 1 shard fetch), owner, address, rkey, length. -/
  | readRequest (qp kind owner addr rkey len : Nat)
  /-- An RDMA WRITE the module issues for a mailbox's command: address, rkey, data. -/
  | writeRequest (qp m addr rkey : Nat) (data : Bytes)
  /-- An answer to ARP, neighbour discovery or echo (R338). -/
  | answer (kind addr : Nat)
  /-- PAUSE on or off for a priority (R345). -/
  | pause (priority : Nat) (on : Bool)
  /-- A congestion notification packet with DSCP and priority (R346). -/
  | cnp (qp dscp pcp : Nat)
  /-- An LLDP frame (R347): chassis id, the texts of port id and system name, management addresses (none where not configured). -/
  | lldp (mac : Nat) (portId systemName : Bytes) (ipv4 ipv6 : Option Nat)
  /-- PTP messages (R360): Announce with clockClass, priority1, priority2, currentUtcOffset and whether the timescale is PTP's own; Sync and its
  Follow_Up with the time of the Sync; Delay_Resp. -/
  | ptpAnnounce (head : PtpHead) (clockClass priority1 priority2 utcOffset : Nat) (ptpTimescale : Bool)
  | ptpSync (head : PtpHead) (sequence : Nat)
  | ptpFollowUp (head : PtpHead) (sequence time : Nat)
  | ptpDelayResp (head : PtpHead) (clock sequence time : Nat)
  deriving DecidableEq, Repr, Inhabited

/-- A frame that leaves the host port: what it says, and how it is sent. -/
structure HostFrame where
  body : HostOut
  /-- 3 bits or none | R345, R346 | none where the spec gives none | priority -/
  priority : Option Nat
  /-- 12 bits or none | R339 | none: untagged | VLAN id of its tag -/
  vlan : Option Nat
  /-- flag | R346 | - | a RoCEv2 packet: it carries ECT(0) -/
  ect : Bool
  /-- time or none | R345 | - | module time until which a PAUSE of its priority holds it back -/
  held : Option Nat
  deriving DecidableEq, Repr, Inhabited

/-- The host port. -/
structure HostPort where
  /-- flag | R337 | down | link up -/
  up : Bool
  /-- up to 512 | R341 | none | queue pairs, oldest connection first -/
  qps : List QueuePair
  /-- 8 x 32 bits | R342 | free values at module start, others at each restart | rkeys in window order -/
  rkeys : List Nat
  /-- count | R338 | 0 | IP fragments dropped -/
  fragments : Nat
  /-- count | R338 | 0 | frames dropped for tags, VLAN or size -/
  badFrames : Nat
  /-- count | R340 | 0 | UD packets dropped -/
  udDropped : Nat
  /-- count | R343 | 0 | SENDs longer than 64 bytes -/
  longSends : Nat
  /-- (priority, module time of its end) list | R345 | empty | priorities the peer has paused -/
  pausedTx : List (Nat × Nat)
  /-- list of priorities | R345 | empty | priorities on which the port has PAUSE out -/
  pausedRx : List Nat
  /-- frame or none | R347 | none | last LLDP frame received -/
  lastLldp : Option Bytes
  /-- 16 bits | R360 | 0 | PTP Sync sequence -/
  ptpSequence : Nat
  /-- list | R340 | empty | what has left the port, newest first (the model's own outbox) -/
  out : List HostFrame
  deriving DecidableEq, Repr, Inhabited

/-! ### Event log and counters (R387 to R394) -/

/-- The event log ring and the counters of R394 that are not read from elsewhere. -/
structure EventLog where
  /-- 64 bits | R391 | 0 | records written -/
  written : Nat
  /-- 64 bits | R391 | 0 | kept read_count -/
  readCount : Nat
  /-- 64 bits | R391 | 0 | records lost -/
  lost : Nat
  /-- 262,143 x 64 B | R391 | 0 | record slots -/
  slots : Tab Bytes
  /-- ((class, code, unit), time) list | R390 | empty | when each was last written -/
  recent : List ((Nat × Nat × Nat) × Nat)
  /-- 64 bits | R394 | 0 | events_suppressed -/
  suppressed : Nat
  deriving DecidableEq, Repr, Inhabited

/-- The counters of R394 (64 bits each, saturating, reset 0). -/
structure Counters where
  /-- 64 bits | R394 | 0 | suspect_vectors -/
  suspects : Nat
  /-- 64 bits | R394 | 0 | skipped_checks -/
  skipped : Nat
  /-- 64 bits | R394 | 0 | recalls -/
  recalls : Nat
  /-- 64 bits | R394 | 0 | replays -/
  replays : Nat
  /-- 64 bits | R394 | 0 | audits -/
  audits : Nat
  /-- 64 bits | R394 | 0 | audits_dropped -/
  auditsDropped : Nat
  /-- 64 bits | R394 | 0 | audit_faults_before -/
  faultsBefore : Nat
  /-- 64 bits | R394 | 0 | audit_faults_after -/
  faultsAfter : Nat
  /-- 64 bits | R394 | 0 | dup_audits -/
  dupAudits : Nat
  /-- 64 bits | R394 | 0 | dup_faults -/
  dupFaults : Nat
  /-- 64 bits | R394 | 0 | mem_corrected -/
  memCorrected : Nat
  /-- 64 bits | R394 | 0 | mem_uncorrectable -/
  memUncorrectable : Nat
  /-- 64 bits | R394 | 0 | staging_corrected -/
  stagingCorrected : Nat
  /-- 64 bits | R394 | 0 | staging_uncorrectable -/
  stagingUncorrectable : Nat
  /-- 64 bits | R394 | 0 | scrub_passes -/
  scrubPasses : Nat
  /-- 64 bits | R394 | 0 | margin_runs -/
  marginRuns : Nat
  /-- 64 bits | R394 | 0 | margin_failures -/
  marginFailures : Nat
  /-- 64 bits | R394 | 0 | heartbeats_missed -/
  heartbeatsMissed : Nat
  /-- 64 bits | R394 | 0 | void_rows -/
  voidRows : Nat
  deriving DecidableEq, Repr, Inhabited

/-! ### Monitor converters (R418 to R424) -/

/-- One sequencer entry with its result register (R420, R421). -/
structure MonEntry where
  /-- 12 bits | R420 | 0 | win_high -/
  winHigh : Nat
  /-- 12 bits | R420 | 0 | win_low -/
  winLow : Nat
  /-- 16 bits | R420 | 0 | period in µs, 0 disables -/
  period : Nat
  /-- 4 bits | R420 | 0 | avg -/
  avg : Nat
  /-- 2 bits | R420 | 0 | dest -/
  dest : Nat
  /-- 1 bit | R420 | 0 | win_en -/
  winEn : Bool
  /-- 3 bits | R420 | 0 | sub -/
  sub : Nat
  /-- 6 bits | R420 | 0 | channel -/
  channel : Nat
  /-- time or none | R421 | none | last start -/
  lastStart : Option Nat
  /-- 12 bits | R421 | 0 | result code -/
  code : Nat
  /-- 1 bit | R421 | 0 | OVR -/
  ovr : Bool
  /-- 1 bit | R421 | 0 | UNDER -/
  under : Bool
  /-- 1 bit | R421 | 0 | OUTSIDE -/
  outside : Bool
  /-- 1 bit | R421 | 0 | LATE -/
  late : Bool
  /-- flag | R421 | clear | LATE has been set since the last result -/
  missed : Bool
  /-- 1 bit | R421 | 0 | VALID -/
  valid : Bool
  /-- 16 bits | R421 | 0 | results since the entry was written, wraps -/
  count : BitVec 16
  /-- 64 bits | R421 | 0 | time of the last result -/
  time : Nat
  /-- count | R422 | 0 | consecutive results inside the band -/
  inside : Nat
  /-- flag | R422 | set | the entry may write a WINDOW record -/
  armed : Bool
  deriving DecidableEq, Repr, Inhabited

/-- A sequencer entry at reset: disabled. -/
def MonEntry.init : MonEntry :=
  { winHigh := 0, winLow := 0, period := 0, avg := 0, dest := 0, winEn := false, sub := 0, channel := 0,
    lastStart := none, code := 0, ovr := false, under := false, outside := false, late := false, missed := false, valid := false,
    count := 0, time := 0, inside := 0, armed := true }

/-- The sequencer and the capture queue. -/
structure Monitor where
  /-- 32 entries | R420 | MonEntry.init | sequencer entries -/
  entries : Tab MonEntry
  /-- 64 bits | R423 | 0 | captures written -/
  written : Nat
  /-- 64 bits | R423 | 0 | kept read_count -/
  readCount : Nat
  /-- 64 bits | R423 | 0 | captures lost -/
  lost : Nat
  /-- 262,140 x 16 B | R423 | 0 | capture slots -/
  slots : Tab Bytes
  /-- (entry number, entry) list | R424 | empty | entries that a program has replaced while a conversion of theirs may have been in progress -/
  replaced : List (Nat × MonEntry)
  /-- 64 bits | R424 | 0 | module time of the last replacement -/
  programmed : Nat
  deriving DecidableEq, Repr, Inhabited

/-! ### Time (R348 to R361) -/

/-- What the last timing flit of a bride's partner gave (R353): the partner's stamp tx, the own stamp rx, and the partner's fields. -/
structure Stamp where
  bride : Nat
  tx : Nat
  rx : Nat
  state : Nat
  stratum : Nat
  refId : Nat
  masterId : Nat
  deriving DecidableEq, Repr, Inhabited

/-- A candidacy heard, and when (R351). -/
structure Heard where
  cand : Candidacy
  at_ : Nat
  deriving DecidableEq, Repr, Inhabited

/-- The time unit. -/
structure TimeUnit where
  /-- 80 bits, in 2^-16 ns | R9, R348, R353 | 0 | module time -/
  t16 : Nat
  /-- below 10^9 | R348 | 0 | part of 2^-16 ns below t16, in 10^-9 of it -/
  fine : Nat
  /-- 0 normal, 1 half, 2 one and a half | R349 | 0 | rate in force -/
  rate : Nat
  /-- signed ppb | R358 | 0 | frequency correction in force -/
  ppb : Int
  /-- 2 bits | R357 | 0 FREE | lock state -/
  lock : Nat
  /-- flag | R348, R357 | clear | has reached LOCKED since power good -/
  everLocked : Bool
  /-- flag | R348 | clear | the one time step has been taken -/
  stepped : Bool
  /-- count | R357 | 0 | consecutive milliseconds with the offset below 50 ns -/
  goodMs : Nat
  /-- list | R354 | empty | offsets received from the source in this millisecond, in 2^-16 ns -/
  thetas : List Int
  /-- signed 2^-16 ns | R349, R355 | 0 | offset the last correction used -/
  offset : Int
  /-- signed 2^-16 ns | R358 | 0 | last θ to the source -/
  theta : Int
  /-- signed ppb | R356 | 0 | machine master: frequency correction that its reference inputs call for -/
  freq : Int
  /-- signed 2^-16 ns | R358 | 0 | last delay to the source -/
  delay : Int
  /-- machine id or none | R358 | none | time source -/
  source : Option Nat
  /-- 8 bits | R354, R358 | 0xFF | stratum -/
  stratum : Nat
  /-- machine id or none | R351, R358 | none | group time reference -/
  groupRef : Option Nat
  /-- machine id or none | R351, R358 | none | machine master -/
  master : Option Nat
  /-- flag | R351, R405 | clear | own candidacy withdrawn -/
  withdrawn : Bool
  /-- list | R351 | empty | group candidates heard -/
  groupHeard : List Heard
  /-- list | R351 | empty | machine candidates heard -/
  machineHeard : List Heard
  /-- flag | R356 | clear | PPS_IN valid -/
  ppsValid : Bool
  /-- flag | R356 | clear | REF10M_IN valid -/
  refValid : Bool
  /-- link index or none | R355, R358 | none | gate link -/
  gateLink : Option Nat
  /-- signed 2^-16 ns or none | R355 | none | last offset of a TIME_OFFSET to steer by -/
  gateOffset : Option Int
  /-- 64 bits | R358 | 0 | module time at which HOLDOVER began -/
  holdoverSince : Nat
  /-- time or none | R356 | none | module time of the last rising edge of PPS_IN -/
  ppsLast : Option Nat
  /-- list | R353 | empty | what the last timing flit of each partner gave -/
  stamps : List Stamp
  /-- signed 2^-16 ns pair or none | R355 | none | gate module: θ and d of the last timing flit on the gate link -/
  gateTheta : Option (Int × Int)
  deriving DecidableEq, Repr, Inhabited

/-! ### Power, pins and start-up (R461 to R473) -/

/-- Pins, power good and the start-up stage. -/
structure Startup where
  /-- flag | R465 | set | power good holds -/
  powerGood : Bool
  /-- 0 stopped, 1 to 5 the stages of R470, 6 ready | R470 | 1 | stage -/
  stage : Nat
  /-- flag | R472 | clear | ROM state -/
  rom : Bool
  /-- 4 bits | R466 | latched | slot latched from SLOT_ID -/
  slot : Nat
  /-- pin level | R463, R435 | high | HOLDUP_L -/
  holdupL : Bool
  /-- pin level | R467 | high | RESET_L -/
  resetL : Bool
  /-- pin level | R465 | high | PWR_GOOD -/
  pwrGood : Bool
  /-- pin | R408, R463 | not asserted | THERM_TRIP_L asserted -/
  thermTrip : Bool
  /-- pin | R356, R463 | low | PPS_OUT driven high by the last edge -/
  ppsOut : Bool
  /-- pin | R356, R463 | low | REF10M_OUT driven -/
  refOut : Bool
  /-- pin | R463 | low | MOD_PRESENT_L (tied to GND) -/
  modPresentL : Bool
  /-- flag | R406 | clear | safe state -/
  safe : Bool
  /-- flag | R416 | clear | a hardware trip has occurred -/
  hwTrip : Bool
  /-- flag | R470 | clear | safe state entered because memory training failed -/
  memoryFailed : Bool
  /-- flag | R455 | clear | the module has left the safe state, so that confirmation waits for 20 °C at every die sensor -/
  leftSafe : Bool
  /-- 64 bits | R469, R434 | 0 | module time at which the running stage began -/
  stageStart : Nat
  deriving DecidableEq, Repr, Inhabited

/-! ### Memory (R53, R373 to R377) -/

/-- Module memory and its repair state. -/
structure Memory where
  /-- 1 TiB of bytes | R53 | 0 (DESIGN CHOICE, log 10) | memory window -/
  window : List Host.Cell
  /-- block addresses | R374 | empty | 64-byte blocks flagged uncorrectable -/
  flagged : List Nat
  /-- (bank, block, step that read it) list | R374 | empty | staging words flagged uncorrectable -/
  flaggedStaging : List (Nat × Nat × Option StepTag)
  /-- block addresses | R376 | empty | flagged blocks whose region has been remapped since, or had no reserve region left: they stay flagged where they are -/
  settled : List Nat
  /-- (block, count) list | R377 | empty | flagged blocks with the sources that have failed to restore them -/
  tried : List (Nat × Nat)
  /-- 64 bits | R375 | 0 | module time at which the last scrub pass ended -/
  scrubbed : Nat
  /-- (stack, region) list | R376 | empty (selvage) | remappings to a reserve region, newest first; a remapped region may be remapped again -/
  retired : List (Nat × Nat)
  /-- (stack, region) list | R376 | empty | regions that yielded corrected words in an earlier scrub pass -/
  seenCorrected : List (Nat × Nat)
  /-- (stack, region) list | R376 | empty | regions that yielded corrected words in two scrub passes, not yet retired -/
  worn : List (Nat × Nat)
  deriving DecidableEq, Repr, Inhabited

/-! ### Arrays and calibration (R81 to R118, R152 to R191) -/

/-- A coefficient set of R152: 16 tap trims and 576 column trims (offset, threshold). -/
structure CoefSet where
  /-- 5 bits | R154 | 16 | tap trims that differ from 16 -/
  taps : Tab Nat
  /-- signed 7 bits | R153 | 0 | offset trims that differ from 0 -/
  offsets : Tab Int
  /-- 5 bits | R153 | 16 | threshold trims that differ from 16 -/
  thresholds : Tab Nat
  deriving DecidableEq, Repr, Inhabited

/-- The default set of R156. -/
def CoefSet.default : CoefSet := { taps := [], offsets := [], thresholds := [] }

/-- A tile of a shard (R273), with its weights and picot digits listed where they are not 0. -/
structure Tile where
  /-- 15 bits | R273, R288 | - | addressable array that holds the tile, or is to hold it -/
  array : Nat
  /-- 15 bits | R273 | - | addressable index that the tile record names -/
  named : Nat
  layer : Nat
  matrix : Nat
  chainLen : Nat
  position : Nat
  chain : Nat
  outputBlock : Nat
  inputSeed : Nat
  /-- (row, column, weight v) | R83, R273 | - | non-zero weights -/
  weights : List (Nat × Nat × Int)
  /-- (row, picot column 512 to 575, digit) | R103, R273 | - | non-zero picot digits -/
  picots : List (Nat × Nat × Int)
  /-- column sums | R88, R273 | 0 | non-zero column sums by column -/
  colSums : Tab Int
  /-- FP32 | R137, R273 | 0 | per-column scales -/
  scales : Tab Fp32
  deriving DecidableEq, Repr, Inhabited

/-- The service states of R114. -/
inductive Service where
  | free | serving | draining | out
  deriving DecidableEq, Repr, Inhabited

/-- What an array holds: nothing known to the model but its calibration pattern, or a tile of a copy of a motif. -/
structure Held where
  motif : Nat
  /-- Generation whose copy the tile belongs to. -/
  gen : Nat
  /-- Gain tap, W3, range retry of the tile's layer. -/
  gain : Nat
  w3 : Bool
  retry : Bool
  tile : Tile
  deriving DecidableEq, Repr, Inhabited

/-- The result of one vector on one array (R101, R102, R104), before and after its check is reported. -/
structure ArrayOut where
  vec : LiveVector
  /-- 18 bits | R101 | - | column code sums that are not 0 -/
  sums : Tab Int
  /-- 16 bits | R102 | 0 | ovr_first -/
  ovrFirst : Nat
  /-- 16 bits | R102 | 0 | ovr_clamped -/
  ovrClamped : Nat
  /-- 16 bits | R102 | 0 | nsat -/
  nsat : Nat
  /-- 8 bits | R102 | 0 | retries -/
  retries : Nat
  /-- 4 bits | R102 | 0 | planes evaluated, 0 for a zero vector -/
  planes : Nat
  /-- 1 bit | R102 | 0 | SKIP -/
  skip : Bool
  /-- count | R105 | 0 | slice-plane checks skipped -/
  skips : Nat
  /-- columns | R93, R366 | empty | weight columns with a clamped code in some plane -/
  clampedCols : List Nat
  /-- 1 bit | R102 | 0 | Z -/
  zero : Bool
  /-- (plane, slice, d, retried codes) | R104, R106 | - | first failed slice-plane check -/
  fail : Option (Nat × Nat × Int × Nat)
  /-- per plane | R166 | - | codes of the 576 columns that count in the statistics, for planes without a retry -/
  codes : List (Nat × List (Option Int))
  /-- 32 bits | R167 | - | epoch in force at the latch -/
  epoch : BitVec 32
  /-- flag | R106 | clear | its check has been reported -/
  reported : Bool
  /-- flag | R132 | clear | its node has added or forwarded it -/
  taken : Bool
  deriving DecidableEq, Repr, Inhabited

/-- The hardware statistics an array gathers per window (R162 to R166). -/
structure Stats where
  /-- count | R172 | 0 | internal vectors of the window -/
  vectors : Nat
  /-- counts | R166 | 0 | conversions counted, per column -/
  count : Tab Nat
  /-- sums | R162 | 0 | sum of codes, per column -/
  sum : Tab Int
  /-- sums | R163 | 0 | sum of squared codes, per column -/
  sumSq : Tab Nat
  /-- counts | R162 | 0 | row drives that were 1 in the planes counted of a column -/
  colOnes : Tab Nat
  /-- count | R162 | 0 | row drives that were 1 in the tap window -/
  ones : Nat
  /-- count | R162 | 0 | row drives -/
  drives : Nat
  /-- 256 bins | R164 | 0 | histogram by code + 128 -/
  hist : Tab Nat
  /-- 64 bits per column | R170 | 0: with the array's windows | module time at which a column's window began, where it began on its own -/
  start : Tab Nat
  /-- sums | R186 | 0 | sum of d, per slice -/
  dSum : Tab Int
  /-- sums | R186 | 0 | sum of squared d, per slice -/
  dSq : Tab Nat
  /-- count | R186 | 0 | slice checks summed, per slice -/
  dCount : Tab Nat
  deriving DecidableEq, Repr, Inhabited

/-- Statistics at the start of a window. -/
def Stats.init : Stats :=
  { vectors := 0, count := [], sum := [], sumSq := [], colOnes := [], ones := 0, drives := 0, hist := [], start := [], dSum := [], dSq := [], dCount := [] }

/-- One physical array: cells, coefficients and calibration (R152 to R191). -/
structure PhysArray where
  /-- 874 B | R152, R156 | default set | coefficient set in force -/
  coef : CoefSet
  /-- 2 bits | R160 | 0 UNCALIBRATED | cal_state -/
  calState : Nat
  /-- 32 bits | R167 | 0 | calibration epoch -/
  epoch : BitVec 32
  /-- 64 bits | R158 | 0 | commit_time -/
  commitTime : Nat
  /-- 64 bits | R158 | 0 | programmed -/
  programmed : Nat
  /-- 16 bits | R158 | 0 | off_resid -/
  offResid : Nat
  /-- 16 bits | R158 | 0 | thr_resid -/
  thrResid : Nat
  /-- 16 bits | R158 | 0 | tap_resid -/
  tapResid : Nat
  /-- 16 bits | R158 | 0xFFFF | audit_rms -/
  auditRms : Nat
  /-- 32 bits | R158 | 0 | in_band -/
  inBand : Nat
  /-- 32 bits | R158 | 0 | refreshes -/
  refreshes : Nat
  /-- 7 bits | R158 | 0 | gain_tap: G of the array when the set came into force -/
  gainTap : Nat
  /-- 1 bit | R158 | 0 | RESTORED -/
  restored : Bool
  /-- 1 bit | R158 | 0 | DEFAULTED -/
  defaulted : Bool
  /-- 3 bits | R178 | 0 | host_result -/
  hostResult : Nat
  /-- 874 B or none | R175 | none | shadow set that is READY -/
  shadow : Option CoefSet
  /-- flag | R177 | clear | the READY shadow set is a host set -/
  shadowHost : Bool
  /-- statistics | R165 | empty | window in progress -/
  stats : Stats
  /-- 64 bits | R170 | 0 | module time at which the window began -/
  windowStart : Nat
  /-- count | R172 | 0 | warm-up windows run -/
  windows : Nat
  /-- count | R172, R173 | 0 | consecutive in-band windows of a warm-up or confirmation -/
  streak : Nat
  /-- 2 or 4 | R173 | 0 | windows confirmation needs -/
  needed : Nat
  /-- 874 B or none | R188 | none | programming-time set -/
  progSet : Option CoefSet
  /-- two flags | R158 | clear | whether the programming-time set descends from a host set, and from the default set -/
  progFrom : Bool × Bool
  /-- counts | R187 | 0 | consecutive windows beyond four dead bands, by trim: column offsets 0 to 575, thresholds from 576, taps from 1,152 -/
  far : Tab Nat
  /-- trims | R186 | empty | trims (numbered as in `far`) whose residual lay out of band in their last window -/
  outTrims : List Nat
  /-- readings | R188 | empty | cells away from their intended level that the last refresh left, in rows it had no need to rewrite -/
  levels : List CellReading
  /-- (slice) list | R186 | empty | slices whose rms of d exceeded 24 LSB in the last window -/
  spread : List Nat
  /-- times | R382, R384 | empty | marginal results -/
  marginal : List Nat
  /-- flag | R170 | clear | its window is being topped up with internal vectors -/
  topUp : Bool
  /-- time or none | R379 | none | last hot margin run -/
  lastHot : Option Nat
  /-- flag | R384 | clear | the last refresh found a cell beyond the 0.5-step limit -/
  cellWrong : Bool
  /-- count | R168 | 0 | internal vectors run at this epoch -/
  vectors : Nat
  /-- tile or none | R171 | none: the calibration pattern | cells of the array -/
  cells : Option Held
  /-- flag | R469 | clear (selvage) | being written -/
  writing : Bool
  deriving DecidableEq, Repr, Inhabited

/-- A physical array after power good: cells kept, the default set in force (R152, R156). -/
def PhysArray.init : PhysArray :=
  { coef := CoefSet.default, calState := 0, epoch := 0, commitTime := 0, programmed := 0, offResid := 0, thrResid := 0,
    tapResid := 0, auditRms := 0xFFFF, inBand := 0, refreshes := 0, gainTap := 0, restored := false, defaulted := false,
    hostResult := 0, shadow := none, shadowHost := false, stats := Stats.init, windowStart := 0, windows := 0, streak := 0,
    needed := 0, progSet := none, progFrom := (false, false), far := [], outTrims := [], levels := [], spread := [], marginal := [], topUp := false, lastHot := none, cellWrong := false,
    vectors := 0, cells := none, writing := false }

/-- One addressable array: service and repair state (R114, R187, R383, R384). -/
structure ArrayState where
  /-- 2 bits | R114 | FREE | service state -/
  service : Service
  /-- outputs | R96, R100 | empty | outputs of vectors latched whose data or check is still wanted, oldest first -/
  outs : List ArrayOut
  /-- (tag, vectors) list | R175 | empty | step batches whose vectors it has latched, and how many of each, the last first -/
  batch : List (StepTag × Nat)
  /-- priority 1 to 5 and time, or none | R187 | none | due for refresh since -/
  due : Option (Nat × Nat)
  /-- 16 bits | R395 | 0 | suspects since the last programming -/
  suspects : Nat
  /-- 16 bits | R395 | 0 | audit faults since the last programming -/
  auditFaults : Nat
  /-- (time, seq, step) or none | R383 | none | last suspect report -/
  lastSuspect : Option (Nat × Nat × Nat)
  /-- time or none | R383, R384 | none | end of a refresh made under R383 -/
  suspectRefresh : Option Nat
  /-- time or none | R384 | none | end of a refresh that followed an audit fault -/
  faultRefresh : Option Nat
  /-- flag | R365, R384 | clear | its chain has a forced audit due -/
  forced : Bool
  /-- flag | R118 | clear | retired with no spare; served by the tambour -/
  onTambour : Bool
  /-- flag | R188 | clear | in OUT for refresh, margin run or host commit (counts under R190) -/
  outForService : Bool
  /-- (host set, its outcome, since when) or none | R179 | none | host set waiting -/
  hostSet : Option (CoefSet × Nat × Nat)
  /-- physical array or none | R117 | none | spare being programmed for this index -/
  spare : Option Nat
  /-- flag | R188 | clear | its refresh has not ended -/
  refreshing : Bool
  /-- flag | R383, R384 | clear | the refresh due is one made under R383 -/
  dueSuspect : Bool
  /-- flag | R384 | clear | the refresh due follows an audit fault -/
  dueFault : Bool
  /-- reason or none | R384 | none | retirement condition met, retirement not yet made -/
  retire : Option Nat
  deriving DecidableEq, Repr, Inhabited

/-- An addressable array at reset. -/
def ArrayState.init : ArrayState :=
  { service := .free, outs := [], batch := [], due := none, suspects := 0, auditFaults := 0, lastSuspect := none,
    suspectRefresh := none, faultRefresh := none, forced := false, onTambour := false, outForService := false,
    hostSet := none, spare := none, refreshing := false, dueSuspect := false, dueFault := false, retire := none }

/-- The arrays of the die. -/
structure Arrays where
  /-- 32,768 | R114 | ArrayState.init | by addressable index -/
  addr : Tab ArrayState
  /-- 33,280 | R152 | PhysArray.init | by row x 256 + column -/
  phys : Tab PhysArray
  /-- physical array per index | R5, R113, R117 | R113's mapping (selvage) | indices whose mapping differs from R113's -/
  remap : Tab Nat
  /-- list | R384 | empty (selvage) | physical arrays retired -/
  retired : List Nat
  /-- 32,768 x 1,024 B | R157, R158 | 0 | load halves -/
  loadHalves : Tab Bytes
  /-- time or none | R182 | none | module time at which a freeze ends by itself -/
  freezeUntil : Option Nat
  /-- array-cycles | R112 | 0 | evaluation cycles of the duty window -/
  dutyUsed : Nat
  /-- 64 bits | R111 | 0 | module time at which the duty window began -/
  dutyStart : Nat
  /-- count | R111 | 0 | multiply-accumulates evaluated since the governor's last interval -/
  macs : Nat
  /-- array-cycles | R170 | 0 | evaluation cycles that tracking FREE arrays spent on internal vectors in the duty window -/
  freeUsed : Nat
  /-- list | R112 | empty | vectors waiting at their senders for room in the duty window, oldest first -/
  dutyWait : List (Nat × LiveVector)
  /-- share in W | R412 | 40 | array share in force for this duty window -/
  share : Nat
  deriving DecidableEq, Repr, Inhabited

/-! ### Motifs (R270 to R292) -/

/-- A layer record of R271. -/
structure LayerRec where
  layer : Nat
  headDim : Nat
  pairing : Nat
  gainTap : Nat
  retry : Bool
  w3 : Bool
  fallback : Bool
  baseFormat : Nat
  k : Nat
  owner : Nat
  qHeads : Nat
  kvHeads : Nat
  returnWindows : Nat
  fbWindow : Nat
  ovrLimit : Nat
  nsatLimit : Nat
  zeroedLimit : Nat
  attnMode : Nat
  window : Nat
  lambda : Fp32
  spread : List Nat
  headSeed : Nat
  deriving DecidableEq, Repr, Inhabited

/-- A pricking's header, layer table and shard table (R270 to R272). -/
structure Pricking where
  vocabDigest : Nat
  vocabSize : Nat
  width : Nat
  head : Nat
  tail : Nat
  kvI8 : Bool
  frameKib : Nat
  layers : List LayerRec
  shards : List ShardEntry
  /-- 32 B | R284 | - | SHAKE256 over header, layer table and shard table -/
  digest : Bytes
  deriving DecidableEq, Repr, Inhabited

/-- A module's shard in a mirror (R279): its tile records and its vector section. -/
structure Shard where
  tiles : List Tile
  vectors : Bytes
  deriving DecidableEq, Repr, Inhabited

/-- A motif table entry of R284 with its live values. -/
structure MotifEntry where
  /-- 8 bits | R284 | 0 EMPTY | 0 EMPTY, 1 LOADING, 2 READY, 3 STALE -/
  state : Nat
  /-- 8 bits | R284 | 0 | 0 none, 1 building, 2 ready in arrays, 3 ready in the tambour -/
  copy : Nat
  /-- 16 bits | R276, R284 | 0 | generation in force, kept after a drop -/
  gen : BitVec 16
  /-- 16 bits | R284 | 0 | generation the second copy takes -/
  copyGen : BitVec 16
  /-- 64 bits | R284 | 0 | vocab_digest -/
  vocabDigest : Nat
  /-- 32 B | R284 | 0 | pricking_digest -/
  prickDigest : Bytes
  /-- 32 B | R284 | 0 | shard_digest -/
  shardDigest : Bytes
  /-- 32 bits | R284 | 0 | tiles of this module's shard -/
  tiles : Nat
  /-- 64 bits | R284 | 0 | time of the last load or switch -/
  loadTime : Nat
  /-- pricking or none | R16 | none | tables of the resident copy (with the mirror, module memory) -/
  prick : Option Pricking
  /-- pricking or none | R287 | none | tables of the second copy -/
  prick2 : Option Pricking
  /-- shard or none | R279 | none (absent) | weight mirror -/
  mirror : Option Shard
  /-- shard or none | R288 | none | mirror of the second copy -/
  mirror2 : Option Shard
  /-- 8 bits | R284 | 0 | 0 absent, 1 restoring, 2 present -/
  mirrorState : Nat
  /-- (machine id, generation, shard) list | R279 | empty | spare only: the shards the group mirror holds -/
  groupMirror : List (Nat × Nat × Shard)
  /-- (source, length, bytes) list | R280, R285, R300 | empty | shards arriving by copy: length of the whole, bytes that have come -/
  arriving : List (Nat × Nat × Bytes)
  /-- machine id or none | R284 | none | module whose layers this module serves -/
  servingFor : Option Nat
  /-- flag | R406 | clear | tile arrays of the motif wait for their mirror -/
  restoring : Bool
  /-- arrays | R377 | empty (selvage) | tiles with a mirror block that no source restores -/
  spoilt : List Nat
  deriving DecidableEq, Repr, Inhabited

/-- A motif table entry that has never been loaded. -/
def MotifEntry.init : MotifEntry :=
  { state := 0, copy := 0, gen := 0, copyGen := 0, vocabDigest := 0, prickDigest := zeros 32, shardDigest := zeros 32,
    tiles := 0, loadTime := 0, prick := none, prick2 := none, mirror := none, mirror2 := none, mirrorState := 0,
    groupMirror := [], arriving := [], servingFor := none, restoring := false, spoilt := [] }

/-- A load on this module: as head (mailbox) and as placement module (order). -/
structure LoadState where
  motif : Nat
  /-- R286: the arrays already hold the motif; fetch and verify only. -/
  stale : Bool
  replace : Bool
  /-- mailbox of the head's command, none on other modules -/
  mailbox : Option Nat
  prick : Option Pricking
  /-- shards reported complete, by machine -/
  doneBy : List Nat
  /-- counts | R276, R288 | empty | copies that each group spare has reported whole in its group mirror -/
  mirrored : Tab Nat
  /-- programmed counts by machine -/
  progress : Tab Nat
  /-- entry | R277 | - | the motif table entry before the load -/
  prior : MotifEntry
  /-- 0 to 2 | R274 | 0 | what this module fetches: header, tables, shard -/
  phase : Nat
  /-- count | R274 | 0 | bytes of the read in progress -/
  want : Nat
  /-- 24 bits | R344 | 0 | queue pair over which that read was issued -/
  via : Nat
  /-- (offset, bytes) or none | R341 | none | read that waits for room on the load queue pair -/
  waits : Option (Nat × Nat)
  /-- this module's order, its source and the bytes fetched so far -/
  order : Option LoadOrder
  source : Nat
  fetched : Bytes
  fetchDone : Bool
  shard : Option Shard
  /-- tiles of this module still to program, and whether the arrays are used (copy field 2) or a second mirror (3) -/
  toProgram : List Nat
  inArrays : Bool
  programmed : Nat
  reprogrammed : Nat
  remapped : Nat
  deriving DecidableEq, Repr, Inhabited

/-- A switch in progress on the head (R289, R290). -/
structure SwitchState where
  motif : Nat
  mailbox : Nat
  oldGen : BitVec 16
  target : Nat
  deriving DecidableEq, Repr, Inhabited

/-- Window counters and precision record of one layer (R139, R140). -/
structure LayerPrec where
  /-- 2 bits | R140, R141 | base | format in force, 0 I2B to 3 I8B -/
  format : Nat
  /-- counts | R139 | 0 | window in progress: elements, zeroed, outputs, nsat, conversions, ovr, positions -/
  elements : Nat
  zeroed : Nat
  outputs : Nat
  nsat : Nat
  conversions : Nat
  ovr : Nat
  positions : Nat
  /-- 64-bit fields | R140 | 0 | last completed window -/
  rElements : Nat
  rZeroed : Nat
  rOutputs : Nat
  rNsat : Nat
  rConversions : Nat
  rOvr : Nat
  /-- 32 bits | R140 | 0 | fallbacks -/
  fallbacks : Nat
  /-- 16 bits | R140 | 0 | quiet -/
  quiet : Nat
  /-- 32 bits | R140 | 0 | windows completed -/
  windows : Nat
  /-- 64 bits | R397 | 0 | query rows -/
  rows : Nat
  /-- 64 bits | R397 | 0 | void rows -/
  voidRows : Nat
  /-- 64 bits | R397 | 0 | pages served from shadow lists -/
  shadowPages : Nat
  deriving DecidableEq, Repr, Inhabited

/-- The motifs of the module. -/
structure Motifs where
  /-- 16 entries | R284 | MotifEntry.init (selvage) | by motif number -/
  table : Tab MotifEntry
  /-- list | R274 | empty | loads in progress -/
  loads : List LoadState
  /-- list | R277 | empty | loads that were completed here as a placement module or spare, the last of each motif, should the head still tell of a failure -/
  doneLoads : List LoadState
  /-- list | R289 | empty | switches in progress -/
  switches : List SwitchState
  /-- per generation x 65,536 + motif x 4,096 + layer | R140, R146, R397 | none | layer records of each copy -/
  layers : List (Nat × LayerPrec)
  deriving DecidableEq, Repr, Inhabited

/-! ### Sequences (R21 to R46) -/

/-- A sampling set of R64, as its three fields. -/
structure Sampling where
  /-- 16 bits | R64 | from the command | T x 256 -/
  temp : Nat
  /-- 16 bits | R64 | from the command | top-k -/
  topK : Nat
  /-- 16 bits | R64 | from the command | p = (value + 1) / 65,536 -/
  topP : Nat
  deriving DecidableEq, Repr, Inhabited

/-- The sequence states of R26. -/
inductive SeqState where
  | opened | appending | generating | closing
  deriving DecidableEq, Repr, Inhabited

/-- What a generation carries (R44, R65). -/
structure GenInfo where
  mailbox : Nat
  count : Nat
  delivered : Nat
  stops : List Nat
  branches : List Nat
  cancelled : Bool
  deriving DecidableEq, Repr, Inhabited

/-- What an append carries (R32, R35). -/
structure AppendInfo where
  mailbox : Nat
  /-- tokens of the command not yet committed, the first input excluded -/
  tokens : List Nat
  /-- positions the append creates, positions started and committed -/
  target : Nat
  started : Nat
  committed : Nat
  deriving DecidableEq, Repr, Inhabited

/-- A sequence, or a companion draft sequence when `companion` is set (R24, R37). -/
structure Seq where
  motif : Nat
  /-- 24 bits | R22 | from the command | sequence id -/
  id : Nat
  /-- motif or none | R37 | none | companion: main motif -/
  companion : Option Nat
  /-- state | R26 | OPEN | state -/
  state : SeqState
  /-- tokens | R24 | empty | committed tokens; their number is n, the last is the pending token -/
  tokens : List Nat
  /-- 64 bits | R22 | from the command | seed -/
  seed : Nat
  /-- flag | R22 | from the command | host-managed pages -/
  hostPages : Bool
  /-- motif or none | R22 | from the command | draft motif -/
  draft : Option Nat
  sampling : Sampling
  /-- 64 bits | R34 | 1 | next step number -/
  nextStep : Nat
  append : Option AppendInfo
  gen : Option GenInfo
  /-- nodes or none | R37 | none | tree ready for the next step -/
  nextTree : Option (List TreeNode)
  /-- mailbox or none | R28 | none | mailbox of the SEQ_CLOSE -/
  closeBox : Option Nat
  deriving DecidableEq, Repr, Inhabited

/-- A bound descriptor table (R209). -/
structure Binding where
  motif : Nat
  seq : Nat
  firstLayer : Nat
  layerCount : Nat
  descOffset : Nat
  deriving DecidableEq, Repr, Inhabited

/-- A frame of a firmware-managed list (R216). -/
structure FrameRef where
  motif : Nat
  seq : Nat
  companion : Option Nat
  layer : Nat
  /-- Page number P; its local index is P div k (R204). -/
  page : Nat
  home : Bool
  /-- Page number of the frame: offset k x F in the memory window (R200). -/
  frame : Nat
  deriving DecidableEq, Repr, Inhabited

/-- Sequences and page lists. -/
structure Seqs where
  /-- list | R23 | empty | open sequences and companions -/
  open_ : List Seq
  /-- list | R209 | empty | descriptor tables bound -/
  bindings : List Binding
  /-- list | R216 | empty | frames of firmware-managed lists -/
  frames : List FrameRef
  /-- (mailbox, binding, steps) list | R214 | empty | PAGES_BIND commands waiting for steps that had latched the old list -/
  binds : List (Nat × Binding × List Nat)
  /-- (motif, seq, cause bit, module time) list | R73 | empty | causes that affected a step of an open sequence, each with its last time -/
  slow : List (Nat × Nat × Nat × Nat)
  /-- (motif, seq, step) list | R211 | empty | steps that ended uncommitted and whose RECALL, which names the layer, has not reached the head yet -/
  short : List (Nat × Nat × Nat)
  deriving DecidableEq, Repr, Inhabited

/-! ### Steps (R33 to R40, R235 to R269) -/

/-- Rows retained for a layer under R239: the layer, their lineage, the first row number and the rows in I8B. -/
structure RowSet where
  layer : Nat
  lineage : Lineage
  first : Nat
  rows : List Bytes
  deriving DecidableEq, Repr, Inhabited

/-- A note that a module has received data of a step (R258 item 4): layer, lineage, and whether it is query rows or slots. -/
structure Sent where
  dest : Nat
  layer : Nat
  lineage : Lineage
  attn : Bool
  deriving DecidableEq, Repr, Inhabited

/-- One step known to this module, in flight or the last that ended of its sequence. -/
structure StepRec where
  motif : Nat
  seq : Nat
  /-- 64 bits | R34 | - | step number -/
  step : Nat
  /-- 16 bits | R34 | - | generation latched at the start -/
  gen : Nat
  /-- main motif | R240 | none | companion step -/
  companion : Option Nat
  /-- flag | R33 | - | prefill step -/
  prefill : Bool
  /-- token length | R238 | - | taken at the start -/
  n : Nat
  /-- 1 to 4,096 | R33 | 0 where not known | width W -/
  width : Nat
  /-- nodes | R36, R37 | empty where not known | tokens and parents; for prefill the input tokens -/
  nodes : List TreeNode
  /-- (layer, format) | R145 | empty | formats latched -/
  formats : List (Nat × Nat)
  /-- (first layer, lineage) | R258 | empty | recalls applied; the floor of a layer is the largest at or below it -/
  floors : List (Nat × Lineage)
  /-- 32 bits | R253 | 0 | largest lineage seen -/
  maxLineage : Lineage
  /-- rows | R239 | empty | retained input rows, by the layer they enter -/
  inputs : List RowSet
  /-- rows | R239 | empty | retained output rows, by the layer they leave -/
  outputs : List RowSet
  /-- (lineage, payload) | R251 | empty | CHECKs received of the layer modules before -/
  checks : List (Lineage × CheckBody)
  /-- (layer, lineage) | R252 | empty | CHECKs sent -/
  checkSent : List (Nat × Lineage)
  /-- (layer, replays, tambour tiles) list | R252 | empty | figures of this module that the CHECK through a layer has told with those of its earlier runs -/
  checkTold : List (Nat × Nat × Nat)
  /-- (layer, array) | R260 | empty | arrays flagged in the step, served by the tambour -/
  flagged : List (Nat × Nat)
  /-- (layer, lineage, payload of its RECALL) | R260 | none | recall raised here whose replay has not begun -/
  replay : Option (Nat × Lineage × RecallBody)
  /-- (layer, page) list | R256 | empty | pages with a damaged home frame here that a replay leaves to their shadow -/
  avoid : List (Nat × Nat)
  /-- machine ids | R256 | empty | modules that have recalled the step for an uncorrectable word -/
  damaged : List Nat
  /-- layer | R256, R261 | none | first layer of a recall with NO_REPLAY -/
  noReplay : Option Nat
  /-- 16 bits | R73, R252 | 0 | causes that affected the step here -/
  slow : BitVec 16
  /-- 32 bits | R252 | 0 | replays here -/
  replays : Nat
  /-- (array, lineage) | R252 | empty | tiles served by the tambour here -/
  served : List (Nat × Lineage)
  /-- chains | R365 | empty | chains (row 0) whose audit selection has been drawn for the lineage of the key -/
  drawn : List ChainKey
  /-- (island, lineage) | R365 | empty | units whose selection for a duplicate audit has been drawn, per attempt -/
  unitsDrawn : List (Nat × Lineage)
  /-- 5 bits | R447 | setting at the start | τ of the step -/
  tau : Nat
  /-- 8 to 20 | R447 | setting at the start | log2 of the audit interval N -/
  auditLog2 : Nat
  /-- flag | R254, R261 | clear | the step has ended here -/
  ended : Bool
  /-- count | R254 | 0 | token length after the step, once it has ended -/
  after : Nat
  /-- flag | R261 | clear | it ended uncommitted -/
  uncommitted : Bool
  /-- list | R258 | empty | modules that received its data -/
  sentTo : List Sent
  deriving DecidableEq, Repr, Inhabited

/-- The steps and the messages kept for them. -/
structure Steps where
  /-- list | R234, R239 | empty | steps in flight -/
  live : List StepRec
  /-- 4 bits | R403 | 0 | level of the last COMMIT, per motif -/
  commitLevel : Tab Nat
  /-- (tag, first row, rows) list | R239 | empty | residual rows of steps that wait for room in the staging store -/
  actWait : List (StepTag × Nat × List Bytes)
  deriving DecidableEq, Repr, Inhabited

/-! ### Data path (R125 to R137) and attention (R192 to R234) -/

/-- A rotated and requantised matrix input (R129): one exponent, elements, format. -/
structure RotOut where
  tag : StepTag
  matrix : Nat
  row : Nat
  format : Nat
  exponent : Nat
  /-- seed of each 1,024-element segment (R127) -/
  seeds : List Nat
  elems : List Int
  deriving DecidableEq, Repr, Inhabited

/-- A vector that waits for the tambour (R281): the array whose tile it is for, its chain and position. -/
structure TambourJob where
  array : Nat
  key : ChainKey
  position : Nat
  vec : LiveVector
  deriving DecidableEq, Repr, Inhabited

/-- A chain partial at a node (R133). -/
structure ChainPart where
  key : ChainKey
  sums : Tab Int
  ovrFirst : Nat
  ovrClamped : Nat
  nsat : Nat
  exponent : Nat
  bits : Nat
  position : Nat
  present : BitVec 16
  tambour : BitVec 16
  conversions : Nat
  deriving DecidableEq, Repr, Inhabited

/-- A tambour contribution delivered to a chain end (R134). -/
structure TambourOut where
  key : ChainKey
  position : Nat
  vec : LiveVector
  sums : Tab Int
  deriving DecidableEq, Repr, Inhabited

/-- A wide accumulator of one output block and row (R135). -/
structure WideAcc where
  tag : StepTag
  matrix : Nat
  outputBlock : Nat
  row : Nat
  exponent : Nat
  acc : Tab Int
  /-- chains promoted and tambour tiles (chain, position) promoted -/
  chains : List Nat
  tiles : List (Nat × Nat)
  /-- tambour tiles the promoted partials named and that are still awaited -/
  awaited : List (Nat × Nat)
  deriving DecidableEq, Repr, Inhabited

/-- A matrix output of 512 columns (R137). -/
structure MatOut where
  tag : StepTag
  matrix : Nat
  outputBlock : Nat
  row : Nat
  values : List Fp32
  deriving DecidableEq, Repr, Inhabited

/-- An audit selected, with what is copied to the audit buffer (R366). -/
structure AuditSel where
  /-- The chain; its row is not used. -/
  key : ChainKey
  /-- module time | R369 | - | of the chain's last output -/
  at_ : Nat
  /-- rows | R366 | - | positions covered, none for all -/
  rows : Option (List Nat)
  /-- (position, array, output) | R366 | empty | array outputs -/
  outs : List (Nat × Nat × ArrayOut)
  /-- partials | R366 | empty | each node's partial -/
  parts : List ChainPart
  /-- (row, contribution) | R366 | empty | what was promoted into the wide accumulator -/
  wides : List (Nat × Tab Int)
  /-- contributions | R366 | empty | tambour contributions that were added to it -/
  tambour : List TambourOut
  /-- island or none | R367 | none | the vector unit at the chain's end -/
  unit : Option Nat
  deriving DecidableEq, Repr, Inhabited

/-- A duplicate audit selected (R365, R368): the unit, its step's attempt, and the work of it that is run again. -/
structure UnitAudit where
  /-- The tag of the step's attempt; its layer is not used. -/
  tag : StepTag
  island : Nat
  /-- layers | R368 | - | layers in which the unit has served the attempt; for a pipeline the one of the work unit chosen -/
  layers : List Nat
  /-- (group, run) | R368 | (0, 0) | the work unit chosen, for an attention pipeline -/
  work : Nat × Nat
  /-- count | R368 | 1 | work units of the attempt that the pipeline has run -/
  seen : Nat
  deriving DecidableEq, Repr, Inhabited

/-- The data path's working state. -/
structure DataPath where
  /-- list | R129 | empty | matrix inputs formed -/
  rotated : List RotOut
  /-- list | R132 | empty | chain partials -/
  parts : List ChainPart
  /-- list | R134 | empty | tambour contributions -/
  tambour : List TambourOut
  /-- list | R281 | empty | vectors that wait for the tambour, in order of arrival -/
  tambourWait : List TambourJob
  /-- list | R135 | empty | wide accumulators -/
  wide : List WideAcc
  /-- list | R137 | empty | matrix outputs -/
  outs : List MatOut
  /-- list | R366 | empty | audits waiting -/
  audits : List AuditSel
  /-- list | R365 | empty | duplicate audits waiting -/
  unitAudits : List UnitAudit
  /-- (time, tile vectors) list | R190, R381 | empty | vectors that the tambour multiplied by tiles within the last 1 ms -/
  tambourUse : List (Nat × Nat)
  deriving DecidableEq, Repr, Inhabited

/-- A sequence descriptor (R208). -/
structure Descriptor where
  /-- 64 bits | R208 | - | list_offset -/
  list : Nat
  /-- 32 bits | R208 | - | length -/
  length : Nat
  /-- 16 bits | R208 | - | generation -/
  generation : Nat
  deriving DecidableEq, Repr, Inhabited

/-- What a module latched of a layer's page lists for a step (R212, R213). -/
structure Latch where
  tag : StepTag
  /-- home and shadow descriptor of a host-managed list, as latched; none for a firmware-managed one -/
  lists : Option (Descriptor × Descriptor)
  /-- KV length of the step: pages wholly below it are committed -/
  kv : Nat
  /-- (page, offset of its frame in the memory window) of home and of shadow pages -/
  home : List (Nat × Nat)
  shadow : List (Nat × Nat)
  deriving DecidableEq, Repr, Inhabited

/-- Running values of one row in a pipeline (R195). -/
structure RowRun where
  row : QueryRow
  empty : Bool
  m : Fp32
  l : Fp32
  o : List Fp32
  /-- count | R123 | 0 | results clamped to the largest finite value -/
  clamps : Nat
  deriving DecidableEq, Repr, Inhabited

/-- A work unit at a pipeline or its row partials handed over (R193 to R196). -/
structure Unit_ where
  tag : StepTag
  group : Nat
  run : Nat
  rows : List RowRun
  /-- shadow-served pages were included -/
  shadow : Bool
  deriving DecidableEq, Repr, Inhabited

/-- Attention state of the module. -/
structure Attention where
  /-- list | R212 | empty | latches -/
  latches : List Latch
  /-- (tag, row) list | R228 | empty | query rows received, by step and layer -/
  rows : List (StepTag × QueryRow)
  /-- tags | R228 | empty | layers whose last query row has come -/
  closed : List StepTag
  /-- 48 | R192 | empty | unit in each pipeline -/
  pipes : List (Nat × Unit_)
  /-- list | R196 | empty | units handed to the merge -/
  units : List Unit_
  /-- (tag, partial) list | R221 | empty | module partials of this module's own rows and partials received, at their merge holder -/
  parts : List (StepTag × RowPartial)
  /-- (tag, partial) list | R231 | empty | merged rows at the layer module -/
  merged : List (StepTag × RowPartial)
  /-- (tag, row, values) list | R231 | empty | attention outputs after the division by L -/
  outs : List (StepTag × Nat × List Fp32)
  /-- (tag, position) list | R203, R220 | empty | slots written and acknowledged -/
  written : List (StepTag × Nat)
  /-- (tag, slot) list | R212 | empty | slots that wait for the layer's latch -/
  slotsWait : List (StepTag × SlotData)
  /-- (tag, slot) list | R225 | empty | compaction copies that wait for this module's own COMMIT -/
  compactWait : List (StepTag × SlotData)
  /-- (tag, position) list | R225 | empty | compaction copies of a committed step that are still to come from another module -/
  compactDue : List (StepTag × Nat)
  /-- (tag, row) list | R230, R243 | empty | rows this module has merged and sent to the layer module -/
  sentRows : List (StepTag × Nat)
  deriving DecidableEq, Repr, Inhabited

/-! ### Knots (R247) -/

/-- One knot of R247. -/
structure Knot where
  /-- 16 bits | R247 | 0xFFFF | owner -/
  owner : Nat
  /-- 2 bits | R247 | 0 FREE | state: 0 FREE, 1 ARMED, 2 FIRED -/
  state : Nat
  /-- 8 bits | R247 | 0 | refused increments, saturates -/
  refused : Nat
  /-- 32 bits | R247 | 0 | guard -/
  guard : BitVec 32
  /-- 32 bits | R247 | 0 | threshold -/
  threshold : BitVec 32
  /-- 32 bits | R247 | 0 | count -/
  count : BitVec 32
  /-- step and layer or none | R250 | none | what the knot serves (the model's note of its owner's use) -/
  serves : Option StepTag
  deriving DecidableEq, Repr, Inhabited

/-- A free knot. -/
def Knot.init : Knot :=
  { owner := 0xFFFF, state := 0, refused := 0, guard := 0, threshold := 0, count := 0, serves := none }

/-- The answer a knot operation returns to its issuer (R248). -/
inductive KnotReply where
  /-- the operation was applied -/
  | ok
  /-- the owner, from a refused ARM -/
  | owner (port : Nat)
  /-- the count before the addition, from FETCH_ADD -/
  | count (c : BitVec 32)
  /-- refused -/
  | refused
  deriving DecidableEq, Repr, Inhabited

/-- The knots. -/
structure Knots where
  /-- 4,096 | R247 | Knot.init | by number -/
  knot : Tab Knot
  /-- (port, knot) list | R248 | empty | wakes sent, newest first (the model's own outbox) -/
  wakes : List (Nat × Nat)
  /-- reply | R248 | ok | what the last operation returned (the model's own outbox) -/
  reply : KnotReply
  deriving DecidableEq, Repr, Inhabited

/-! ### Fabric (R301 to R336) -/

/-- A message kept for resending on a bride (R329): its number there, the sequence number after its last flit, and the message. -/
structure Queued where
  number : Nat
  after : BitVec 16
  msg : Msg
  deriving DecidableEq, Repr, Inhabited

/-- One bride (R307 to R329). -/
structure Bride where
  /-- 3 bits | R317, R318 | 1 DARK | state -/
  state : Nat
  /-- 8 bits | R318 | 0 | lanes in use -/
  lanes : BitVec 8
  /-- 8 bits | R313 | 0 | lanes taken out since the last training -/
  laneOut : BitVec 8
  /-- 8 bits | R314 | 0 | lane mask of the half the sending direction runs on; 0 for 8 lanes -/
  txHalf : BitVec 8
  /-- 8 bits | R318, R322 | 0 | last discovery code -/
  report : Nat
  /-- code or none | R322 | none | a code has been given -/
  classed : Bool
  /-- flag | R322 | clear | LENGTH reported -/
  lengthReport : Bool
  /-- bride | R322 | 0xFF | other bride of a SWAPPED report -/
  swappedWith : Nat
  /-- 16 bits | R318 | 0xFFFF | partner_id -/
  partnerId : Nat
  /-- 8 bits | R318 | 0xFF | partner_bride -/
  partnerBride : Nat
  /-- 64 bits | R318 | 0 | partner_serial -/
  partnerSerial : Nat
  /-- flag | R321 | clear | the partner is a member -/
  member : Bool
  /-- 16 bits | R318 | 0 | rtt_ns -/
  rtt : Nat
  /-- 16 bits | R318 | 0 | length_m -/
  length : Nat
  /-- 32 bits | R319, R334 | 0 | partner's topo_version -/
  partnerTopo : Nat
  /-- 32 bits | R318 | 0 | downs -/
  downs : Nat
  /-- 32 bits | R318 | 0 | replays -/
  replays : Nat
  /-- 32 bits | R318 | 0 | fec_uncorrectable -/
  fecBad : Nat
  /-- 64 bits | R318 | 0 | fec_corrected -/
  fecFixed : Nat
  /-- 64 bits | R318 | 0 | flits received clean -/
  flits : Nat
  /-- 64 bits | R318 | 0 | module time of the last state change -/
  stateTime : Nat
  /-- 16 bits | R310 | 0 | next sequence number expected -/
  expect : BitVec 16
  /-- 16 bits | R307 | 0 | next sequence number to send -/
  sendSeq : BitVec 16
  /-- count, at most 2,048 on brides 0 to 14 and 8,192 on 15 to 31 | R310, R311 | 0 | flits sent and not acknowledged, in the replay buffer -/
  unacked : Nat
  /-- count | R311 | 0 | flits queued that the replay buffer has not yet had room for, not sent -/
  unsent : Nat
  /-- count | R313 | 0 | successive replays of one flit -/
  sameReplays : Nat
  /-- times | R313 | empty | replays within the last 1 ms -/
  recentReplays : List Nat
  /-- flag | R308 | clear | the next flit received is the second of its codewords -/
  fecSecond : Bool
  /-- flag | R308 | clear | a codeword of the first was uncorrectable -/
  fecFailed : Bool
  /-- 32 bits | R329 | 1 | number of the next message to send, wraps -/
  nextMsg : Nat
  /-- 32 bits | R329 | 0 | number of the last message received whole -/
  lastWhole : Nat
  /-- 32 bits | R329 | 0 | number of the message being received -/
  msgPart : Nat
  /-- 16 bits | R313 | 0 | number of the flit the last replay began with -/
  lastNak : BitVec 16
  /-- flag | R329 | clear | it has gone DOWN or OFF and its route switch is still to come -/
  switchDue : Bool
  /-- number or none | R329 | none | last message whole that the partner's LINK_NOTICE about this bride has named since the last training -/
  noticed : Option Nat
  /-- 16 bits | R243, R261 | 0 | source in the header of the message being received -/
  msgFrom : Nat
  /-- 64 bits | R317 | 0 | module time of the last training attempt -/
  triedAt : Nat
  /-- list | R310, R329 | empty | messages queued on the bride and not acknowledged whole, oldest first; their flits are the kept ones -/
  queued : List Queued
  /-- time or none | R329 | none | module time since which a LINK_NOTICE is awaited -/
  noticeWait : Option Nat
  /-- time or none | R334 | none | last HOLD record -/
  holdRecord : Option Nat
  /-- flag | R333 | clear | its entry changed in the topology commit in progress -/
  reshaping : Bool
  /-- bride or none | R305, R318 | none | spare bride: the bride it stands for -/
  standsFor : Option Nat
  deriving DecidableEq, Repr, Inhabited

/-- A bride after power good: DARK, no partner (R318). -/
def Bride.init : Bride :=
  { state := 1, lanes := 0, laneOut := 0, txHalf := 0, report := 0, classed := false, lengthReport := false,
    swappedWith := 0xFF, partnerId := 0xFFFF, partnerBride := 0xFF, partnerSerial := 0, member := false, rtt := 0,
    length := 0, partnerTopo := 0, downs := 0, replays := 0, fecBad := 0, fecFixed := 0, flits := 0, stateTime := 0,
    expect := 0, sendSeq := 0, unacked := 0, unsent := 0, sameReplays := 0, recentReplays := [], fecSecond := false, fecFailed := false, nextMsg := 1, lastWhole := 0,
    msgPart := 0, lastNak := 0, switchDue := false, noticed := none, msgFrom := 0, triedAt := 0, queued := [], noticeWait := none, holdRecord := none, reshaping := false, standsFor := none }

/-- A flit that leaves on a bride. -/
inductive FlitOut where
  /-- A message flit (R307): each lane in use with the bytes it carries. -/
  | message (bride : Nat) (lanes : List (Nat × Bytes))
  /-- A NAK flit (R310, R314): each lane in use with the bytes it carries. -/
  | nak (bride : Nat) (lanes : List (Nat × Bytes))
  /-- An idle flit (R307): each lane in use with the bytes it carries. -/
  | idle (bride : Nat) (lanes : List (Nat × Bytes))
  /-- A timing flit (R353): each lane in use with the bytes it carries. -/
  | timing (bride : Nat) (lanes : List (Nat × Bytes))
  /-- A training record of 64 bytes (R319). -/
  | training (bride : Nat) (r : Bytes)
  deriving DecidableEq, Repr, Inhabited

/-- A route table entry of R324. -/
structure Route where
  first : Nat
  alt : Nat
  kind : Nat
  hops : Nat
  exit : Nat
  deriving DecidableEq, Repr, Inhabited

/-- An unreachable destination. -/
def Route.init : Route := { first := 0, alt := 0, kind := 0, hops := 0, exit := 0xFFFF }

/-- A light-supply input (R315): 0 ABSENT, 1 LOW, 2 PARTIAL, 3 GOOD. -/
structure Light where
  state : Nat
  low : BitVec 8
  since : Nat
  deriving DecidableEq, Repr, Inhabited

/-- An input before its first reading. -/
def Light.init : Light := { state := 0, low := 0, since := 0 }

/-- Brides, routes, peers. -/
structure Fabric where
  /-- 32 | R317 | Bride.init | by number -/
  bride : Tab Bride
  /-- 4,096 x 32 bits | R324 | Route.init | by machine id -/
  route : Tab Route
  /-- 9 | R315 | ABSENT | light-supply inputs -/
  light : Tab Light
  /-- (slot, bride, partner) list | R325, R326, R331 | empty | brides of peers known to carry traffic -/
  peerLinks : List (Nat × Nat × Nat)
  /-- (group, groups) list | R331 | empty | group bitmaps -/
  groupLinks : List (Nat × List Nat)
  /-- (machine, time) list | R261 | empty | when each group peer was last heard -/
  heard : List (Nat × Nat)
  /-- list | R261 | empty | peers declared missing -/
  missing : List Nat
  /-- time or none | R333 | none | module time of a topology commit whose TOPO_READY is not yet sent -/
  reshape : Option Nat
  /-- (machine, topo_version) list | R331 | empty | TOPO_READY received from peers -/
  topoReady : List (Nat × Nat)
  /-- list | R243 | empty | messages sent, newest first (the model's own outbox) -/
  out : List Msg
  /-- list | R307, R310, R319, R353 | empty | message, idle, NAK and timing flits and training records sent, newest first (the model's own outbox) -/
  flits : List FlitOut
  deriving DecidableEq, Repr, Inhabited

/-! ### Temperature and power (R399 to R417) -/

/-- One thermal sensor (R399 to R409). -/
structure Sensor where
  /-- (time, value) list, newest first | R401 | empty | readings of the last 2 s and one before -/
  hist : List (Nat × Int)
  /-- 8 bits | R415 | 0 good | 0 good, 1 stuck, 2 out of range, 3 disagreeing -/
  state : Nat
  /-- flag | R400, R415 | clear | FAST: read at 8 kHz -/
  fast : Bool
  /-- flag | R402, R415 | clear | NOTICE armed out -/
  noticed : Bool
  /-- flag | R400, R415 | clear | BAND -/
  band : Bool
  /-- time | R400 | 0 | since when it has not been near a limit -/
  calmSince : Nat
  /-- time or none | R402 | none | since when the 2 s rate has stayed below 0.25 °C/s -/
  quietSince : Option Nat
  /-- count | R409 | 0 | successive missed readings -/
  missed : Nat
  /-- time or none | R409 | none | while broken: since when no condition has held -/
  healSince : Option Nat
  /-- (time, value) or none | R409 | none | since when the reading has not moved by more than 1/128 °C from this value -/
  still : Option (Nat × Int)
  /-- (time, twice the median) list, newest first | R409 | empty | neighbour medians of the last 10 s and one before -/
  medians : List (Nat × Int)
  /-- count | R408 | 0 | successive readings above the absolute limit -/
  overCount : Nat
  deriving DecidableEq, Repr, Inhabited

/-- A sensor that has not read yet. -/
def Sensor.init : Sensor :=
  { hist := [], state := 0, fast := false, noticed := false, band := false, calmSince := 0, quietSince := none,
    missed := 0, healSince := none, still := none, medians := [], overCount := 0 }

/-- Thermal path and governor. -/
structure Thermal where
  /-- 196 | R399 | Sensor.init | sensors -/
  sensor : Tab Sensor
  /-- 4 bits | R404 | 0 | thermal level -/
  level : Nat
  /-- time or none | R404 | none | since when some rate has stayed above 2 °C/s, moved on at each rise -/
  hotSince : Option Nat
  /-- time or none | R404 | none | since when every rate has stayed below 1 °C/s, moved on at each fall -/
  coolSince : Option Nat
  /-- 4 bits | R412 | 0 | power level -/
  powerLevel : Nat
  /-- count of ms | R412 | 0 | consecutive intervals below B - 100 W -/
  lowMs : Nat
  /-- W | R416 | 40 | governor share P_A -/
  shareGov : Nat
  /-- flag | R411, R416 | clear | INPUT_LOW -/
  inputLow : Bool
  /-- W | R416 | 0 | power of the last 1 ms -/
  powerW : Nat
  /-- list of W | R416 | empty | powers of the last 1,000 intervals, newest first -/
  recentW : List Nat
  /-- mV | R416 | 0 | last input voltage -/
  inputMv : Nat
  /-- mA | R416 | 0 | last input current -/
  inputMa : Nat
  /-- mJ x 10^6 | R416 | 0 | input energy, in nJ -/
  energyNj : Nat
  /-- ns | R416 | 0 | time with the level in force above 0 -/
  throttled : Nat
  /-- time or none | R412 | none | last LEVEL_UP record at level 14 -/
  record14 : Option Nat
  deriving DecidableEq, Repr, Inhabited

/-! ### Firmware, configuration, security (R425 to R453) -/

/-- States of a firmware slot (R430). -/
inductive FwSlotState where
  | empty | staged | running | previous
  deriving DecidableEq, Repr, Inhabited

/-- One firmware slot. -/
structure FwSlot where
  state : FwSlotState
  /-- image of the slot as stored, with its header fields -/
  image : Bytes
  version : Nat
  floorRaise : Nat
  keyIndex : Nat
  revoke : BitVec 4
  ifMin : Nat
  ifMax : Nat
  coefFmt : Nat
  cfgMin : Nat
  cfgMax : Nat
  deriving DecidableEq, Repr, Inhabited

/-- An empty firmware slot. -/
def FwSlot.none : FwSlot :=
  { state := .empty, image := [], version := 0, floorRaise := 0, keyIndex := 0, revoke := 0, ifMin := 0, ifMax := 0,
    coefFmt := 0, cfgMin := 0, cfgMax := 0 }

/-- An activation between its restart and its confirmation (R431). -/
structure Activation where
  /-- mailbox | R431 | - | mailbox of the command, if its state survives -/
  mailbox : Nat
  /-- 3 to 6 | R471 | - | start-up stage to go on from after stages 1 and 2 -/
  stageBefore : Nat
  deriving DecidableEq, Repr, Inhabited

/-- The firmware part of the selvage and the running firmware. -/
structure Firmware where
  /-- slot | R430 | RUNNING, a shipped image (log 11) | slot A -/
  slotA : FwSlot
  /-- slot | R430 | EMPTY (log 11) | slot B -/
  slotB : FwSlot
  /-- 0 A, 1 B | R430 | 0 | slot the bobbin runs -/
  running : Nat
  /-- 0 A, 1 B | R430 | 0 | slot the boot record names -/
  boot : Nat
  /-- 0 to 2 | R430 | 0 | pending count of the boot record -/
  pending : Nat
  /-- code of R453, 0 none | R434 | 0 | why the last boot failed, until the firmware that confirms has recorded it -/
  failReason : Nat
  /-- 32 bits | R432 | 0 (log 11) | version floor -/
  floor : BitVec 32
  /-- 4 bits | R432 | 0 | revocation mask -/
  revoked : BitVec 4
  /-- key or none | R449 | none | owner lock -/
  lock : Option Nat
  /-- activation or none | R431 | none | in progress -/
  activation : Option Activation
  /-- flag | R431 | clear | no new step starts until the DONE record -/
  holdSteps : Bool
  /-- 64 bits | R425 | 0 (log 11) | module serial -/
  serial : Nat
  /-- 48 bits | R338, R425 | 0 (log 11) | MAC address -/
  mac : Nat
  deriving DecidableEq, Repr, Inhabited

/-- States of a configuration slot (R445). -/
inductive CfgSlotState where
  | empty | staged | current | previous
  deriving DecidableEq, Repr, Inhabited

/-- One configuration slot: its state and the image as staged. -/
structure CfgSlot where
  state : CfgSlotState
  image : Bytes
  deriving DecidableEq, Repr, Inhabited

/-- A membership record of R441. -/
structure Member where
  serial : Nat
  machineId : Nat
  role : Nat
  deriving DecidableEq, Repr, Inhabited

/-- A cabling-plan entry of R320. -/
structure CableEntry where
  partner : Nat
  partnerBride : Nat
  cls : Nat
  lengthM : Nat
  deriving DecidableEq, Repr, Inhabited

/-- A link or spare entry of R332. -/
structure LinkEntry where
  valid : Bool
  partnerGroup : Nat
  partnerLink : Nat
  deriving DecidableEq, Repr, Inhabited

/-- A spare-bride entry of R332. -/
structure SpareEntry where
  valid : Bool
  standsFor : Nat
  partner : Nat
  deriving DecidableEq, Repr, Inhabited

/-- A host port record of R442. -/
structure PortCfg where
  machineId : Nat
  ipv4Prefix : Nat
  ipv6Prefix : Nat
  ipv4 : Nat
  ipv6 : Nat
  vlan : Nat
  pfcA : Nat
  pfcB : Nat
  dscpCnp : Nat
  pcpCnp : Nat
  ptpDomain : Nat
  ptpPriority2 : Nat
  timePriority : Nat
  refEnable : Nat
  deriving DecidableEq, Repr, Inhabited

/-- The defaults of R339. -/
def PortCfg.default : PortCfg :=
  { machineId := 0xFFFF, ipv4Prefix := 0, ipv6Prefix := 0, ipv4 := 0, ipv6 := 0, vlan := 0, pfcA := 3, pfcB := 4,
    dscpCnp := 48, pcpCnp := 6, ptpDomain := 0, ptpPriority2 := 128, timePriority := 128, refEnable := 3 }

/-- A machine configuration, read (R439 to R443). -/
structure MachineCfg where
  fmt : Nat
  version : Nat
  machineTag : Nat
  members : List Member
  cables : List (Nat × List CableEntry)
  topoVersion : Nat
  groups : Nat
  shape : Nat
  /-- link entries in group order, 256 per group -/
  links : List LinkEntry
  spares : List SpareEntry
  ports : List PortCfg
  budget : Nat
  tau : Nat
  auditLog2 : Nat
  hostOffset : Nat
  hostSize : Nat
  deriving DecidableEq, Repr, Inhabited

/-- The default configuration of R448. -/
def MachineCfg.default : MachineCfg :=
  { fmt := 1, version := 0, machineTag := 0, members := [], cables := [], topoVersion := 0, groups := 1, shape := 0,
    links := [], spares := [], ports := [], budget := 1200, tau := 6, auditLog2 := 12, hostOffset := 0, hostSize := 0 }

/-- Configuration slots and the configuration in force. -/
structure ConfigState where
  /-- slot | R445 | CURRENT, empty image: the default configuration (log 11) | slot A -/
  slotA : CfgSlot
  /-- slot | R445 | EMPTY | slot B -/
  slotB : CfgSlot
  /-- configuration | R448 | default configuration | in force -/
  cur : MachineCfg
  /-- flag | R448 | clear | the firmware has read its current slot since power good -/
  read : Bool
  /-- W | R411 | 1,200 | B in force, taken at the governor's intervals -/
  budget : Nat
  /-- flag | R447 | clear | queue pairs break after the DONE record is written -/
  breakQps : Bool
  deriving DecidableEq, Repr, Inhabited

/-! ### Digital islands (R380 to R386) and takeover (R293 to R298) -/

/-- One digital island (R380, R385, R396). -/
structure Island where
  /-- 0 serving, 1 in margin window, 2 retired | R396 | 0 | state -/
  state : Nat
  /-- 16 bits | R396 | 0 | outvotes since module start -/
  outvotes : Nat
  /-- time or none | R385 | none | last outvote -/
  lastOutvote : Option Nat
  /-- times | R382, R396 | empty | marginal results -/
  marginal : List Nat
  /-- flag | R381 | clear | a margin window is due at once -/
  forced : Bool
  /-- reason or none | R385 | none | retirement condition met, retirement not yet made -/
  retire : Option Nat
  deriving DecidableEq, Repr, Inhabited

/-- An island at reset. -/
def Island.init : Island := { state := 0, outvotes := 0, lastOutvote := none, marginal := [], forced := false, retire := none }

/-- Islands and margin windows. -/
structure Islands where
  /-- 252 | R380 | Island.init | by number in the order of R380 -/
  island : Tab Island
  /-- 0 to 251 | R380 | 0 | island of the next scheduled window -/
  next : Nat
  /-- 64 bits | R380 | 0 | module time at which the next window may open -/
  due : Nat
  /-- 64 bits | R380 | 0 | module time at which the open window was opened -/
  opened : Nat
  /-- 64 bits | R381 | 0 | module time before which a forced window that could not open is not tried again -/
  retry : Nat
  /-- kinds | R386 | empty | unit kinds whose degraded service has been recorded -/
  degraded : List Nat
  deriving DecidableEq, Repr, Inhabited

/-- A planned move of a module's roles (R294, R298): from a step number per sequence on, `holder` has what was `machine`'s. -/
structure Move where
  machine : Nat
  holder : Nat
  /-- (motif, sequence, companion's main motif, step): earlier steps stay with the holder before -/
  before : List (Nat × Nat × Option Nat × Nat)
  deriving DecidableEq, Repr, Inhabited

/-- A page whose frame is to go to another module (R293, R294, R298). -/
structure PageSend where
  dest : Nat
  motif : Nat
  seq : Nat
  layer : Nat
  page : Nat
  /-- Offset of its frame in the memory window. -/
  frame : Nat
  /-- Goes as home copy, else as shadow copy. -/
  home : Bool
  deriving DecidableEq, Repr, Inhabited

/-- Takeover and hand-back seen from this module. -/
structure Takeover where
  /-- machine id or none | R70, R294 | none | vacated: the module that now holds its roles -/
  vacatedTo : Option Nat
  /-- mailbox or none | R294 | none | mailbox of a TAKEOVER in progress -/
  mailbox : Option Nat
  /-- mailbox or none | R298 | none | mailbox of a HANDBACK in progress -/
  backBox : Option Nat
  /-- 0, 1, 2 | R67 | 0 | progress of the takeover or hand-back -/
  progress : Nat
  /-- machine id or none | R293, R436 | none | module the group spare serves for, as this module knows it -/
  spareServes : Option Nat
  /-- flag | R294, R436 | clear | the group spare has taken itself out with TAKEOVER or restarts -/
  spareOut : Bool
  /-- list, newest first | R294, R298 | empty | planned moves with their handover step numbers -/
  moves : List Move
  /-- (mailbox, time) list | R296 | empty | when the last HEAD_SYNC for a change of a mailbox's read_count was sent -/
  syncSent : List (Nat × Nat)
  /-- mailboxes | R296 | empty | changes of read_count that wait for their 100 µs -/
  syncDue : List Nat
  /-- entries | R296 | empty | spare: last HEAD_SYNC of each mailbox of a head -/
  synced : List (Nat × HeadSync)
  /-- machine id -> holder list | R299 | empty | ROLE messages received -/
  roles : List (Nat × Nat)
  /-- (source, motif, sequence, layer, local index, home) list | R300 | empty | page copies that failed their check and are fetched again -/
  refetch : List (Nat × Nat × Nat × Nat × Nat × Bool)
  /-- list | R374, R300 | empty | page copies that read a flagged block, to be read again -/
  unsent : List PageSend
  /-- machine ids | R269, R295 | empty | modules of other groups that are lost with no spare left to stand in -/
  farLost : List Nat
  deriving DecidableEq, Repr, Inhabited

/-! ### The state -/

/-- The state of the module. -/
structure State where
  boxes : Mailboxes
  port : HostPort
  log : EventLog
  counters : Counters
  monitor : Monitor
  time : TimeUnit
  start : Startup
  mem : Memory
  arrays : Arrays
  motifs : Motifs
  seqs : Seqs
  steps : Steps
  data : DataPath
  attn : Attention
  knots : Knots
  fabric : Fabric
  thermal : Thermal
  fw : Firmware
  cfg : ConfigState
  islands : Islands
  take : Takeover
  /-- count | the model's own (log 3) | 0 | draws of free values taken so far -/
  draws : Nat
  /-- queue | the block's form | empty | commands waiting, first in first out -/
  pending : List Instr
  deriving DecidableEq, Repr

/-- The image a module is shipped with, which slot A runs (R430; log 11). -/
def FwSlot.shipped : FwSlot :=
  { state := .running, image := [], version := 0, floorRaise := 0, keyIndex := 0, revoke := 0, ifMin := 0x0100,
    ifMax := 0x0100, coefFmt := 1, cfgMin := 1, cfgMax := 1 }

/-- The module right after power good: module time 0, stage 1 of R470 begins, nothing resident. -/
def State.reset : State :=
  { boxes := { box := [], noted := [], consumed := 0 }
    port := { up := false, qps := [], rkeys := (List.range 8).map fun i => Config.draw i % 2 ^ 32, fragments := 0, badFrames := 0, udDropped := 0,
              longSends := 0, pausedTx := [], pausedRx := [], lastLldp := none, ptpSequence := 0, out := [] }
    log := { written := 0, readCount := 0, lost := 0, slots := [], recent := [], suppressed := 0 }
    counters := { suspects := 0, skipped := 0, recalls := 0, replays := 0, audits := 0, auditsDropped := 0,
                  faultsBefore := 0, faultsAfter := 0, dupAudits := 0, dupFaults := 0, memCorrected := 0,
                  memUncorrectable := 0, stagingCorrected := 0, stagingUncorrectable := 0, scrubPasses := 0,
                  marginRuns := 0, marginFailures := 0, heartbeatsMissed := 0, voidRows := 0 }
    monitor := { entries := [], written := 0, readCount := 0, lost := 0, slots := [], replaced := [], programmed := 0 }
    time := { t16 := 0, fine := 0, rate := 0, ppb := 0, lock := 0, everLocked := false, stepped := false, goodMs := 0,
              thetas := [], offset := 0, theta := 0, freq := 0, delay := 0, source := none, stratum := 0xFF, groupRef := none, master := none,
              withdrawn := false, groupHeard := [], machineHeard := [], ppsValid := false, refValid := false,
              gateLink := none, gateOffset := none, holdoverSince := 0, ppsLast := none, stamps := [], gateTheta := none }
    start := { powerGood := true, stage := 1, rom := false, slot := 0, holdupL := true, resetL := true, pwrGood := true,
               thermTrip := false, ppsOut := false, refOut := false, modPresentL := false, safe := false, hwTrip := false,
               memoryFailed := false, leftSafe := false, stageStart := 0 }
    mem := { window := [], flagged := [], flaggedStaging := [], settled := [], tried := [], scrubbed := 0, retired := [], seenCorrected := [], worn := [] }
    arrays := { addr := [], phys := [], remap := [], retired := [], loadHalves := [], freezeUntil := none, dutyUsed := 0, dutyStart := 0, macs := 0, freeUsed := 0,
                dutyWait := [], share := 40 }
    motifs := { table := [], loads := [], doneLoads := [], switches := [], layers := [] }
    seqs := { open_ := [], bindings := [], frames := [], binds := [], slow := [], short := [] }
    steps := { live := [], commitLevel := [], actWait := [] }
    data := { rotated := [], parts := [], tambour := [], tambourWait := [], wide := [], outs := [], audits := [], unitAudits := [], tambourUse := [] }
    attn := { latches := [], rows := [], closed := [], pipes := [], units := [], parts := [], merged := [], outs := [], written := [], slotsWait := [], compactWait := [], compactDue := [], sentRows := [] }
    knots := { knot := [], wakes := [], reply := .ok }
    fabric := { bride := [], route := [], light := [], peerLinks := [], groupLinks := [], heard := [],
                missing := [], reshape := none, topoReady := [], out := [], flits := [] }
    thermal := { sensor := [], level := 0, hotSince := none, coolSince := none, powerLevel := 0, lowMs := 0, shareGov := 40,
                 inputLow := false, powerW := 0, recentW := [], inputMv := 0, inputMa := 0, energyNj := 0, throttled := 0,
                 record14 := none }
    fw := { slotA := FwSlot.shipped, slotB := FwSlot.none, running := 0, boot := 0, pending := 0, failReason := 0, floor := 0, revoked := 0,
            lock := none, activation := none, holdSteps := false, serial := 0, mac := 0 }
    cfg := { slotA := { state := .current, image := [] }, slotB := { state := .empty, image := [] }, cur := MachineCfg.default,
             read := false, budget := 1200, breakQps := false }
    islands := { island := [], next := 0, due := 0, opened := 0, retry := 0, degraded := [] }
    take := { vacatedTo := none, mailbox := none, backBox := none, progress := 0, spareServes := none, spareOut := false,
              moves := [], syncSent := [], syncDue := [], synced := [], roles := [], refetch := [], unsent := [], farLost := [] }
    draws := 8
    pending := [] }

end Sys2Proof.Machine
end

