-- ==== Sys2Proof/Machine/Flags.lean ====
section
/-! DEFINITION. Codes and flag computations: opcodes (R67), status codes (R79), slow causes (R73), unit kinds (R388), the throttle ladder (R403). -/

namespace Sys2Proof.Machine

/-! ### Opcodes (R67) -/

def opIdentify : Nat := 0x0001
def opConfigRead : Nat := 0x0010
def opConfigStage : Nat := 0x0011
def opConfigCommit : Nat := 0x0012
def opConfigRevert : Nat := 0x0013
def opMotifLoad : Nat := 0x0020
def opMotifSwitch : Nat := 0x0021
def opMotifDrop : Nat := 0x0022
def opMotifQuery : Nat := 0x0023
def opSeqOpen : Nat := 0x0030
def opSeqAppend : Nat := 0x0031
def opSeqGenerate : Nat := 0x0032
def opSeqFork : Nat := 0x0033
def opSeqClose : Nat := 0x0034
def opPagesBind : Nat := 0x0038
def opCalFreeze : Nat := 0x0040
def opCalCommit : Nat := 0x0041
def opHealthRead : Nat := 0x0050
def opMonitorProgram : Nat := 0x0058
def opTimeRead : Nat := 0x0060
def opTakeover : Nat := 0x0070
def opHandback : Nat := 0x0071
def opFwStage : Nat := 0x0080
def opFwActivate : Nat := 0x0081
def opFwRevert : Nat := 0x0082
def opOwnerLock : Nat := 0x0090
def opAttest : Nat := 0x00A0

/-- The opcodes R67 defines. -/
def opcodes : List Nat :=
  [0x0001, 0x0010, 0x0011, 0x0012, 0x0013, 0x0020, 0x0021, 0x0022, 0x0023, 0x0030, 0x0031, 0x0032, 0x0033, 0x0034,
   0x0038, 0x0040, 0x0041, 0x0050, 0x0058, 0x0060, 0x0070, 0x0071, 0x0080, 0x0081, 0x0082, 0x0090, 0x00A0]

/-- A motif or sequence command (R70, R405): the opcodes 0x20 to 0x38. -/
def isMotifOrSeqOp (op : Nat) : Bool := decide (0x20 ≤ op ∧ op ≤ 0x38)

/-- A sequence command, whose status word shows slow causes (R73). -/
def isSeqOp (op : Nat) : Bool := decide (0x30 ≤ op ∧ op ≤ 0x38)

/-- A firmware or configuration command (R437): at most one runs on the module. -/
def isUpdateOp (op : Nat) : Bool :=
  decide (op = 0x10 ∨ op = 0x11 ∨ op = 0x12 ∨ op = 0x13 ∨ op = 0x80 ∨ op = 0x81 ∨ op = 0x82)

/-- The commands served in the safe state (R406). -/
def isSafeOp (op : Nat) : Bool :=
  decide (op = 0x01 ∨ op = 0x10 ∨ op = 0x50 ∨ op = 0x58 ∨ op = 0x60 ∨ op = 0xA0 ∨ op = 0x71)

/-- The commands served in the ROM state (R472). -/
def isRomOp (op : Nat) : Bool := decide (op = 0x01 ∨ op = 0x80 ∨ op = 0x81 ∨ op = 0xA0 ∨ op = 0x60)

/-! ### Status codes (R79) -/

def stOk : Nat := 0x0000
def stStopped : Nat := 0x0001
def stCancelled : Nat := 0x0002
def stPending : Nat := 0x0003
def stBadOpcode : Nat := 0x0100
def stReserved : Nat := 0x0101
def stBadParam : Nat := 0x0102
def stNoVersion : Nat := 0x0103
def stVersion : Nat := 0x0104
def stBadPricking : Nat := 0x0105
def stVocabMismatch : Nat := 0x0106
def stNotHead : Nat := 0x0200
def stNoSequence : Nat := 0x0201
def stSeqExists : Nat := 0x0202
def stSeqBusy : Nat := 0x0203
def stNoMotif : Nat := 0x0204
def stMotifInUse : Nat := 0x0205
def stNoCopy : Nat := 0x0206
def stNotStaged : Nat := 0x0207
def stPeerGone : Nat := 0x0208
def stSeqEmpty : Nat := 0x0209
def stNoSeq : Nat := 0x0300
def stSeqFull : Nat := 0x0301
def stNoPages : Nat := 0x0302
def stPagesShort : Nat := 0x0303
def stNoRoom : Nat := 0x0304
def stFetchFail : Nat := 0x0400
def stDigest : Nat := 0x0401
def stBufFail : Nat := 0x0402
def stBufShort : Nat := 0x0403
def stBadSignature : Nat := 0x0500
def stBadCrc : Nat := 0x0501
def stVersionFloor : Nat := 0x0502
def stLocked : Nat := 0x0503
def stHoldup : Nat := 0x0504
def stNoSpare : Nat := 0x0505
def stLockKey : Nat := 0x0506

/-! ### Slow causes (R73) -/

def slowTakeover : Nat := 0
def slowReplay : Nat := 1
def slowPrecision : Nat := 2
def slowThermal : Nat := 3
def slowPower : Nat := 4
def slowTambour : Nat := 5
def slowNarrowed : Nat := 6
def slowRing : Nat := 7
def slowSwitch : Nat := 8

/-- A slow-cause mask with one bit. -/
def slowBit (i : Nat) : BitVec 16 := BitVec.ofNat 16 (2 ^ i)

/-- The causes noted within the last 10 ms (R73). -/
def slowMask (seen : List (Nat × Nat)) (now : Nat) : BitVec 16 :=
  seen.foldl (fun w c => if now < c.2 + 10000000 then w ||| slowBit c.1 else w) 0

/-! ### Unit kinds of event records (R388) -/

def kModule : Nat := 0
def kArray : Nat := 1
def kRotation : Nat := 2
def kVector : Nat := 3
def kAttention : Nat := 4
def kTambour : Nat := 5
def kDma : Nat := 6
def kStack : Nat := 7
def kBank : Nat := 8
def kBride : Nat := 9
def kHostPort : Nat := 10
def kLight : Nat := 11
def kTime : Nat := 12
def kWindow : Nat := 13
def kLayer : Nat := 14
def kMailbox : Nat := 15
def kSensor : Nat := 16
def kMonitor : Nat := 17

/-! ### The throttle ladder (R403) -/

/-- W_max of a level. -/
def ladderWmax (level : Nat) : Nat :=
  if level = 0 then 64 else if level = 1 then 32 else if level = 2 then 16 else if level = 3 then 8
  else if level = 4 then 4 else if level = 5 then 2 else 1

/-- Prefill chunk of a level. -/
def ladderChunk (level : Nat) : Nat :=
  if level ≤ 6 then 4096 else if level = 7 then 2048 else if level = 8 then 1024 else if level = 9 then 512 else 256

/-- Array share cap of a level, in W. -/
def ladderShare (level : Nat) : Nat :=
  if level ≤ 10 then 400 else if level = 11 then 300 else if level = 12 then 200 else if level = 13 then 100 else 40

/-! ### Islands (R380) -/

/-- The unit kind and the index within it of island `i`: 128 vector, 64 rotation, 48 attention, 4 tambour, 8 DMA. -/
def islandKind (i : Nat) : Nat × Nat :=
  if i < 128 then (kVector, i) else if i < 192 then (kRotation, i - 128) else if i < 240 then (kAttention, i - 192)
  else if i < 244 then (kTambour, i - 240) else (kDma, i - 244)

/-- How many islands a kind has and where it begins. -/
def kindIslands (kind : Nat) : Nat × Nat :=
  if kind = kVector then (0, 128) else if kind = kRotation then (128, 64) else if kind = kAttention then (192, 48)
  else if kind = kTambour then (240, 4) else if kind = kDma then (244, 8) else (0, 0)

/-- The fewest units of a kind without degraded service (R386). -/
def kindMinimum (kind : Nat) : Nat :=
  if kind = kTambour then 2 else if kind = kAttention then 24 else if kind = kVector then 64
  else if kind = kRotation then 32 else if kind = kDma then 4 else 0

end Sys2Proof.Machine
end

