-- ==== Sys2Proof/Machine/Operands.lean ====
section
/-! DEFINITION. The operands of host commands: parameter layouts, reserved bytes and ranges (R57, R62 to R66). -/

namespace Sys2Proof.Machine

/-- Bytes of an entry from `lo` up to, not including, `hi` are all used. -/
structure Span where
  lo : Nat
  hi : Nat
  deriving DecidableEq, Repr

/-- The parameter bytes a command uses (R65). -/
def usedSpans (op : Nat) : List Span :=
  if op = opIdentify then [⟨0x08, 0x0C⟩]
  else if op = opConfigRead then [⟨0x08, 0x09⟩, ⟨0x10, 0x20⟩]
  else if op = opConfigStage then [⟨0x10, 0x20⟩]
  else if op = opConfigCommit then [⟨0x10, 0x14⟩]
  else if op = opMotifLoad then [⟨0x08, 0x0A⟩, ⟨0x10, 0x1C⟩, ⟨0x20, 0x28⟩]
  else if op = opMotifSwitch then [⟨0x08, 0x09⟩]
  else if op = opMotifDrop then [⟨0x08, 0x09⟩]
  else if op = opMotifQuery then [⟨0x08, 0x09⟩, ⟨0x10, 0x20⟩]
  else if op = opSeqOpen then [⟨0x08, 0x0B⟩, ⟨0x0C, 0x1E⟩]
  else if op = opSeqAppend then [⟨0x08, 0x09⟩, ⟨0x0C, 0x20⟩]
  else if op = opSeqGenerate then [⟨0x08, 0x1A⟩, ⟨0x1C, 0x40⟩]
  else if op = opSeqFork then [⟨0x08, 0x09⟩, ⟨0x0C, 0x14⟩, ⟨0x18, 0x20⟩]
  else if op = opSeqClose then [⟨0x08, 0x09⟩, ⟨0x0C, 0x10⟩]
  else if op = opPagesBind then [⟨0x08, 0x09⟩, ⟨0x0C, 0x14⟩, ⟨0x18, 0x20⟩]
  else if op = opCalFreeze then [⟨0x08, 0x09⟩]
  else if op = opCalCommit then [⟨0x10, 0x18⟩]
  else if op = opHealthRead then [⟨0x08, 0x09⟩, ⟨0x10, 0x20⟩]
  else if op = opMonitorProgram then [⟨0x10, 0x20⟩]
  else if op = opTakeover then [⟨0x08, 0x09⟩]
  else if op = opFwStage then [⟨0x10, 0x20⟩]
  else if op = opFwActivate then [⟨0x10, 0x14⟩]
  else if op = opOwnerLock then [⟨0x08, 0x09⟩, ⟨0x0C, 0x10⟩]
  else if op = opAttest then [⟨0x10, 0x40⟩]
  else []

/-- The byte of the reserved mask that the branch fields above depth D leave (R65), at byte `i` of the entry. -/
def branchMask (depth i : Nat) : Nat :=
  if depth ≤ 16 ∧ 0x1C ≤ i ∧ i < 0x28 then (2 ^ 96 - 2 ^ (6 * depth)) / 2 ^ (8 * (i - 0x1C)) % 256 else 0

/-- The reserved bits of byte `i` of an entry with opcode `op` (R57, R65). -/
def reservedMask (e : Bytes) (op i : Nat) : Nat :=
  if i = 0 then 0x7F
  else if i = 1 then 0xFF
  else if i < 8 then 0
  else if ¬ (usedSpans op).any (fun u => decide (u.lo ≤ i ∧ i < u.hi)) then 0xFF
  else if i = 0x0F ∧ isSeqOp op then 0xFF
  else if i = 0x13 ∧ op = opSeqFork then 0xFF
  else if i = 0x09 ∧ (op = opMotifLoad ∨ op = opSeqGenerate) then 0xFE
  else if op = opSeqGenerate then
    if 0x14 ≤ i ∧ i < 0x1A ∧ ¬ bit (field e 0x09 1) 0 then 0xFF
    else if 0x1C ≤ i ∧ i < 0x28 then branchMask (field e 0x0A 1) i
    else if 0x28 ≤ i ∧ field e 0x0B 1 ≤ 8 ∧ 0x28 + 3 * field e 0x0B 1 ≤ i then 0xFF
    else 0
  else 0

/-- Byte offset of the first reserved bit that is not 0 (R62 step 3). -/
def firstReserved (e : Bytes) (op : Nat) : Option Nat :=
  (List.range 64).find? fun i => (e.getD i 0).toNat &&& reservedMask e op i ≠ 0

/-- The branch counts b1 to bD of a `SEQ_GENERATE` (R65). -/
def branchesOf (e : Bytes) : List Nat :=
  (List.range (min (field e 0x0A 1) 16)).map fun d => field e 0x1C 12 / 2 ^ (6 * d) % 64

/-- The width of a tree shape (R36). -/
def treeWidth : List Nat → Nat
  | [] => 1
  | b :: t => 1 + b * treeWidth t

/-- The stop token ids of a `SEQ_GENERATE` (R65). -/
def stopsOf (e : Bytes) : List Nat := (List.range (min (field e 0x0B 1) 8)).map fun i => field e (0x28 + 3 * i) 3

/-- The sampling set at an offset (R64). -/
def samplingOf (e : Bytes) (off : Nat) : Sampling :=
  { temp := field e off 2, topK := field e (off + 2) 2, topP := field e (off + 4) 2 }

/-- The first field of a sampling set out of range (R64). -/
def samplingBad (e : Bytes) (off : Nat) : Option Nat :=
  let s := samplingOf e off
  if s.temp ≠ 0 ∧ (s.temp < 16 ∨ 4096 < s.temp) then some off
  else if s.topK = 0 ∨ 256 < s.topK then some (off + 2)
  else none

/-- Whether a health report selector is in the tables of R393 and R414. -/
def selectorOk (sel : Nat) : Bool := decide (sel ≤ 0x07 ∨ (0x10 ≤ sel ∧ sel ≤ 0x32))

/-- Range checks of an entry in ascending field order: (fails, offset). -/
def rangeChecks (e : Bytes) (op : Nat) : List (Bool × Nat) :=
  let b := field e 0x08 1
  if op = opConfigRead then [(decide (2 < b), 0x08)]
  else if op = opMotifQuery then [(decide (15 < b ∧ b ≠ 0xFF), 0x08)]
  else if op = opMotifLoad ∨ op = opMotifSwitch ∨ op = opMotifDrop ∨ op = opSeqFork ∨ op = opSeqClose then [(decide (15 < b), 0x08)]
  else if op = opSeqOpen then
    [(decide (15 < b), 0x08), (decide (1 < field e 0x09 1), 0x09), (decide (15 < field e 0x0A 1 ∧ field e 0x0A 1 ≠ 0xFF), 0x0A),
     ((samplingBad e 0x18).isSome, (samplingBad e 0x18).getD 0)]
  else if op = opSeqAppend then
    [(decide (15 < b), 0x08),
     (decide (field e 0x1C 4 % 4 ≠ 0 ∨ field e 0x1C 4 = 0 ∨ 4194304 < field e 0x1C 4), 0x1C)]
  else if op = opSeqGenerate then
    [(decide (15 < b), 0x08), (decide (16 < field e 0x0A 1), 0x0A), (decide (8 < field e 0x0B 1), 0x0B),
     (decide (16777215 < field e 0x10 4), 0x10),
     (bit (field e 0x09 1) 0 && (samplingBad e 0x14).isSome, (samplingBad e 0x14).getD 0),
     ((branchesOf e).any (fun n => n = 0) || decide (64 < treeWidth (branchesOf e)), 0x1C)]
  else if op = opPagesBind then [(decide (15 < b), 0x08), (decide (field e 0x12 2 = 0), 0x12)]
  else if op = opCalFreeze then [(decide (1 < b), 0x08)]
  else if op = opCalCommit then
    [(decide (32767 < field e 0x10 4), 0x10),
     (decide (field e 0x14 4 = 0 ∨ 32768 < field e 0x10 4 + field e 0x14 4), 0x14)]
  else if op = opHealthRead then [(!selectorOk b, 0x08)]
  else if op = opTakeover then [(decide (2 < b), 0x08)]
  else if op = opOwnerLock then [(decide (1 < b), 0x08), (decide (b = 1 ∧ field e 0x0C 4 = 0), 0x0C)]
  else []

/-- Byte offset of the first parameter out of range (R62 step 4). -/
def firstBad (e : Bytes) (op : Nat) : Option Nat :=
  ((rangeChecks e op).find? (·.1)).map (·.2)

/-! ### Fields of an entry (R57, R65) -/

def entryOp (e : Bytes) : Nat := field e 0x02 2
def entryTag (e : Bytes) : Nat := field e 0x04 4
def entryMotif (e : Bytes) : Nat := field e 0x08 1
def entrySeq (e : Bytes) : Nat := field e 0x0C 3
def bufAddr (e : Bytes) : Nat := field e 0x10 8
def bufRkey (e : Bytes) : Nat := field e 0x18 4
def bufLen (e : Bytes) : Nat := field e 0x1C 4

/-- The OWN bit of an entry (R57). -/
def entryOwn (e : Bytes) : Bool := bit (field e 0 1) 7

/-- The entry with OWN cleared (R59). -/
def clearOwn (e : Bytes) : Bytes := overlay e 0 (leBytes 1 (field e 0 1 % 128))

end Sys2Proof.Machine
end

