-- ==== Sys2Proof/Machine/Hash.lean ====
section
/-! DEFINITION. The codes the spec names by standard: SHAKE256, CRC-32C, CRC-64 of ECMA-182, and the Reed-Solomon code of memory over GF(2^8). -/

namespace Sys2Proof.Machine

/-- The sponge state of SHAKE256: the five planes y = 0 to 4, each the lanes x = 0 to 4 of its plane. -/
abbrev Planes := List (List (BitVec 64))

/-- The planes with nothing absorbed. -/
def Planes.empty : Planes := List.replicate 5 (List.replicate 5 0)

/-- The sum of two states, lane by lane. -/
def Planes.add (p q : Planes) : Planes := List.zipWith (List.zipWith (· ^^^ ·)) p q

/-- θ: each lane takes the parities of the columns at its left and, turned by one bit, at its right. -/
def Planes.theta (p : Planes) : Planes :=
  let parity := p.foldl (List.zipWith (· ^^^ ·)) (List.replicate 5 0)
  let effect := List.zipWith (fun left right => left ^^^ right.rotateLeft 1) (parity.rotateRight 1) (parity.rotateLeft 1)
  p.map fun plane => List.zipWith (· ^^^ ·) plane effect

/-- ρ and π together, as the walk (x, y) → (y, 2x + 3y) from (1, 0): step t carries a lane to the next place turned by (t + 1)(t + 2)/2 bits. -/
def Planes.walk (p : Planes) : Nat → Nat → Nat → Nat → Planes → Planes
  | 0, _, _, _, out => out
  | left + 1, t, x, y, out =>
    let lane := ((p.getD y []).getD x 0).rotateLeft ((t + 1) * (t + 2) / 2 % 64)
    let y' := (2 * x + 3 * y) % 5
    p.walk left (t + 1) y y' (out.modify y' fun plane => plane.set y lane)

/-- χ: in each plane a lane is changed by the two lanes after it. -/
def Planes.chi (p : Planes) : Planes :=
  p.map fun plane =>
    List.zipWith (· ^^^ ·) plane (List.zipWith (fun next after => ~~~next &&& after) (plane.rotateLeft 1) (plane.rotateLeft 2))

/-- One step of the round generator x^8 + x^6 + x^5 + x^4 + 1. -/
def roundShift (g : BitVec 8) : BitVec 8 := if g.getLsbD 7 then (g <<< 1) ^^^ 0x71#8 else g <<< 1

/-- The constant of a round, whose bits stand at 2^j - 1 for j = 0 to 6, with the generator after it. -/
def roundConstant (g : BitVec 8) : BitVec 64 × BitVec 8 :=
  (List.range 7).foldl (fun c j => (if c.2.getLsbD 0 then c.1 ||| (1#64 <<< (2 ^ j - 1)) else c.1, roundShift c.2)) (0, g)

/-- `n` rounds from a generator state. -/
def Planes.rounds : Nat → BitVec 8 → Planes → Planes
  | 0, _, p => p
  | n + 1, g, p =>
    let q := p.theta
    let c := roundConstant g
    let r := (q.walk 24 0 1 0 q).chi
    Planes.rounds n c.2 (r.modify 0 fun plane => plane.modify 0 (· ^^^ c.1))

/-- The permutation under SHAKE256, 24 rounds. -/
def Planes.permute (p : Planes) : Planes := p.rounds 24 1

/-- The planes of a 136-byte block: 17 lanes of eight bytes, and zeros. -/
def blockPlanes (b : Bytes) : Planes :=
  (List.range 5).map fun y => (List.range 5).map fun x => BitVec.ofNat 64 (field b (8 * (5 * y + x)) 8)

/-- Absorption of a padded message, `n` blocks. -/
def absorb : Nat → Bytes → Planes → Planes
  | 0, _, p => p
  | n + 1, b, p => absorb n (b.drop 136) (p.add (blockPlanes (b.take 136))).permute

/-- Squeezing of `n` blocks of 136 bytes. -/
def squeeze : Nat → Planes → Bytes
  | 0, _ => []
  | n + 1, p => ((p.flatten.take 17).flatMap fun lane => leBytes 8 lane.toNat) ++ squeeze n p.permute

/-- The filling of the last block: the bits 1111 and the first and last bit of the padding. -/
def shakeFill (room : Nat) : Bytes := if room = 1 then [0x9F#8] else [0x1F#8] ++ zeros (room - 2) ++ [0x80#8]

/-- `len` bytes of SHAKE256 output over a message. -/
def shake256 (len : Nat) (msg : Bytes) : Bytes :=
  let n := msg.length / 136 + 1
  (squeeze (len / 136 + 1) (absorb n (msg ++ shakeFill (n * 136 - msg.length)) Planes.empty)).take len

/-- One byte into a reflected CRC-32. -/
def crc32cByte (c : BitVec 32) (b : Byte) : BitVec 32 :=
  (List.range 8).foldl (fun c _ => if c.getLsbD 0 then (c >>> 1) ^^^ 0x82F63B78#32 else c >>> 1) (c ^^^ b.setWidth 32)

/-- CRC-32C: Castagnoli polynomial 0x1EDC_6F41, reflected, initial value and final XOR all ones (R426). -/
def crc32c (b : Bytes) : BitVec 32 := ~~~(b.foldl crc32cByte 0xFFFFFFFF#32)

/-- One byte into the CRC-64, most significant bit first. -/
def crc64Byte (c : BitVec 64) (b : Byte) : BitVec 64 :=
  (List.range 8).foldl (fun c _ => if c.getLsbD 63 then (c <<< 1) ^^^ 0x42F0E1EBA9EA3693#64 else c <<< 1)
    (c ^^^ (b.setWidth 64 <<< 56))

/-- The CRC-64 of R309. -/
def crc64 (b : Bytes) : BitVec 64 := ~~~(b.foldl crc64Byte 0xFFFFFFFFFFFFFFFF#64)

/-- Product in GF(2^8) with x^8 + x^4 + x^3 + x^2 + 1 (R308, R373). -/
def gfMul (a b : Byte) : Byte :=
  ((List.range 8).foldl (fun (s : Byte × Byte) i =>
    ((if b.getLsbD i then s.1 ^^^ s.2 else s.1),
     (if s.2.getLsbD 7 then (s.2 <<< 1) ^^^ 0x1D#8 else s.2 <<< 1))) (0, a)).1

/-- A power in GF(2^8). -/
def gfPow (a : Byte) : Nat → Byte
  | 0 => 1
  | n + 1 => gfMul a (gfPow a n)

/-- The syndromes of a codeword of `n` symbols (symbol 0 of highest degree) at the powers 0 to `r` - 1 of 0x02. -/
def rsSyndromes (r : Nat) (w : List Byte) : List Byte :=
  (List.range r).map fun i => w.foldl (fun acc s => gfMul acc (gfPow 2 i) ^^^ s) 0

/-- The inverse in GF(2^8), the 254th power. -/
def gfInv (a : Byte) : Byte := gfPow a 254

/-- The four check symbols of the memory code for 64 data symbols: the remainder by the generator with roots 1, α, α², α³ (R373). -/
def rsCheck (data : List Byte) : List Byte :=
  -- generator x^4 + 15x^3 + 54x^2 + 120x + 64
  data.foldl (fun rem s =>
    let f := s ^^^ rem.getD 0 0
    [rem.getD 1 0 ^^^ gfMul f 0x0F, rem.getD 2 0 ^^^ gfMul f 0x36, rem.getD 3 0 ^^^ gfMul f 0x78, gfMul f 0x40])
    [0, 0, 0, 0]

/-- A codeword with symbol `i` changed by `e`. -/
def fixSymbol (w : List Byte) (i : Nat) (e : Byte) : List Byte := w.set i (w.getD i 0 ^^^ e)

/-- A single error of a 68-symbol word with syndromes s0 to s3, as (position, value). -/
def rsOne (s : List Byte) : Option (Nat × Byte) :=
  let e := s.getD 0 0
  if e = 0 then none else
  (List.range 68).findSome? fun i =>
    let x := gfPow 2 (67 - i)
    if gfMul e x = s.getD 1 0 ∧ gfMul (gfMul e x) x = s.getD 2 0 ∧ gfMul (gfMul (gfMul e x) x) x = s.getD 3 0
    then some (i, e) else none

/-- Two errors of a 68-symbol word, as positions and values: the first error's value follows from its assumed places. -/
def rsTwo (s : List Byte) : Option ((Nat × Byte) × (Nat × Byte)) :=
  let s0 := s.getD 0 0; let s1 := s.getD 1 0; let s2 := s.getD 2 0; let s3 := s.getD 3 0
  (List.range 68).findSome? fun i => (List.range i).findSome? fun j =>
    let x := gfPow 2 (67 - i); let y := gfPow 2 (67 - j)
    -- e + f = s0 and e·x + f·y = s1
    let e := gfMul (s1 ^^^ gfMul s0 y) (gfInv (x ^^^ y))
    let f := s0 ^^^ e
    if e ≠ 0 ∧ f ≠ 0 ∧ gfMul (gfMul e x) x ^^^ gfMul (gfMul f y) y = s2
        ∧ gfMul (gfMul (gfMul e x) x) x ^^^ gfMul (gfMul (gfMul f y) y) y = s3
    then some ((i, e), (j, f)) else none

/-- What the memory decoder finds in a word (R373): its data with the number of symbols corrected, or nothing when it is uncorrectable. -/
def rsDecode (w : List Byte) : Option (Bytes × Nat) :=
  let s := rsSyndromes 4 w
  if s.all (· = 0) then some (w.take 64, 0)
  else match rsOne s with
    | some (i, e) => some ((fixSymbol w i e).take 64, 1)
    | none => match rsTwo s with
      | some ((i, e), (j, f)) => some ((fixSymbol (fixSymbol w i e) j f).take 64, 2)
      | none => none

/-- A word as read: corrected data, or nothing when it is flagged uncorrectable, the CRC-32C over address and data included (R373). -/
def eccRead (addr : Nat) (symbols : List Byte) (crc : BitVec 32) : Option (Bytes × Nat) :=
  match rsDecode symbols with
  | none => none
  | some (d, n) => if crc32c (leBytes 8 addr ++ d) = crc then some (d, n) else none

/-- The word that a write of a block stores (R373). -/
def eccWrite (addr : Nat) (data : Bytes) : List Byte × BitVec 32 :=
  (data ++ rsCheck data, crc32c (leBytes 8 addr ++ data))

end Sys2Proof.Machine
end

