-- ==== Sys2Proof/Machine/Wire.lean ====
section
/-! DEFINITION. Messages as bytes: step tags, headers, payloads and the flits they travel in (R232, R240, R243 to R245, R299, R307 to R309, R331, R352). -/

namespace Sys2Proof.Machine

/-- The 24 bytes of a step tag (R240). -/
def tagBytes (t : StepTag) : Bytes :=
  leBytes 8 t.step ++ leBytes 3 t.seq ++ leBytes 1 t.motif ++ leBytes 2 t.gen ++ leBytes 2 t.layer ++ leBytes 4 t.lineage.toNat ++
  leBytes 1 (match t.companion with | none => 0 | some m => 128 + m) ++ zeros 3

/-! ### Payloads (R244, R299, R331, R352) -/

/-- An 8-byte subheader that begins with a count. -/
def countHeader (n : Nat) : Bytes := leBytes 2 n ++ zeros 6

/-- The elements of a vector of 4-bit elements, low half of a byte first (R121). -/
def nibbleBytes (elems : List Int) : Bytes :=
  (List.range (elems.length / 2)).map fun k => BitVec.ofNat 8 (unsigned 4 (elems.getD (2 * k) 0) + 16 * unsigned 4 (elems.getD (2 * k + 1) 0))

/-- The 96 bytes of a query row (R245). -/
def queryBytes (r : QueryRow) : Bytes :=
  overlay (layout 96 ([(0x00, 2, r.row), (0x02, 1, r.qHead), (0x03, 1, r.kvHead), (0x04, 1, r.node), (0x08, 4, r.position),
    (0x0C, 4, r.kvLength), (0x10, 8, r.ancestors.toNat)] ++ (List.range 4).map fun b => (0x58 + b, 1, r.scales.getD b 0)))
    0x18 (nibbleBytes r.elems)

/-- A slot as SLOT and COMPACT carry it: position and node, then keys and values head by head and after them the scales, in page order (R201, R244). -/
def slotBytes (x : SlotData) : Bytes :=
  leBytes 4 x.position ++ leBytes 1 x.node ++ zeros 3 ++ (x.heads.flatMap fun h => h.1 ++ h.2.1) ++
    x.heads.flatMap fun h => h.2.2.1 ++ h.2.2.2

/-- The flags byte of a row partial (R232). -/
def partialFlags (r : RowPartial) : Nat := b2n r.empty + 2 * b2n r.merged + 4 * b2n r.shadow

/-- The 528 bytes of a row partial or a merged row (R232): m is 0 when it is empty. -/
def partialBytes (r : RowPartial) : Bytes :=
  overlay (layout 528 [(0x000, 2, r.layer), (0x004, 2, r.row), (0x006, 1, r.rank), (0x007, 1, partialFlags r),
    (0x008, 4, if r.empty then 0 else r.m.toNat), (0x00C, 4, r.l.toNat)]) 0x010 (r.o.flatMap fun x => leBytes 4 x.toNat)

/-- The payload of a CHECK (R252). -/
def checkBytes (c : CheckBody) : Bytes :=
  layout 16 [(0x00, 2, c.modules), (0x02, 2, c.through), (0x04, 4, c.replays), (0x08, 2, satTo 16 c.tambourTiles), (0x0A, 2, c.slow.toNat),
    (0x0C, 1, c.level)]

/-- The flags of a COMMIT (R253). -/
def commitFlags (c : CommitBody) : Nat := b2n c.endFlag + 2 * b2n c.prefill + 4 * b2n c.uncommitted

/-- The payload of a COMMIT (R253). -/
def commitBytes (c : CommitBody) : Bytes :=
  layout 112 ([(0x00, 8, c.time), (0x08, 4, c.tokenLength), (0x0C, 1, c.delivered), (0x0D, 1, commitFlags c), (0x0E, 2, c.slow.toNat),
    (0x64, 1, c.level)] ++ (c.path.take 16).mapIdx (fun d x => (0x10 + d, 1, x)) ++ (c.tokens.take 17).mapIdx fun j x => (0x20 + 4 * j, 4, x))

/-- The payload of a RECALL (R256). -/
def recallBytes (r : RecallBody) : Bytes :=
  layout 16 [(0x00, 1, r.cause), (0x01, 1, b2n r.noReplay), (0x02, 2, r.layer), (0x04, 2, r.array), (0x06, 2, r.origin), (0x08, 8, r.time)]

/-- A shard table entry (R272). -/
def shardEntryBytes (e : ShardEntry) : Bytes :=
  overlay (layout 64 [(0x00, 8, e.offset), (0x08, 8, e.length), (0x10, 2, e.machineId), (0x14, 4, e.tiles), (0x18, 8, e.vectorLen)]) 0x20 e.digest

/-- The payload of a message's body. -/
def bodyData : MsgBody → Bytes
  | .act first rows => leBytes 2 first ++ leBytes 2 rows.length ++ zeros 4 ++ rows.flatten
  | .query rows => countHeader rows.length ++ rows.flatMap queryBytes
  | .slot slots => countHeader slots.length ++ slots.flatMap slotBytes
  | .partialRows recs => countHeader recs.length ++ recs.flatMap partialBytes
  | .merged recs => countHeader recs.length ++ recs.flatMap partialBytes
  | .check c => checkBytes c
  | .recall r => recallBytes r
  | .commit c => commitBytes c
  | .knotAdd knot delta guard => layout 16 [(0x00, 2, knot), (0x04, 4, delta.toNat), (0x08, 4, guard.toNat)]
  | .compact x => countHeader 1 ++ slotBytes x
  | .tree nodes => leBytes 1 nodes.length ++ zeros 7 ++ nodes.flatMap fun n => leBytes 3 n.token ++ leBytes 1 n.parent
  | .heartbeat time => leBytes 8 time ++ zeros 8
  | .linkNotice n => layout 16 [(0x00, 1, n.bride), (0x01, 1, n.state), (0x02, 1, n.partnerBride), (0x04, 2, n.partnerId), (0x08, 4, n.lastWhole)]
  | .groupLinks group topo joined =>
    leBytes 1 group ++ zeros 3 ++ leBytes 4 topo ++ zeros 8 ++ leBytes 32 ((List.range 256).map fun c => b2n (joined.contains c) * 2 ^ c).sum
  | .topoReady topo => leBytes 4 topo ++ zeros 12
  | .timeElect scope c =>
    layout 16 [(0x00, 1, scope), (0x01, 1, b2n c.withdrawn), (0x02, 1, c.timePriority), (0x03, 1, b2n c.pps + 2 * b2n c.ref10m),
      (0x04, 2, c.machineId), (0x06, 1, c.group), (0x08, 8, c.serial)]
  | .timeOffset state stratum gate master offset delay =>
    layout 32 [(0x00, 1, state), (0x01, 1, stratum), (0x02, 1, gate), (0x04, 2, master), (0x08, 8, unsigned 64 offset), (0x10, 8, unsigned 64 delay)]
  | .loadOrder o =>
    layout 32 [(0x00, 1, o.motif), (0x01, 1, b2n o.replace), (0x08, 8, o.regionAddr), (0x10, 4, o.rkey), (0x18, 8, o.regionLen)] ++
      shardEntryBytes o.entry
  | .loadReport r =>
    layout 16 [(0x00, 1, r.motif), (0x01, 1, Config.reportStatus r.status), (0x04, 4, r.programmed), (0x08, 4, r.reprogrammed), (0x0C, 4, r.remapped)]
  | .shardCopy motif gen offset data => layout 16 [(0x00, 1, motif), (0x01, 2, gen), (0x08, 8, offset)] ++ data
  | .pageCopy seq layer localIndex home data =>
    layout 16 [(0x00, 3, seq), (0x03, 2, layer), (0x08, 4, localIndex), (0x0C, 1, b2n home)] ++ data
  | .switch motif gen => layout 8 [(0x00, 1, motif), (0x02, 2, gen)]
  | .headSync h =>
    layout 24 [(0x00, 1, h.kind), (0x01, 1, h.mailbox), (0x08, 8, h.firstRecord), (0x10, 8, h.readCount)] ++ h.entry ++
      h.tokens.flatMap fun t => leBytes 4 t
  | .role r => layout 16 [(0x00, 2, r.machine), (0x02, 2, r.holder), (0x04, 2, r.firstLayer), (0x06, 2, r.lastLayer), (0x08, 1, r.reason)]
  | .raw _ data => data

/-- The type code of a body (R244, R299, R331, R352). -/
def bodyType : MsgBody → Nat
  | .act _ _ => 0x01 | .query _ => 0x02 | .slot _ => 0x03 | .partialRows _ => 0x04 | .merged _ => 0x05 | .check _ => 0x06
  | .recall _ => 0x07 | .commit _ => 0x08 | .knotAdd _ _ _ => 0x09 | .compact _ => 0x0A | .tree _ => 0x0B | .heartbeat _ => 0x0C
  | .linkNotice _ => 0x40 | .groupLinks _ _ _ => 0x41 | .topoReady _ => 0x42 | .timeElect _ _ => 0x80 | .timeOffset _ _ _ _ _ _ => 0x81
  | .loadOrder _ => 0x90 | .loadReport _ => 0x91 | .shardCopy _ _ _ _ => 0x92 | .pageCopy _ _ _ _ _ => 0x93 | .switch _ _ => 0x94
  | .headSync _ => 0x95 | .role _ => 0x96 | .raw type _ => type

/-- Payload length in units of 16 bytes (R243). -/
def bodyUnits (b : MsgBody) : Nat := ((bodyData b).length + 15) / 16

/-- The 32-byte header of a message (R243). -/
def headerBytes (m : Msg) : Bytes :=
  layout 8 [(0x00, 1, bodyType m.body), (0x01, 1, b2n m.last + 2 * b2n m.relay), (0x02, 2, bodyUnits m.body), (0x04, 2, m.source), (0x06, 2, m.dest)] ++
    (match m.tag with | none => zeros 24 | some t => tagBytes t)

/-- A message on a bride: header, then the payload in whole units of 16 bytes (R243). -/
def messageBytes (m : Msg) : Bytes := headerBytes m ++ padTo (16 * bodyUnits m.body) (bodyData m.body)

/-! ### Flits (R307, R309) -/

/-- Message data bytes of one flit. -/
def flitRoom : Nat := 492

/-- Flits of a message (R307). -/
def msgFlits (m : Msg) : Nat := (32 + 16 * bodyUnits m.body + flitRoom - 1) / flitRoom

/-- The 512 bytes of a flit with its CRC in place (R307, R309). -/
def sealFlit (b : Bytes) : Bytes := overlay b 0x1F8 (leBytes 8 (crc64 (b.take 0x1F8)).toNat)

/-- A flit of 512 bytes with its CRC (R307, R309). -/
def flitBytes (seq ack : BitVec 16) (kind flags number : Nat) (payload : Bytes) : Bytes :=
  sealFlit (overlay (layout 512 [(0x000, 2, seq.toNat), (0x002, 2, ack.toNat), (0x004, 1, kind), (0x005, 1, flags), (0x006, 2, payload.length),
    (0x008, 4, number)]) 0x00C payload)

/-- A timing flit: its fields stand in the payload area, and like an idle flit it carries no message data (R307, R353). -/
def timingBytes (f : TimingFlit) (seq ack : BitVec 16) : Bytes :=
  sealFlit (layout 512 [(0x000, 2, seq.toNat), (0x002, 2, ack.toNat), (0x004, 1, 3), (0x010, 8, f.tx), (0x018, 8, f.txPrev), (0x020, 8, f.rxPrev),
    (0x028, 1, f.state), (0x029, 1, f.stratum), (0x02A, 2, f.refId), (0x02C, 4, f.masterId)])

/-- An idle flit, which carries an acknowledgement and no message data (R307). -/
def idleBytes (seq ack : BitVec 16) : Bytes := flitBytes seq ack 0 0 0 []

/-- A NAK flit: its ack field holds the expected sequence number; mask and marker announce a half of the lanes, else both are 0 (R310, R314). -/
def nakBytes (seq expected : BitVec 16) (mask marker : BitVec 8) : Bytes :=
  sealFlit (layout 512 [(0x000, 2, seq.toNat), (0x002, 2, expected.toNat), (0x004, 1, 2), (0x00C, 1, mask.toNat), (0x00D, 1, marker.toNat)])

/-- The 64 bytes of a training record (R319). -/
def trainBytes (r : TrainRec) : Bytes :=
  layout 64 [(0x00, 4, 0x52425746), (0x04, 4, r.echoTime), (0x08, 8, r.machineTag), (0x10, 8, r.serial), (0x1A, 1, r.bride), (0x1B, 1, r.slot),
    (0x1C, 2, r.group), (0x1E, 2, r.machineId), (0x20, 1, r.role), (0x21, 1, b2n r.planOk + 2 * b2n r.spareUse), (0x22, 2, r.lanes.toNat),
    (0x24, 4, r.fwVersion), (0x28, 4, r.configVersion), (0x2C, 4, r.topoVersion), (0x30, 8, r.sentTime)]

/-- A training record as it has come, if it is one of 64 bytes with the magic (R319). -/
def readTrain (b : Bytes) : Option TrainRec :=
  if b.length = 64 ∧ field b 0x00 4 = 0x52425746 then
    some { echoTime := field b 0x04 4, machineTag := field b 0x08 8, serial := field b 0x10 8, bride := field b 0x1A 1, slot := field b 0x1B 1
           group := field b 0x1C 2, machineId := field b 0x1E 2, role := field b 0x20 1, planOk := bit (field b 0x21 1) 0
           spareUse := bit (field b 0x21 1) 1, lanes := BitVec.ofNat 8 (field b 0x22 1), fwVersion := field b 0x24 4
           configVersion := field b 0x28 4, topoVersion := field b 0x2C 4, sentTime := field b 0x30 8 }
  else none

/-- Flit `i` of a message of number `number`: the message number stands in the first flit only (R307, R329). -/
def messageFlit (m : Msg) (number i : Nat) (seq ack : BitVec 16) : Bytes :=
  let lastOne := decide (i + 1 = msgFlits m)
  flitBytes seq ack 1 (b2n (decide (i = 0)) + 2 * b2n lastOne) (if i = 0 then number else 0)
    (((messageBytes m).drop (flitRoom * i)).take flitRoom)

end Sys2Proof.Machine
end

