-- ==== Sys2Proof/Machine/Ops.lean ====
section
/-! DEFINITION. The named operations that the meanings share: time, identity, event records, mailboxes and their completion, transfers, memory. -/

namespace Sys2Proof.Machine

/-- The answer of a meaning. -/
abbrev Result := Host.Outcome State Fault Refusal

/-- `t` where the operand names an object the module has, else the fault. -/
def need (ok : Bool) (f : Fault) (t : State) : Result := if ok then .next t else .fault f

/-- `t` where the conditions of the event hold; where they do not, the event has not come about and nothing changes (log 2). -/
def onlyIf (c : Bool) (s t : State) : State := if c then t else s

/-! ### Time (R9) -/

/-- Module time in ns, a count of 64 bits (R9). -/
def State.now (s : State) : Nat := s.time.t16 / 65536 % 2 ^ 64

/-- The next draw of a generator whose outputs the spec leaves open (log 3). -/
def State.draw (s : State) : Nat × State := (Config.draw s.draws, { s with draws := s.draws + 1 })

/-! ### Memory (R53) -/

/-- One byte of the memory window; a byte nothing has written reads 0 (log 10). -/
def memByte (m : Memory) (a : Nat) : Byte := Tab.get 0 m.window a

/-- `n` bytes of the memory window from offset `a`. -/
def memRead (m : Memory) (a n : Nat) : Bytes := (List.range n).map fun i => memByte m (a + i)

/-- The window with bytes stored from offset `a`. -/
def storeBytes : List Host.Cell → Nat → Bytes → List Host.Cell
  | w, _, [] => w
  | w, a, b :: t => storeBytes (Tab.put 0 w a b) (a + 1) t

/-- The canonical form of the memory window. -/
def Memory.wf (m : Memory) : Bool := Tab.wf (0 : Byte) m.window

/-- Blocks of 64 bytes that `n` bytes from `a` cover whole. -/
def coversBlock (a n b : Nat) : Bool := decide (a ≤ 64 * b ∧ 64 * b + 64 ≤ a + n)

/-- Memory after bytes are written at `a`: a block written whole is no longer flagged (R374). -/
def memWrite (m : Memory) (a : Nat) (data : Bytes) : Memory :=
  { m with
    window := storeBytes m.window a data
    flagged := m.flagged.filter fun b => !coversBlock a data.length b }

/-- A read of the memory window by the host: a flagged block reads as zeros (R374). -/
def memReadHost (m : Memory) (a n : Nat) : Bytes :=
  (List.range n).map fun i => if m.flagged.contains ((a + i) / 64) then 0 else memByte m (a + i)

/-! ### Identity (R4, R6, R56, R448) -/

/-- This module's membership record, if the configuration in force lists its serial. -/
def State.member (s : State) : Option Member := s.cfg.cur.members.find? fun m => m.serial = s.fw.serial

/-- The machine id: 0xFFFF until the firmware has read its configuration; the slot without a membership (R448). A module whose slot pins differ from the
slot of its configured id keeps the id of its membership record, for routes and links too, while the identity block shows the pins: R6 does not say which
holds then (DESIGN CHOICE, log 18). -/
def State.machineId (s : State) : Nat :=
  if s.cfg.read then (match s.member with | some m => m.machineId | none => s.start.slot) else 0xFFFF

/-- 0 layer module, 1 group spare, 2 stand-alone (R56, R448). -/
def State.role (s : State) : Nat := match s.member with | some m => m.role | none => 2

/-- The group of a machine id (R4). -/
def groupOf (id : Nat) : Nat := id / 16

/-- The slot of a machine id (R4). -/
def slotOf (id : Nat) : Nat := id % 16

/-- The other members of this module's group. -/
def State.groupPeers (s : State) : List Nat :=
  (s.cfg.cur.members.filter fun m => groupOf m.machineId = groupOf s.machineId && m.machineId != s.machineId).map (·.machineId)

/-- The machine id of the group spare, if the group has one. -/
def State.spareId (s : State) : Option Nat :=
  (s.cfg.cur.members.find? fun m => groupOf m.machineId = groupOf s.machineId && m.role = 1).map (·.machineId)

/-- Whether a machine id belongs to a member. -/
def State.isMember (s : State) (id : Nat) : Bool := s.cfg.cur.members.any fun m => m.machineId = id

/-- The host port record in force for this module (R339, R442). -/
def State.portCfg (s : State) : PortCfg :=
  match s.cfg.cur.ports.find? fun p => p.machineId = s.machineId with
  | some p => p
  | none => PortCfg.default

/-- Whether `n` bytes from offset `a` of the memory window lie in the host area (R53, R443). -/
def State.inHostArea (s : State) (a n : Nat) : Bool :=
  decide (s.cfg.cur.hostOffset ≤ a ∧ a + n ≤ s.cfg.cur.hostOffset + s.cfg.cur.hostSize)

/-- The firmware slot that runs (R430). -/
def Firmware.runningSlot (f : Firmware) : FwSlot := if f.running = 0 then f.slotA else f.slotB

/-! ### Tables of the state -/

def State.box (s : State) (m : Nat) : Mailbox := Tab.get Mailbox.init s.boxes.box m

def State.setBox (s : State) (m : Nat) (b : Mailbox) : State :=
  { s with boxes := { s.boxes with box := Tab.put Mailbox.init s.boxes.box m b } }

def State.array (s : State) (a : Nat) : ArrayState := Tab.get ArrayState.init s.arrays.addr a

def State.setArray (s : State) (a : Nat) (v : ArrayState) : State :=
  { s with arrays := { s.arrays with addr := Tab.put ArrayState.init s.arrays.addr a v } }

def State.phys (s : State) (p : Nat) : PhysArray := Tab.get PhysArray.init s.arrays.phys p

def State.setPhys (s : State) (p : Nat) (v : PhysArray) : State :=
  { s with arrays := { s.arrays with phys := Tab.put PhysArray.init s.arrays.phys p v } }

def State.motif (s : State) (m : Nat) : MotifEntry := Tab.get MotifEntry.init s.motifs.table m

def State.setMotif (s : State) (m : Nat) (e : MotifEntry) : State :=
  { s with motifs := { s.motifs with table := Tab.put MotifEntry.init s.motifs.table m e } }

def State.bride (s : State) (b : Nat) : Bride := Tab.get Bride.init s.fabric.bride b

def State.setBride (s : State) (b : Nat) (v : Bride) : State :=
  { s with fabric := { s.fabric with bride := Tab.put Bride.init s.fabric.bride b v } }

def State.sensor (s : State) (i : Nat) : Sensor := Tab.get Sensor.init s.thermal.sensor i

def State.setSensor (s : State) (i : Nat) (v : Sensor) : State :=
  { s with thermal := { s.thermal with sensor := Tab.put Sensor.init s.thermal.sensor i v } }

def State.island (s : State) (i : Nat) : Island := Tab.get Island.init s.islands.island i

def State.setIsland (s : State) (i : Nat) (v : Island) : State :=
  { s with islands := { s.islands with island := Tab.put Island.init s.islands.island i v } }

def State.monEntry (s : State) (i : Nat) : MonEntry := Tab.get MonEntry.init s.monitor.entries i

def State.setMonEntry (s : State) (i : Nat) (v : MonEntry) : State :=
  { s with monitor := { s.monitor with entries := Tab.put MonEntry.init s.monitor.entries i v } }

def State.knot (s : State) (k : Nat) : Knot := Tab.get Knot.init s.knots.knot k

/-- The physical array an addressable index maps to at manufacture (R113): column i mod 256, row i div 256, one more from row 64 on. -/
def homePhys (a : Nat) : Nat := if a < 16384 then a else a + 256

/-- The physical array an addressable index maps to now; it changes only when a spare replaces a retired array (R5, R117). -/
def State.physOf (s : State) (a : Nat) : Nat := Tab.get (homePhys a) s.arrays.remap a

/-- The working physical array of an index: none while it maps to a retired one (R117, R118). -/
def State.workOf (s : State) (a : Nat) : Option Nat := if s.arrays.retired.contains (s.physOf a) then none else some (s.physOf a)

/-- The addressable index that maps to a physical array, if any. -/
def State.indexOf (s : State) (p : Nat) : Option Nat :=
  match s.arrays.remap.find? fun e => e.2 = p with
  | some e => some e.1
  | none =>
    let a := if p < 16384 then p else p - 256
    if homePhys a = p ∧ a < Config.arrays ∧ s.physOf a = p then some a else none

/-- Grid row of a physical array. -/
def gridRow (p : Nat) : Nat := p / 256

/-- Grid column of a physical array. -/
def gridCol (p : Nat) : Nat := p % 256

/-- The physical spares: grid rows 64 and 129 (R113). -/
def isSpareRow (p : Nat) : Bool := decide (gridRow p = 64 ∨ gridRow p = 129)

/-- Adds `n` to a counter of R394, which saturates at 64 bits. -/
def sat64 (c n : Nat) : Nat := satTo 64 (c + n)

/-- Changes the counters of R394. -/
def State.count (s : State) (f : Counters → Counters) : State := { s with counters := f s.counters }

/-! ### The throttle level (R403, R409) -/

/-- The broken-sensor floor: level 7 for a broken die or stack sensor, 6 for an optical engine sensor (R409). -/
def State.brokenFloor (s : State) : Nat :=
  s.thermal.sensor.foldl (fun n e => if e.2.state = 0 then n else max n (if e.1 < 160 then 7 else 6)) 0

/-- The level in force (R403). -/
def State.level (s : State) : Nat := max (max s.thermal.level s.thermal.powerLevel) s.brokenFloor

/-! ### Event records (R387 to R392) -/

/-- The sensor nearest a unit: the sensor itself; for other units the spec names none, a free value (log 12). -/
def sensorOf (kind index : Nat) : Nat := if kind = kSensor then index else Config.nearestSensor kind index % 196

/-- The supply channel of a unit's island (R418), where the unit has one; for arrays and bride engines the spec names two, a free value (log 12). -/
def supplyOf (kind index : Nat) : Option Nat :=
  if kind = kRotation then some 4 else if kind = kVector then some 3 else if kind = kAttention then some 5
  else if kind = kTambour then some 6 else if kind = kDma then some 7 else if kind = kTime then some 9
  else if kind = kHostPort then some 12
  else if kind = kArray then some (Config.supplyChoice kind index % 2)
  else if kind = kBride then some (10 + Config.supplyChoice kind index % 2)
  else none

/-- The temperature field of a record: the last reading, 0x8000 when none. -/
def State.tempField (s : State) (kind index : Nat) : Nat :=
  match (s.sensor (sensorOf kind index)).hist with
  | [] => 0x8000
  | (_, v) :: _ => unsigned 16 v

/-- The newest valid result of the sequencer entries that read a channel. -/
def newestSample : List (Nat × MonEntry) → Nat → Option (Nat × Nat) → Option (Nat × Nat)
  | [], _, best => best
  | (_, e) :: t, ch, best =>
    newestSample t ch
      (if e.valid && decide (e.channel = ch) && (match best with | none => true | some b => decide (b.1 ≤ e.time)) then some (e.time, e.code) else best)

/-- The supply field of a record: the last sample of the unit's island supply in mV (LSB 0.5 mV, R418), 0xFFFF when none. -/
def State.supplyField (s : State) (kind index : Nat) : Nat :=
  match supplyOf kind index with
  | none => 0xFFFF
  | some ch => match newestSample s.monitor.entries ch none with
    | none => 0xFFFF
    | some (_, code) => code / 2

/-- The unit field of a record (R387). -/
def unitField (kind index : Nat) : Nat := kind * 2 ^ 24 + index % 2 ^ 24

/-- Classes whose records are never suppressed (R390). -/
def neverSuppressed (cls : Nat) : Bool := decide (cls = 2 ∨ cls = 11 ∨ cls = 15)

/-- What an event record says beside its number and time. -/
structure Event where
  cls : Nat
  code : Nat
  op : Nat
  kind : Nat
  index : Nat
  tag : Option StepTag
  epoch : BitVec 32
  detail : Bytes
  deriving DecidableEq, Repr

/-- The 64 bytes of an event record (R387). -/
def eventBytes (s : State) (e : Event) : Bytes :=
  overlay (overlay (layout 64 [(0x00, 8, s.log.written), (0x08, 8, s.now), (0x10, 1, e.cls), (0x11, 1, e.code), (0x12, 2, e.op),
    (0x14, 4, unitField e.kind e.index), (0x18, 2, s.tempField e.kind e.index), (0x1A, 2, s.supplyField e.kind e.index),
    (0x1C, 4, e.epoch.toNat)]) 0x20 (match e.tag with | none => [] | some t => tagBytes t)) 0x38 (e.detail.take 8)

/-- Whether a record with the same class, code and unit was written less than 1 ms earlier (R390). -/
def State.recentlyLogged (s : State) (e : Event) : Bool :=
  s.log.recent.any fun r => decide (r.1 = (e.cls, e.code, unitField e.kind e.index) ∧ s.now < r.2 + 1000000)

/-- The event log with a record written into its ring (R391, R392). -/
def putEvent (s : State) (e : Event) : EventLog :=
  { s.log with
    written := s.log.written + 1
    lost := if Config.eventSlots ≤ s.log.written - s.log.readCount then s.log.lost + 1 else s.log.lost
    slots := Tab.put (zeros 64) s.log.slots (1 + s.log.written % Config.eventSlots) (eventBytes s e)
    recent := ((e.cls, e.code, unitField e.kind e.index), s.now) ::
      s.log.recent.filter fun r => decide (r.1 ≠ (e.cls, e.code, unitField e.kind e.index) ∧ s.now < r.2 + 1000000) }

/-- Writes an event record, or counts it as suppressed (R390). -/
def State.event (s : State) (e : Event) : State :=
  if !neverSuppressed e.cls && s.recentlyLogged e then { s with log := { s.log with suppressed := sat64 s.log.suppressed 1 } }
  else { s with log := putEvent s e }

/-- An event of a unit without a step. -/
def State.ev (s : State) (cls code op kind index : Nat) (detail : Bytes) : State :=
  s.event { cls := cls, code := code, op := op, kind := kind, index := index, tag := none, epoch := 0, detail := detail }

/-- A DISCARDED record (R54): window number and offset. -/
def State.evDiscarded (s : State) (window offset : Nat) : State := s.ev 12 1 11 kWindow window (leBytes 5 offset)

/-- A READ_COUNT record (R74). -/
def State.evReadCount (s : State) (kind index value : Nat) : State := s.ev 12 2 11 kind index (leBytes 4 value)

/-- An UPDATE record (R453). -/
def State.evUpdate (s : State) (code : Nat) (detail : Bytes) : State := s.ev 14 code 0 kModule 0 detail

/-! ### Messages (R243) -/

/-- Whether a message of a step is by its type the only one of its layer and lineage to its receiver, and so the last (R243). -/
def oneOfAKind : MsgBody → Bool
  | .check _ => true
  | .recall _ => true
  | .commit _ => true
  | .tree _ => true
  | _ => false

/-- A message of this module. -/
def State.msg (s : State) (dest : Nat) (tag : Option StepTag) (body : MsgBody) : Msg :=
  { source := s.machineId, dest := dest, last := tag.isSome && oneOfAKind body, relay := false, tag := tag, body := body }

/-- A bride that carries messages: ACTIVE or DEGRADED (R317). -/
def Bride.carries (b : Bride) : Bool := decide (b.state = 5 ∨ b.state = 6)

/-- The bride of the first hop to a destination (R324, R329), if it can be reached. -/
def State.hop (s : State) (dest : Nat) : Option Nat :=
  let r := Tab.get Route.init s.fabric.route dest
  if r.kind = 0 then none
  else if (s.bride r.first).carries then some r.first
  else if (s.bride r.alt).carries then some r.alt
  else none

/-- Flits that the replay buffer of a bride holds: 1 MiB on brides 0 to 14, 4 MiB on 15 to 31 (R311). -/
def bufferFlits (b : Nat) : Nat := if b < 15 then 2048 else 8192

/-- A bride with a message queued: its number, and the sequence number that will follow its last flit (R307, R329). -/
def Bride.queue (b : Bride) (m : Msg) : Bride :=
  { b with
    nextMsg := (b.nextMsg + 1) % 2 ^ 32
    unsent := b.unsent + msgFlits m
    queued := b.queued ++ [{ number := b.nextMsg, after := b.sendSeq + BitVec.ofNat 16 (b.unsent + msgFlits m), msg := m }] }

/-- The messages queued on a bride of which no flit has gone out yet. -/
def Bride.notBegun (b : Bride) : List Queued :=
  b.queued.filter fun q => decide ((b.sendSeq + BitVec.ofNat 16 b.unsent - q.after).toNat + msgFlits q.msg ≤ b.unsent)

/-- A bride with messages queued ahead of those of which no flit has gone out yet (R329, R330): those take their numbers anew. -/
def Bride.queueAhead (b : Bride) (ms : List Msg) : Bride :=
  let later := b.notBegun
  (ms ++ later.map (·.msg)).foldl Bride.queue { b with
    nextMsg := (b.nextMsg + 2 ^ 32 - later.length) % 2 ^ 32
    unsent := b.unsent - (later.map fun q => msgFlits q.msg).sum
    queued := b.queued.take (b.queued.length - later.length) }

/-- The flits of the messages a bride keeps, in order, as message, message number and place in the message. -/
def Bride.keptFlits (b : Bride) : List (Msg × Nat × Nat) :=
  b.queued.flatMap fun q => (List.range (msgFlits q.msg)).map fun i => (q.msg, q.number, i)

/-- The lanes of a flit: 64 bytes on each of eight, or 128 on each of the four of the half in use (R307, R314). -/
def laneShares (half : BitVec 8) (flit : Bytes) : List (Nat × Bytes) :=
  if half = 0 then (List.range 8).map fun n => (n, (flit.drop (64 * n)).take 64)
  else ((List.range 8).filter fun n => half.getLsbD n).mapIdx fun k n => (n, (flit.drop (128 * k)).take 128)

/-- `n` flits of a bride from the one that lies `back` before the first unsent one, as they go out now (R310). -/
def Bride.emit (x : Bride) (b back n : Nat) : List FlitOut :=
  ((x.keptFlits.drop (x.keptFlits.length - x.unsent - back)).take n).mapIdx fun i f =>
    .message b (laneShares x.txHalf
      (messageFlit f.1 f.2.1 f.2.2 (x.sendSeq - BitVec.ofNat 16 back + BitVec.ofNat 16 i) (x.expect - 1)))

/-- A bride that has sent `n` more of its flits. -/
def Bride.advance (x : Bride) (n : Nat) : Bride :=
  { x with sendSeq := x.sendSeq + BitVec.ofNat 16 n, unacked := x.unacked + n, unsent := x.unsent - n }

/-- Puts flits on a bride: they go to the outbox (log 9). -/
def State.flitsOut (s : State) (fs : List FlitOut) : State := { s with fabric := { s.fabric with flits := fs.reverse ++ s.fabric.flits } }

/-- Sends the flits of a bride that wait for room in its replay buffer, as far as there is room (R311). -/
def State.pump (s : State) (b : Nat) : State :=
  let x := s.bride b
  let n := min x.unsent (bufferFlits b - x.unacked)
  (s.setBride b (x.advance n)).flitsOut (x.emit b 0 n)

/-- Queues a message on the bride of its route, where it has one (R327). -/
def State.toBride (s : State) (m : Msg) : State :=
  match s.hop m.dest with
  | none => s
  | some b => (s.setBride b ((s.bride b).queue m)).pump b

/-- Sends a message: it goes to the outbox (log 9) and onto the bride of its route. -/
def State.send (s : State) (m : Msg) : State :=
  ({ s with fabric := { s.fabric with out := m :: s.fabric.out } }).toBride m

/-- Sends a message with the same body to each of a list of modules. -/
def State.sendAll (s : State) (dests : List Nat) (tag : Option StepTag) (body : MsgBody) : State :=
  dests.foldl (fun t d => t.send (t.msg d tag body)) s

/-- The queue pair whose packet a frame is, where it is one. -/
def HostOut.qp : HostOut → Option Nat
  | .rep q _ | .readResponse q _ | .ack q | .nakAccess q | .nakInvalid q | .rnr q | .readRequest q _ _ _ _ _ | .writeRequest q _ _ _ _ | .cnp q _ _ => some q
  | _ => none

/-- PTP and LLDP frames, which are sent on priority 7 and never paused (R345). -/
def HostOut.unpaused : HostOut → Bool
  | .lldp _ _ _ _ _ | .ptpAnnounce _ _ _ _ _ _ | .ptpSync _ _ | .ptpFollowUp _ _ _ | .ptpDelayResp _ _ _ _ => true
  | _ => false

/-- The priority a frame is sent on (R345, R346): none where the spec gives none. -/
def State.framePriority (s : State) (o : HostOut) : Option Nat :=
  match o with
  | .cnp _ _ pcp => some pcp
  | o => if o.unpaused then some 7 else o.qp.bind fun q => (s.port.qps.find? fun x => x.qpn = q).map (·.priority)

/-- Whether a frame is a RoCEv2 packet, connection management on QP1 included (R340, R346). -/
def HostOut.isRoce (o : HostOut) : Bool := o.qp.isSome || (match o with | .reject _ => true | _ => false)

/-- Until when a frame of a priority is held back by a PAUSE (R345). -/
def State.heldUntil (s : State) (priority : Option Nat) : Option Nat :=
  (s.port.pausedTx.find? fun e => decide (some e.1 = priority ∧ s.now < e.2)).map (·.2)

/-- A frame as the port sends it: the configured tag, its priority, ECT(0) on RoCEv2 packets, held back under a PAUSE (R339, R345, R346). -/
def State.frame (s : State) (o : HostOut) : HostFrame :=
  { body := o, priority := s.framePriority o, vlan := if s.portCfg.vlan = 0 then none else some s.portCfg.vlan, ect := o.isRoce
    held := if o.unpaused then none else s.heldUntil (s.framePriority o) }

/-- Puts something on the host port (log 9). -/
def State.toHost (s : State) (o : HostOut) : State := { s with port := { s.port with out := s.frame o :: s.port.out } }

/-- The pins that R356 drives in LOCKED and HOLDOVER only. -/
def State.drivePins (s : State) : State :=
  let on := decide (s.time.lock = 2 ∨ s.time.lock = 3)
  { s with start := { s.start with refOut := on, ppsOut := s.start.ppsOut && on } }

/-! ### Status words and records (R71 to R78) -/

/-- The old-generation steps field: target minus progress of a `MOTIF_SWITCH` in progress, else 0 (R71). -/
def oldGenOf (b : Mailbox) : Nat := if b.opcode = opMotifSwitch then b.target - b.progress else 0

/-- The slow causes field (R73). -/
def slowOf (b : Mailbox) (now : Nat) : BitVec 16 :=
  if isSeqOp b.opcode then slowMask b.slowAt now
  else if b.opcode = opMotifSwitch ∧ b.done = false then slowBit slowSwitch
  else 0

/-- One update of a status word: the computed fields, the time, and one more in `updates` (R71). -/
def touchBox (b : Mailbox) (now : Nat) : Mailbox :=
  { b with updates := b.updates + 1, time := now, oldGen := oldGenOf b, slow := slowOf b now }

/-- Changes a mailbox and updates its status word. -/
def State.update (s : State) (m : Nat) (f : Mailbox → Mailbox) : State := s.setBox m (touchBox (f (s.box m)) s.now)

/-- Whether a mailbox has a sequence command in progress that names a sequence (R61, R73). -/
def namesSeq (b : Mailbox) (motif seq : Nat) : Bool :=
  match b.cur with
  | some c => isSeqOp (entryOp c.entry) && decide (entryMotif c.entry = motif ∧ entrySeq c.entry = seq) && b.doneWait.isNone
  | none => false

/-- Causes with their times, those of a mask noted as of now. -/
def noteCauses (mask : BitVec 16) (now : Nat) (had : List (Nat × Nat)) : List (Nat × Nat) :=
  ((List.range 9).filter (fun i => bit mask.toNat i)).map (fun i => (i, now)) ++ had.filter fun c => !bit mask.toNat c.1

/-- The causes that have affected a sequence's steps (R73). -/
def State.slowsOf (s : State) (motif seq : Nat) : List (Nat × Nat) :=
  (s.seqs.slow.filter fun c => decide (c.1 = motif ∧ c.2.1 = seq)).map (·.2.2)

/-- Notes every slow cause of a mask for a sequence, and updates the word of every mailbox whose command names it (R73). -/
def State.markSlows (s : State) (motif seq : Nat) (mask : BitVec 16) : State :=
  (s.boxes.box.filter fun e => namesSeq e.2 motif seq).foldl
    (fun u e => u.update e.1 fun b => { b with slowAt := noteCauses mask s.now b.slowAt })
    { s with seqs := { s.seqs with
        slow := (noteCauses mask s.now (s.slowsOf motif seq)).map (fun c => (motif, seq, c)) ++
                s.seqs.slow.filter fun c => !decide (c.1 = motif ∧ c.2.1 = seq) } }

/-- Notes one slow cause. -/
def State.markSlow (s : State) (motif seq cause : Nat) : State := s.markSlows motif seq (slowBit cause)

/-- Free record slots of a mailbox (R74, R75). -/
def freeSlots (b : Mailbox) : Nat := Config.resultSlots - (b.records - b.readCount)

/-- The 64 bytes of a record: its header (R76) and the fields of its type. -/
def recordBytes (m : Nat) (b : Mailbox) (type time : Nat) (fields : List (Nat × Nat × Nat)) : Bytes :=
  layout 64 ([(0x00, 1, type), (0x01, 1, m), (0x02, 2, b.opcode), (0x04, 4, b.hostTag), (0x08, 8, b.records), (0x10, 8, time)] ++ fields)

/-- A mailbox with a record in its ring: record r in slot 1 + (r mod 16,383) (R74). -/
def putRecord (m : Nat) (b : Mailbox) (type time : Nat) (fields : List (Nat × Nat × Nat)) : Mailbox :=
  { b with
    records := b.records + 1
    results := Tab.put (zeros 64) b.results (1 + b.records % Config.resultSlots) (recordBytes m b type time fields) }

/-- The fields of a DONE record (R78). -/
def doneFields (d : DoneRec) : List (Nat × Nat × Nat) :=
  [(0x18, 2, d.status), (0x1C, 4, d.detail), (0x20, 8, d.progress), (0x28, 8, d.result)]

/-- Whether a command of opcode `op` is in progress on a mailbox and not yet complete. -/
def activeCmd (b : Mailbox) (op : Nat) : Bool :=
  match b.cur with
  | some c => decide (entryOp c.entry = op) && b.doneWait.isNone
  | none => false

/-- Whether this module is the head of a motif that is loading or resident (R296). -/
def State.isHead (s : State) : Bool :=
  s.motifs.table.any fun e => match e.2.prick with | some p => decide (p.head = s.machineId) | none => false

/-- Whether the command in progress on a mailbox is a `MOTIF_LOAD`, which only a head module goes on with (R274). -/
def State.loadsHere (s : State) (m : Nat) : Bool :=
  match (s.box m).cur with
  | some c => decide (entryOp c.entry = opMotifLoad)
  | none => false

/-- Whether what happens on a mailbox is told to the group spare: on a head module, one that consumes its first `MOTIF_LOAD` among them (R296, R297). -/
def State.tells (s : State) (m : Nat) : Bool := s.isHead || s.loadsHere m

/-- A HEAD_SYNC to the group spare (R296). -/
def State.sendSync (s : State) (kind m : Nat) (entry : Bytes) (tokens : List Nat) : State :=
  match s.spareId with
  | some sp =>
    let b := s.box m
    s.send (s.msg sp none (.headSync { kind := kind, mailbox := m, firstRecord := b.firstRecord, readCount := b.readCount,
                                       version := b.version.getD 0, entryIndex := b.entryIdx, entry := entry, tokens := tokens }))
  | none => s

/-- A HEAD_SYNC from a head module. -/
def State.headSync (s : State) (kind m : Nat) (entry : Bytes) (tokens : List Nat) : State := if s.tells m then s.sendSync kind m entry tokens else s

/-- Breaks every queue pair (R339, R344). -/
def breakAllQps (p : HostPort) : HostPort := { p with qps := p.qps.map fun q => { q with error := true } }

/-- A mailbox whose command completes: the DONE record is in its ring, and DONE, the status and the progress become visible in one update (R72). -/
def finishBox (m now : Nat) (b : Mailbox) (d : DoneRec) : Mailbox :=
  touchBox { putRecord m b 2 now (doneFields d) with
    cur := none, doneWait := none, status := d.status, detail := d.detail, progress := d.progress,
    entryIdx := b.consume, done := true, idle := true } now

/-- Writes the waiting DONE record if a slot is free (R75); effects that wait for it follow (R447). -/
def State.finish (s : State) (m : Nat) : State :=
  let b := s.box m
  match b.doneWait with
  | none => s
  | some d =>
    if freeSlots b = 0 then s
    else
      let u := s.setBox m (finishBox m s.now b d)
      let t := if s.tells m then u.sendSync 1 m [] [] else u
      if t.cfg.breakQps ∧ (b.opcode = opConfigCommit ∨ b.opcode = opConfigRevert) then
        { t with port := breakAllQps t.port, cfg := { t.cfg with breakQps := false } }
      else t

/-- Completes the command on a mailbox: its DONE record is written at once or waits for a slot (R75, R78). -/
def State.complete (s : State) (m status detail progress result : Nat) : State :=
  (s.setBox m { s.box m with
    doneWait := some { status := status, detail := detail % 2 ^ 32, progress := progress, result := result } }).finish m

/-- The token length of the host's open sequence of a motif and id; 0 where none is open here. -/
def State.tokenLength (s : State) (motif id : Nat) : Nat :=
  match s.seqs.open_.find? fun q => decide (q.motif = motif ∧ q.id = id ∧ q.companion = none) with
  | some q => q.tokens.length
  | none => 0

/-- The result that R78 gives a command by its opcode, as things stand when it completes: 0 where what it names does not exist (log 61). -/
def State.resultOf (s : State) (e : Bytes) : Nat :=
  let op := entryOp e
  if op = opSeqAppend ∨ op = opSeqGenerate then s.tokenLength (entryMotif e) (entrySeq e)
  else if op = opMotifLoad ∨ op = opMotifSwitch then
    (if (s.motif (entryMotif e)).state = 2 ∨ (s.motif (entryMotif e)).state = 3 then (s.motif (entryMotif e)).gen.toNat else 0)
  else if op = opTimeRead then s.now
  else if op = opConfigCommit ∨ op = opConfigRevert then s.cfg.cur.version
  else if op = opFwActivate ∨ op = opFwRevert then s.fw.runningSlot.version
  else 0

/-- The snapshot of the command in progress on a mailbox. -/
def State.entryOf (s : State) (m : Nat) : Bytes := match (s.box m).cur with | some c => c.entry | none => []

/-- Completes a command that fails: its progress stays what it is, and its result is what R78 gives its opcode. -/
def State.failCmd (s : State) (m status detail : Nat) : State := s.complete m status detail (s.box m).progress (s.resultOf (s.entryOf m))

/-- Completes a command as requested at its present target. -/
def State.okCmd (s : State) (m result : Nat) : State := s.complete m stOk 0 (s.box m).target result

/-- Changes the command in progress on a mailbox. -/
def State.setCmd (s : State) (m : Nat) (f : Cmd → Cmd) : State := s.setBox m { s.box m with cur := (s.box m).cur.map f }

/-- A refusal under R435, which is also written as a REFUSED record (R453). -/
def State.refuseCmd (s : State) (m op status : Nat) : State :=
  (s.evUpdate 11 (leBytes 2 op ++ leBytes 2 status)).failCmd m status 0

/-- Writes a LOAD record (R77); one that finds no free slot is skipped (R75). -/
def State.loadRecord (s : State) (m : Nat) (r : LoadReport) : State :=
  if freeSlots (s.box m) = 0 then s
  else s.setBox m (putRecord m (s.box m) 3 s.now
    [(0x18, 4, r.machine), (0x1C, 4, r.programmed), (0x20, 4, r.shardArrays), (0x24, 4, r.reprogrammed), (0x28, 4, r.remapped)])

/-! ### Transfers of commands (R63) -/

/-- Whether a queue pair is connected and not in the error state. -/
def State.qpOk (s : State) (qp : Nat) : Bool := s.port.qps.any fun q => decide (q.qpn = qp) && !q.error

/-- The queue pair of a command's transfers: the one that posted it; for a command that a spare continues, the lowest of its own that works, once the host has
connected one (R63, R297; DEDUCED, log 32). -/
def State.cmdQp (s : State) (c : Cmd) : Option Nat :=
  if c.continued then ((s.port.qps.filter fun q => !q.error).map (·.qpn)).min? else some c.qp

/-- RDMA READs of the module's own that are outstanding on a queue pair: commands' and shard fetches' (R341). -/
def State.readsOut (s : State) (qp : Nat) : Nat :=
  (s.boxes.box.filter fun e => match e.2.cur with | some c => decide (c.xfer = .reading ∧ c.via = qp) | none => false).length +
    (s.motifs.loads.filter fun l => decide (l.want ≠ 0 ∧ l.via = qp) && !l.fetchDone).length

/-- Whether a queue pair has room for one more of the module's own RDMA READs, at most 16 (R341). -/
def State.readRoom (s : State) (qp : Nat) : Bool := decide (s.readsOut qp < 16)

/-- Issues the RDMA READ of a command's buffer over the queue pair that posted it; over a broken one it fails, and while 16 are outstanding there it
waits (R341, R344). -/
def State.startRead (s : State) (m : Nat) (qp addr rkey len : Nat) : State :=
  if !s.qpOk qp then s.setCmd m fun c => { c with xfer := .readFailed }
  else if s.readRoom qp then (s.setCmd m fun c => { c with xfer := .reading, want := len, via := qp }).toHost (.readRequest qp 0 m addr rkey len)
  else s

/-- Reads `len` bytes of the buffer a command names; a continued command waits for a queue pair first. -/
def State.readBuffer (s : State) (m len : Nat) : State :=
  match (s.box m).cur with
  | none => s
  | some c => match s.cmdQp c with
    | none => s
    | some qp => s.startRead m qp (bufAddr c.entry) (bufRkey c.entry) len

/-- Writes a report to a command's output buffer: too short a buffer gets nothing (R63). -/
def State.deliver (s : State) (m : Nat) (data : Bytes) : State :=
  match (s.box m).cur with
  | none => s
  | some c =>
    if bufLen c.entry < data.length then s.failCmd m stBufShort data.length
    else match s.cmdQp c with
      | none => s
      | some qp =>
        if s.qpOk qp then (s.setCmd m fun c => { c with xfer := .writing, via := qp }).toHost (.writeRequest qp m (bufAddr c.entry) (bufRkey c.entry) data)
        else s.failCmd m stBufFail 0

/-- How far the transfer of the command in progress has come. -/
def State.xferOf (s : State) (m : Nat) : Xfer := match (s.box m).cur with | some c => c.xfer | none => .none

/-- The bytes the transfer of the command in progress has read. -/
def State.dataOf (s : State) (m : Nat) : Bytes := match (s.box m).cur with | some c => c.data | none => []

/-- Sets the progress target of a command and updates the word (R71). -/
def State.setTarget (s : State) (m n : Nat) : State := s.update m fun b => { b with target := n }

/-- Sets the progress of a command and updates the word (R72). -/
def State.setProgress (s : State) (m n : Nat) : State := s.update m fun b => { b with progress := n }

/-- An update command waits while an earlier consumed one is in progress (R437). -/
def State.updateWaits (s : State) (m : Nat) : Bool :=
  match (s.box m).cur with
  | none => false
  | some c => s.boxes.box.any fun e => e.1 != m && (match e.2.cur with
      | some d => isUpdateOp (entryOp d.entry) && e.2.doneWait.isNone && decide (d.order < c.order)
      | none => false)

/-- Whether the firmware restarts: SENDs are answered with receiver-not-ready, commands in progress pause (R344, R431). -/
def State.restarting (s : State) : Bool :=
  s.fw.activation.isSome && decide (s.start.stage = 1 ∨ s.start.stage = 2) && !s.start.rom

/-- Runs a command row: the mailbox exists, the command of that opcode is in progress and its firmware runs, and `f` is its effect (else log 2). -/
def command (m op : Nat) (s : State) (f : State → State) : Result :=
  need (decide (m < Config.mailboxes)) .noSuchMailbox (onlyIf (activeCmd (s.box m) op && !s.restarting) s (f s))

/-- Runs a firmware or configuration command, which waits for an earlier one (R437). -/
def updateCommand (m op : Nat) (s : State) (f : State → State) : Result :=
  command m op s fun t => onlyIf (!t.updateWaits m) t (f t)

end Sys2Proof.Machine
end

