-- ==== Sys2Proof/Machine/Windows.lean ====
section
/-! DEFINITION. What the host reads in the module's windows, unit by unit (R53, R55, R56, R71, R74, R153 to R159, R391, R421, R423). -/

namespace Sys2Proof.Machine

/-! ### Coefficients (R152 to R159) -/

def tapOf (c : CoefSet) (k : Nat) : Nat := Tab.get 16 c.taps k

def offsetOf (c : CoefSet) (p : Nat) : Int := Tab.get 0 c.offsets p

def thresholdOf (c : CoefSet) (p : Nat) : Nat := Tab.get 16 c.thresholds p

/-- The 10 bytes of the tap trims (R154). -/
def tapBytes (c : CoefSet) : Bytes :=
  leBytes 10 ((List.range 16).foldl (fun n k => n + tapOf c k * 2 ^ (5 * k)) 0)

/-- The 12 bits of a column trim (R153). -/
def trimBits (c : CoefSet) (p : Nat) : Nat := unsigned 7 (offsetOf c p) * 32 + thresholdOf c p

/-- The 3 bytes of columns 2k and 2k + 1 (R153). -/
def trimPair (c : CoefSet) (k : Nat) : Bytes := leBytes 3 (trimBits c (2 * k) + trimBits c (2 * k + 1) * 4096)

/-- The 864 bytes of the column trims (R153). -/
def columnBytes (c : CoefSet) : Bytes := (List.range 288).flatMap (trimPair c)

/-- The coefficient set that the taps and columns of a half spell (R158). -/
def coefOfHalf (h : Bytes) : CoefSet :=
  { taps := (List.range 16).foldl (fun t k => Tab.put 16 t k (field h 0x30 10 / 2 ^ (5 * k) % 32)) []
    offsets := (List.range 576).foldl (fun t p => Tab.put 0 t p (signed 7 (field h (0x3A + p / 2 * 3) 3 / 2 ^ (12 * (p % 2)) % 4096 / 32))) []
    thresholds := (List.range 576).foldl (fun t p => Tab.put 16 t p (field h (0x3A + p / 2 * 3) 3 / 2 ^ (12 * (p % 2)) % 32)) [] }

/-- The flags byte of an in-force half (R158). -/
def coefFlags (s : State) (p : PhysArray) : Nat :=
  128 * b2n s.arrays.freezeUntil.isSome + 64 * b2n p.restored + 32 * b2n p.defaulted + p.hostResult % 8

/-- The in-force half of an addressable array (R157, R158). -/
def inForceHalf (s : State) (a : Nat) : Bytes :=
  let ph := s.physOf a
  let p := s.phys ph
  overlay (overlay (layout 1024 [(0x000, 2, s.fw.runningSlot.coefFmt), (0x002, 1, p.calState), (0x003, 1, coefFlags s p),
    (0x004, 4, p.epoch.toNat), (0x008, 8, s.fw.serial), (0x010, 2, gridRow ph), (0x012, 2, gridCol ph), (0x014, 4, a),
    (0x018, 8, p.commitTime), (0x020, 8, p.programmed), (0x028, 1, p.gainTap), (0x3A0, 2, p.offResid), (0x3A2, 2, p.thrResid),
    (0x3A4, 2, p.tapResid), (0x3A6, 2, p.auditRms), (0x3A8, 4, p.inBand), (0x3AC, 4, p.refreshes)])
    0x30 (tapBytes p.coef)) 0x3A (columnBytes p.coef)

/-- The bits of byte `i` of a coefficient half that are not reserved (R158). -/
def halfMask (i : Nat) : Byte :=
  if (0x029 ≤ i ∧ i < 0x030) ∨ (0x39A ≤ i ∧ i < 0x3A0) ∨ 0x3B0 ≤ i then 0 else if i = 0x003 then 0xE7 else 0xFF

/-- The load half of an addressable array (R158). -/
def loadHalf (s : State) (a : Nat) : Bytes := Tab.get (zeros 1024) s.arrays.loadHalves a

/-! ### Identity block (R56) -/

/-- Repair spares not yet used: neither mapped, nor retired, nor chosen for an index. -/
def sparesLeft (s : State) : Nat :=
  512 - ((s.arrays.remap.map (·.2) ++ s.arrays.retired ++ s.arrays.addr.filterMap (·.2.spare)).dedup.filter isSpareRow).length

/-- Addressable arrays less those retired with no spare left (R118); an index whose chosen spare is not yet programmed counts (DESIGN CHOICE, log 91). -/
def arraysInService (s : State) : Nat := Config.arrays - (s.arrays.addr.filter fun e => e.2.onTambour).length

/-- The 8 bytes "TG2-0810" (R56, R347). -/
def partName : Bytes := [0x54, 0x47, 0x32, 0x2D, 0x30, 0x38, 0x31, 0x30]

/-- The first 64 bytes of the identity block. -/
def identityHead (s : State) : Bytes :=
  overlay (layout 64 [(0x00, 4, 0x47545746), (0x04, 2, s.fw.runningSlot.ifMin), (0x06, 2, s.fw.runningSlot.ifMax), (0x08, 8, s.fw.serial),
    (0x10, 2, s.machineId), (0x12, 1, s.start.slot), (0x13, 1, s.role), (0x14, 4, s.fw.runningSlot.version),
    (0x18, 4, s.cfg.cur.version), (0x1C, 4, s.fw.floor.toNat), (0x20, 2, 64), (0x22, 2, 4096), (0x24, 2, 16383),
    (0x28, 4, arraysInService s), (0x2C, 4, sparesLeft s)])
    0x30 partName

/-! ### Status words and rings -/

/-- The flags byte of a status word (R71). -/
def statusFlags (b : Mailbox) : Nat := 128 * b2n b.done + 64 * b2n (b.slow != 0) + 32 * b2n b.idle

/-- The status word of a mailbox (R71). -/
def statusBytes (m : Nat) (b : Mailbox) : Bytes :=
  layout 64 [(0x00, 1, statusFlags b), (0x01, 1, m), (0x02, 2, b.opcode), (0x04, 4, b.hostTag), (0x08, 2, b.entryIdx),
    (0x0A, 2, b.status), (0x0C, 4, b.detail), (0x10, 8, b.progress), (0x18, 8, b.target), (0x20, 8, b.records),
    (0x28, 8, b.firstRecord), (0x30, 8, b.time), (0x38, 2, b.slow.toNat), (0x3A, 2, b.oldGen), (0x3C, 2, b.discarded.toNat),
    (0x3E, 2, b.updates.toNat)]

/-- An entry of a ring. -/
def entryBytes (b : Mailbox) (e : Nat) : Bytes := Tab.get (zeros 64) b.entries e

/-- An entry as the host reads it: reserved bits and bytes read as 0 (R12, R57, R65). -/
def shownEntry (e : Bytes) : Bytes := e.mapIdx fun i x => x &&& ~~~BitVec.ofNat 8 (reservedMask e (entryOp e) i)

/-- A slot of a result ring: slot 0 is the control slot with the kept read_count (R74). -/
def resultSlot (b : Mailbox) (k : Nat) : Bytes :=
  if k = 0 then layout 64 [(0x00, 8, b.readCount)] else Tab.get (zeros 64) b.results k

/-- A slot of the event log (R391). -/
def eventSlot (l : EventLog) (k : Nat) : Bytes :=
  if k = 0 then layout 64 [(0x00, 8, l.written), (0x08, 8, l.readCount), (0x10, 8, l.lost)] else Tab.get (zeros 64) l.slots k

/-- A 16-byte slot of the capture queue; slots 0 to 3 form the control area (R423). -/
def captureSlot (q : Monitor) (k : Nat) : Bytes :=
  if k = 0 then layout 16 [(0x00, 8, q.written), (0x08, 8, q.readCount)]
  else if k = 1 then layout 16 [(0x00, 8, q.lost)]
  else if k < 4 then zeros 16
  else Tab.get (zeros 16) q.slots k

/-! ### Windows (R53) -/

/-- Base and size of window `w`. -/
def windowOf (w : Nat) : Nat × Nat :=
  if w = 0 then (0x000000000000, 0x1000) else if w = 1 then (0x000000001000, 0x1000)
  else if w = 2 then (0x000000010000, 0x1000000) else if w = 3 then (0x000002000000, 0x4000000)
  else if w = 4 then (0x000008000000, 0x1000000) else if w = 5 then (0x000009000000, 0x400000)
  else if w = 6 then (0x000100000000, 0x4000000) else (0x010000000000, Config.memorySize)

/-- The window that holds `n` bytes from a module address whole, with the offset in it. -/
def findWindow (addr n : Nat) : Option (Nat × Nat) :=
  ((List.range 8).find? fun w => decide ((windowOf w).1 ≤ addr ∧ addr + n ≤ (windowOf w).1 + (windowOf w).2)).map
    fun w => (w, addr - (windowOf w).1)

/-- `n` bytes from offset `off` of a window made of units of `size` bytes, each served from one snapshot (R55). -/
def readSpan (unit : Nat → Bytes) (size off n : Nat) : Bytes :=
  (((List.range ((off % size + n + size - 1) / size)).flatMap fun i => unit (off / size + i)).drop (off % size)).take n

/-- A unit of 64 bytes of the host's view of the memory window: zeros outside the host area (R54). -/
def hostMemByte (s : State) (a : Nat) : Byte :=
  if s.inHostArea a 1 then (if s.mem.flagged.contains (a / 64) then 0 else memByte s.mem a) else 0

/-- What the host reads in a window. -/
def windowRead (s : State) (w off n : Nat) : Bytes :=
  if w = 0 then readSpan (fun u => if u = 0 then identityHead s else zeros 64) 64 off n
  else if w = 1 then readSpan (fun u => statusBytes u (s.box u)) 64 off n
  else if w = 2 then readSpan (fun u => shownEntry (entryBytes (s.box (u / 4096)) (u % 4096))) 64 off n
  else if w = 3 then readSpan (fun u => resultSlot (s.box (u / 16384)) (u % 16384)) 64 off n
  else if w = 4 then readSpan (eventSlot s.log) 64 off n
  else if w = 5 then readSpan (captureSlot s.monitor) 16 off n
  else if w = 6 then readSpan (fun u => if u % 2 = 0 then inForceHalf s (u / 2) else loadHalf s (u / 2)) 1024 off n
  else (List.range n).map fun i => hostMemByte s (off + i)

end Sys2Proof.Machine
end

