-- ==== Sys2Proof/Machine/HostPort.lean ====
section
/-! DEFINITION. The host port: RDMA on the windows, doorbells, connections, flow control, LLDP and the frames it answers (R53 to R60, R74, R337 to R347). -/

namespace Sys2Proof.Machine

/-! ### Writes to the windows -/

/-- First offset in `n` bytes from `off` that is not writable. -/
def firstStray (writable : Nat → Bool) (off n : Nat) : Option Nat :=
  ((List.range n).map (· + off)).find? fun o => !writable o

/-- Discards and logs the part of a write that is not writable (R54). -/
def logStray (s : State) (w : Nat) : Option Nat → State
  | none => s
  | some o => s.evDiscarded w o

/-- The value a u64 at offset `lo` takes when `data` is written at `off` over its kept value, if the write reaches it. -/
def writtenField (kept lo off : Nat) (data : Bytes) : Option Nat :=
  if off + data.length ≤ lo ∨ lo + 8 ≤ off then none
  else some (ofLE ((List.range 8).map fun i =>
    if off ≤ lo + i ∧ lo + i < off + data.length then data.getD (lo + i - off) 0 else (leBytes 8 kept).getD i 0))

/-- A write of read_count: reduced to the records written, kept only if it raises the kept value (R74). -/
def keepCount (kept written value : Nat) : Nat := max kept (min value written)

/-- Whether a written read_count is logged: above the records written, or below the kept value (R74). -/
def countLogged (kept written value : Nat) : Bool := decide (written < value ∨ value < kept)

/-- Tells the spare of a change of a mailbox's read_count, at most once per 100 µs; a change that comes sooner waits (R296). -/
def syncReadCount (s : State) (m : Nat) : State :=
  if s.take.syncSent.any fun e => decide (e.1 = m ∧ s.now < e.2 + 100000) then { s with take := { s.take with syncDue := insertAsc m s.take.syncDue } }
  else
    let t := s.headSync 2 m [] []
    { t with take := { t.take with
        syncSent := (m, s.now) :: t.take.syncSent.filter fun e => e.1 ≠ m
        syncDue := t.take.syncDue.filter (· ≠ m) } }

/-- The changes of read_count that have waited are told, as far as their 100 µs are over (R296). -/
def State.syncWaiting (s : State) : State := s.take.syncDue.foldl syncReadCount s

/-- Takes a host write of read_count to result ring `m` (R74); a DONE record that waited for a slot may now be written. -/
def takeReadCount (s : State) (m value : Nat) : State :=
  let b := s.box m
  let s1 := if countLogged b.readCount b.records value then s.evReadCount kMailbox m value else s
  if b.readCount < keepCount b.readCount b.records value then
    syncReadCount (s1.setBox m { s1.box m with readCount := keepCount b.readCount b.records value }) m
  else s1

/-- Takes a host write of the event log's read_count (R391, R74). -/
def takeEventCount (s : State) (value : Nat) : State :=
  let l := s.log
  let s1 := { s with log := { l with readCount := keepCount l.readCount l.written value } }
  if countLogged l.readCount l.written value then s1.evReadCount kWindow 4 value else s1

/-- Takes a host write of the capture queue's read_count (R423, R74). -/
def takeCaptureCount (s : State) (value : Nat) : State :=
  let q := s.monitor
  let s1 := { s with monitor := { q with readCount := keepCount q.readCount q.written value } }
  if countLogged q.readCount q.written value then s1.evReadCount kWindow 5 value else s1

/-- Whether the bobbin cleared OWN of an entry in this very instant of module time (R13, R60). -/
def clearedNow (s : State) (b : Mailbox) (e : Nat) : Bool := decide (b.cleared = some (e, s.now))

/-- A write to the mailbox rings, at an offset of window 2 (R58, R60): one whole aligned entry with OWN = 0 is replaced; anything else is discarded and
counted. A discarded write that covers entries of two mailboxes is counted in the mailbox of its first byte alone: R58 does not say which counts it
(DESIGN CHOICE, log 29). A write in the instant of the entry's consumption lands after it, and its OWN holds the host's value, which the bobbin logs
(R13, R60). -/
def writeEntry (s : State) (qp off : Nat) (data : Bytes) : State :=
  let m := off / 0x40000
  let e := off / 64 % 4096
  let b := s.box m
  if off % 64 = 0 ∧ data.length = 64 ∧ entryOwn (entryBytes b e) = false then
    let t := s.setBox m { b with entries := Tab.put (zeros 64) b.entries e data, posted := Tab.put 0 b.posted e qp }
    if clearedNow s b e then t.ev 12 3 11 kWindow 2 (leBytes 5 off) else t
  else (s.evDiscarded 2 off).update m fun b => { b with discarded := b.discarded + 1 }

/-- A write to the result rings, at an offset of window 3: only read_count has an effect (R53, R74). -/
def writeResults (s : State) (off : Nat) (data : Bytes) : State :=
  let s1 := logStray s 3 (firstStray (fun o => decide (o % 0x100000 < 64)) off data.length)
  (List.range 64).foldl (fun t m => match writtenField (t.box m).readCount (m * 0x100000) off data with
    | none => t
    | some v => takeReadCount t m v) s1

/-- A write to the coefficient window: load halves take it but for reserved bits and bytes, in-force halves do not (R12, R157, R159). -/
def writeCoef (s : State) (off : Nat) (data : Bytes) : State :=
  let s1 := logStray s 6 (firstStray (fun o => decide (1024 ≤ o % 2048)) off data.length)
  let first := off / 2048
  (List.range ((off % 2048 + data.length + 2047) / 2048)).foldl (fun t k =>
    let a := first + k
    let base := a * 2048 + 1024
    let half := (List.range 1024).map fun i =>
      if off ≤ base + i ∧ base + i < off + data.length then data.getD (base + i - off) 0 &&& halfMask i else (loadHalf t a).getD i 0
    { t with arrays := { t.arrays with loadHalves := Tab.put (zeros 1024) t.arrays.loadHalves a half } }) s1

/-- A write to the memory window: the host area takes it (R53, R54). -/
def writeHostArea (s : State) (off : Nat) (data : Bytes) : State :=
  let s1 := logStray s 7 (firstStray (fun o => s.inHostArea o 1) off data.length)
  let lo := max off s.cfg.cur.hostOffset
  let hi := min (off + data.length) (s.cfg.cur.hostOffset + s.cfg.cur.hostSize)
  if lo < hi then { s1 with mem := memWrite s1.mem lo ((data.drop (lo - off)).take (hi - lo)) } else s1

/-- What a host write of `data` at offset `off` of window `w` does. -/
def windowWrite (s : State) (qp w off : Nat) (data : Bytes) : State :=
  if data.length = 0 then s
  else if w = 2 then writeEntry s qp off data
  else if w = 3 then writeResults s off data
  else if w = 4 then
    match writtenField s.log.readCount 8 off data with
    | none => s.evDiscarded 4 off
    | some v => logStray (takeEventCount s v) 4 (firstStray (fun o => decide (8 ≤ o ∧ o < 16)) off data.length)
  else if w = 5 then
    match writtenField s.monitor.readCount 8 off data with
    | none => s.evDiscarded 5 off
    | some v => logStray (takeCaptureCount s v) 5 (firstStray (fun o => decide (8 ≤ o ∧ o < 16)) off data.length)
  else if w = 6 then writeCoef s off data
  else if w = 7 then writeHostArea s off data
  else s.evDiscarded w off

/-! ### Queue pairs (R340 to R346) -/

/-- Changes one queue pair. -/
def State.setQp (s : State) (qp : Nat) (f : QueuePair → QueuePair) : State :=
  { s with port := { s.port with qps := s.port.qps.map fun q => if q.qpn = qp then f q else q } }

/-- Puts a queue pair into the error state (R341, R344); a transfer over it then ends as failed (R63). -/
def State.breakQp (s : State) (qp : Nat) : State := s.setQp qp fun q => { q with error := true }

/-- The later connected of two queue pairs; of two of one instant, the one with the higher number (R343, R361). -/
def QueuePair.later (a b : QueuePair) : QueuePair :=
  if a.since < b.since ∨ (a.since = b.since ∧ a.qpn < b.qpn) then b else a

/-- The load queue pair: the most recently connected one with LOAD that is not in the error state (R343, R361). -/
def State.loadQp (s : State) : Option Nat :=
  match s.port.qps.filter fun q => q.load && !q.error with
  | [] => none
  | q :: rest => some (rest.foldl QueuePair.later q).qpn

/-- Whether the bobbin takes entries: its firmware or its ROM code runs (R470, R472). -/
def State.bobbinRuns (s : State) : Bool :=
  s.start.powerGood && (decide (3 ≤ s.start.stage) || s.start.rom || s.start.safe) && !s.restarting

/-- Whether the entry at a mailbox's consume index may be consumed (R59). -/
def consumable (b : Mailbox) : Bool := b.cur.isNone && entryOwn (entryBytes b b.consume)

/-- The mailboxes that a scan finds consumable; in the ROM state mailbox 0 only (R52, R343, R472). -/
def scanResult (s : State) : List Nat :=
  if s.bobbinRuns then (List.range (if s.start.rom then 1 else 64)).filter fun m => consumable (s.box m) else []

/-- One scan of every ring. -/
def scan (s : State) : State := { s with boxes := { s.boxes with noted := scanResult s } }

/-- The IPv6 link-local address formed from the MAC address (R338; modified EUI-64, log 14). -/
def linkLocal (mac : Nat) : Nat :=
  0xFE80 * 2 ^ 112 + ((mac / 2 ^ 24) ^^^ 0x020000) * 2 ^ 40 + 0xFFFE * 2 ^ 24 + mac % 2 ^ 24

/-- The digits of a number below 100,000 in decimal, as ASCII. -/
def decimalBytes (n : Nat) : Bytes :=
  ((List.range 5).reverse.filter fun k => decide (k = 0 ∨ 10 ^ k ≤ n)).map fun k => BitVec.ofNat 8 (0x30 + n / 10 ^ k % 10)

/-- The system name of the port's LLDP frames: the part's name, then the machine id in decimal, or "-" when not configured (R347). -/
def systemName (id : Nat) : Bytes := partName ++ if id = 0xFFFF then [0x2D] else decimalBytes id

/-- Numbers that a new queue pair may not take: those of the connected ones, and of those over which a transfer is still out (R344). -/
def State.qpnsUsed (s : State) : List Nat :=
  s.port.qps.map (·.qpn) ++ (s.boxes.box.filterMap fun e => e.2.cur.map (·.via)) ++ s.motifs.loads.map (·.via)

/-- The first number from `n` on that no queue pair has. -/
def freshQpn (used : List Nat) : Nat → Nat → Nat
  | 0, n => n
  | k + 1, n => if used.contains n then freshQpn used k ((n + 1) % 2 ^ 24) else n

/-- The 64 bytes of private data of a REP (R342). -/
def repBytes (s : State) (qpn : Nat) : Bytes :=
  layout 64 ([(0x00, 4, 0x4D485746), (0x04, 4, qpn), (0x08, 2, s.fw.runningSlot.ifMin), (0x0A, 2, s.fw.runningSlot.ifMax),
    (0x0C, 2, s.machineId), (0x10, 8, s.fw.serial)] ++ (List.range 8).map fun i => (0x18 + 4 * i, 4, s.port.rkeys.getD i 0))

/-! ### The commands -/

/-- HOST_WRITE (R54). -/
def execHostWrite (qp addr : Nat) (data : Bytes) (s : State) : Result :=
  .next (match findWindow addr data.length with
    | some (w, off) => windowWrite s qp w off data
    | none => (s.breakQp qp).toHost (.nakAccess qp))

/-- MAILBOX_ENTRY_WRITE (R58, R60). -/
def execMailboxEntryWrite (qp addr : Nat) (data : Bytes) (s : State) : Result :=
  .next (match findWindow addr data.length with
    | some (w, off) => if w = 2 ∧ data.length ≠ 0 then writeEntry s qp off data else s
    | none => (s.breakQp qp).toHost (.nakAccess qp))

/-- READ_COUNT_WRITE (R74). -/
def execReadCountWrite (m value : Nat) (s : State) : Result :=
  need (decide (m < Config.mailboxes)) .noSuchMailbox (takeReadCount s m value)

/-- EVENT_LOG_READ_COUNT_WRITE (R391). -/
def execEventLogReadCountWrite (value : Nat) (s : State) : Result := .next (takeEventCount s value)

/-- CAPTURE_READ_COUNT_WRITE (R423). -/
def execCaptureReadCountWrite (value : Nat) (s : State) : Result := .next (takeCaptureCount s value)

/-- DOORBELL: a SEND of 0 to 64 bytes makes the bobbin scan; a longer one is completed, ignored and counted (R343, R344). -/
def execDoorbell (qp len : Nat) (s : State) : Result :=
  .next (if !s.qpOk qp then s
    else if s.restarting then s.toHost (.rnr qp)
    else if 64 < len then { s with port := { s.port with longSends := s.port.longSends + 1 } }.toHost (.ack qp)
    else (scan s).toHost (.ack qp))

/-- RING_SCAN (R343). -/
def execRingScan (s : State) : Result := .next (scan s)

/-- RDMA_WRITE: the rkey names a window; an access beyond it gets the remote access error (R53, R54). -/
def execRdmaWrite (qp rkey addr : Nat) (data : Bytes) (s : State) : Result :=
  .next (if !s.qpOk qp then s
    else match findWindow addr data.length with
      | some (w, off) =>
        if s.port.rkeys.getD w 0 = rkey then (windowWrite s qp w off data).toHost (.ack qp)
        else (s.breakQp qp).toHost (.nakAccess qp)
      | none => (s.breakQp qp).toHost (.nakAccess qp))

/-- Memory stack of a memory-window offset: 256-byte units interleave over the eight stacks. -/
def stackOf (a : Nat) : Nat := a / 256 % 8

/-- The flagged blocks of the host area that `n` bytes from `off` touch. -/
def flaggedIn (s : State) (off n : Nat) : List Nat :=
  s.mem.flagged.filter fun b => decide (off < 64 * b + 64 ∧ 64 * b < off + n) && s.inHostArea (64 * b) 64

/-- RDMA_READ: each unit from one snapshot; a flagged block reads as zeros and is recorded (R54, R55, R374). -/
def execRdmaRead (qp rkey addr len : Nat) (s : State) : Result :=
  .next (if !s.qpOk qp then s
    else match findWindow addr len with
      | some (w, off) =>
        if s.port.rkeys.getD w 0 = rkey then
          let t := s.toHost (.readResponse qp (windowRead s w off len))
          if w = 7 then (flaggedIn s off len).foldl
            (fun u b => u.ev 3 1 7 kStack (stackOf (64 * b)) (leBytes 5 (64 * b) ++ leBytes 1 3)) t
          else t
        else (s.breakQp qp).toHost (.nakAccess qp)
      | none => (s.breakQp qp).toHost (.nakAccess qp))

/-- UNSUPPORTED_OPERATION: NAK, invalid request; the queue pair enters the error state (R340). -/
def execUnsupportedOperation (qp : Nat) (s : State) : Result :=
  .next (if s.qpOk qp then (s.breakQp qp).toHost (.nakInvalid qp) else s)

/-- ACK_TIMEOUT: seven retries of one request, then the error state (R341). -/
def execAckTimeout (qp : Nat) (s : State) : Result :=
  .next (s.setQp qp fun q => if 7 ≤ q.retries then { q with error := true } else { q with retries := q.retries + 1 })

/-- A frame the port does not accept: two or more tags, a tag other than the configured VLAN, or more than 9,216 bytes (R338). -/
def frameBad (vlan : Nat) (f : FrameIn) : Bool :=
  decide (2 ≤ f.tags.length ∨ 9216 < f.length) || f.tags.any fun v => decide (v ≠ vlan)

/-- FRAME_DROP: a frame that the port does not accept, an IP fragment, or a UD packet other than connection management is dropped and counted, under the
first of these that holds (R338, R340); any other is accepted, and what it carries comes as a command of its own. -/
def execFrameDrop (reason : FrameIn) (s : State) : Result :=
  .next (if frameBad s.portCfg.vlan reason then { s with port := { s.port with badFrames := s.port.badFrames + 1 } }
    else if reason.fragment then { s with port := { s.port with fragments := s.port.fragments + 1 } }
    else if reason.ud then { s with port := { s.port with udDropped := s.port.udDropped + 1 } }
    else s)

/-- Whether an address asked for by ARP, neighbour discovery or echo is the port's own (R338). -/
def ownAddress (s : State) (kind addr : Nat) : Bool :=
  if kind = 0 ∨ kind = 2 then decide (s.portCfg.ipv4Prefix ≠ 0 ∧ addr = s.portCfg.ipv4)
  else if kind = 1 ∨ kind = 3 then decide (addr = linkLocal s.fw.mac ∨ (s.portCfg.ipv6Prefix ≠ 0 ∧ addr = s.portCfg.ipv6))
  else false

/-- ARP: the port answers for its own addresses (R338). -/
def execArp (kind addr : Nat) (s : State) : Result :=
  .next (onlyIf (s.port.up && ownAddress s kind addr) s (s.toHost (.answer kind addr)))

/-- Whether a priority is one of the two lossless ones (R345). -/
def isLossless (s : State) (priority : Nat) : Bool := decide (priority = s.portCfg.pfcA ∨ priority = s.portCfg.pfcB)

/-- How long a PAUSE of so many quanta lasts, in ns: a quantum is 512 bit times of the line (IEEE 802.1Qbb, which R345 names; PRESUMED, log 82). -/
def pauseNs (quanta : Nat) : Nat := (quanta * 512 * 1000000000 + Config.lineRate - 1) / Config.lineRate

/-- PAUSE received: honoured on pfc_a and pfc_b and on no other priority; it holds back what waits there and what follows, and 0 quanta ends it (R345). -/
def execPause (priority quanta : Nat) (s : State) : Result :=
  let until_ := if quanta = 0 then none else some (s.now + pauseNs quanta)
  let waits (f : HostFrame) : Bool := decide (f.priority = some priority) && (match f.held with | some t => decide (s.now < t) | none => false)
  .next (onlyIf (isLossless s priority) s
    { s with port := { s.port with
        pausedTx := (s.port.pausedTx.filter fun e => decide (e.1 ≠ priority)) ++ (until_.map fun t => (priority, t)).toList
        out := s.port.out.map fun f => if waits f then { f with held := until_ } else f } })

/-- PAUSE_SEND: PAUSE at a receive buffer fill of 75 %, released at 50 % (R345). -/
def execPauseSend (priority fill : Nat) (s : State) : Result :=
  .next (if !isLossless s priority then s
    else if 75 ≤ fill ∧ !s.port.pausedRx.contains priority then
      { s with port := { s.port with pausedRx := insertAsc priority s.port.pausedRx } }.toHost (.pause priority true)
    else if fill ≤ 50 ∧ s.port.pausedRx.contains priority then
      { s with port := { s.port with pausedRx := s.port.pausedRx.filter (· ≠ priority) } }.toHost (.pause priority false)
    else s)

/-- CE_MARK: one congestion notification per queue pair, at most once per 50 µs (R346). -/
def execCeMark (qp : Nat) (s : State) : Result :=
  .next (match s.port.qps.find? fun q => q.qpn = qp with
    | none => s
    | some q =>
      if (match q.cnpSent with | none => true | some t => decide (t + 50000 ≤ s.now)) then
        (s.setQp qp fun q => { q with cnpSent := some s.now }).toHost (.cnp qp s.portCfg.dscpCnp s.portCfg.pcpCnp)
      else s)

/-- CONGESTION_NOTIFICATION: the send rate halves, down to 1 Gbit/s (R346). -/
def execCongestionNotification (qp : Nat) (s : State) : Result :=
  .next (s.setQp qp fun q => { q with rate := max 1000000000 (q.rate / 2), cnpGot := some s.now })

/-- RATE_RISE: 5 % of line rate for every 55 µs without a notification (R346). -/
def execRateRise (qp : Nat) (s : State) : Result :=
  .next (s.setQp qp fun q => match q.cnpGot with
    | none => q
    | some t => if t + 55000 ≤ s.now then
        { q with rate := min Config.lineRate (q.rate + Config.lineRate / 20), cnpGot := some s.now } else q)

/-- LLDP_SEND: chassis id, the port id "host", system name and management addresses (R347). -/
def execLldpSend (s : State) : Result :=
  .next (onlyIf s.port.up s (s.toHost (.lldp s.fw.mac [0x68, 0x6F, 0x73, 0x74] (systemName s.machineId)
    (if s.portCfg.ipv4Prefix = 0 then none else some s.portCfg.ipv4) (if s.portCfg.ipv6Prefix = 0 then none else some s.portCfg.ipv6))))

/-- LLDP received: the last frame is recorded (R347). -/
def execLldp (frame : Bytes) (s : State) : Result :=
  .next (onlyIf s.port.up s { s with port := { s.port with lastLldp := some frame } })

/-- Whether light-supply input 8 has been GOOD for 100 ms (R337). -/
def portLightGood (s : State) : Bool :=
  let l := Tab.get Light.init s.fabric.light 8
  decide (l.state = 3 ∧ l.since + 100000000 ≤ s.now)

/-- HOST_PORT_LINK: link training ended with the port up, or the port has gone down and with it every queue pair (R337, R344, R471). -/
def execHostPortLink (up : Bool) (s : State) : Result :=
  .next (if up then
      onlyIf (portLightGood s && s.start.powerGood && (decide (4 ≤ s.start.stage) || s.start.rom || s.start.safe)) s
        { s with port := { s.port with up := true } }
    else { s with port := { s.port with up := false, qps := [], pausedTx := [], pausedRx := [] } })

/-- REQ: connection management (R340, R342). -/
def execReq (transport : Nat) (priv : Bytes) (priority mtu : Nat) (s : State) : Result :=
  .next (if !s.port.up then s
    else if transport ≠ 0 ∨ mtu < 1024 then s.toHost (.reject false)
    else if priv.length < 16 ∨ field priv 0 4 ≠ 0x51485746 ∨ Config.maxQps ≤ s.port.qps.length then s.toHost (.reject true)
    else
      let qpn := freshQpn s.qpnsUsed s.qpnsUsed.length (s.draw.1 % 2 ^ 24)
      let t := s.draw.2
      let q : QueuePair := { qpn := qpn, load := bit (field priv 4 1) 0, error := false, priority := priority, mtu := min mtu 4096,
                             rate := Config.lineRate, cnpSent := none, cnpGot := none, retries := 0, since := s.now }
      { t with port := { t.port with qps := t.port.qps ++ [q] } }.toHost (.rep qpn (repBytes s qpn)))

/-- DISCONNECT: the queue pair is gone; commands go on (R344). -/
def execDisconnect (qp : Nat) (s : State) : Result :=
  .next { s with port := { s.port with qps := s.port.qps.filter fun q => q.qpn ≠ qp } }

end Sys2Proof.Machine
end

