-- ==== Sys2Proof/Machine/Steps.lean ====
section
/-! DEFINITION. What the steps of a module share: placement, lineages, arrival of data, recall and its effects (R235 to R262). -/

namespace Sys2Proof.Machine

/-! ### Placement (R204, R235, R299) -/

/-- The module that holds the roles of a machine id now, as ROLE messages and this module's own takeovers say (R299). -/
def State.holder (s : State) (id : Nat) : Nat :=
  match s.take.roles.find? fun e => e.1 = id with
  | some e => e.2
  | none => id

/-- The pricking that serves a step of a generation (R34, R289). -/
def MotifEntry.prickFor (e : MotifEntry) (gen : Nat) : Option Pricking := if e.gen.toNat = gen then e.prick else e.prick2

/-- The shard that serves a step of a generation (R289). -/
def MotifEntry.shardFor (e : MotifEntry) (gen : Nat) : Option Shard := if e.gen.toNat = gen then e.mirror else e.mirror2

/-- The module that has what a pricking gives to `id`, for a step: the newest planned move whose handover the step has reached (R294). -/
def movedTo (t : StepTag) : List Move → Nat → Nat
  | [], id => id
  | mv :: rest, id =>
    if mv.machine = id ∧ !(mv.before.any fun b => decide (b.1 = t.motif ∧ b.2.1 = t.seq ∧ b.2.2.1 = t.companion ∧ t.step < b.2.2.2)) then mv.holder
    else movedTo t rest id

/-- A pricking with its machine ids replaced. -/
def Pricking.placed (p : Pricking) (f : Nat → Nat) : Pricking :=
  { p with
    head := f p.head
    tail := f p.tail
    layers := p.layers.map fun r => { r with owner := f r.owner, spread := r.spread.map fun slot => slotOf (f (16 * groupOf r.owner + slot)) }
    shards := p.shards.map fun e => { e with machineId := f e.machineId } }

/-- The pricking of a step tag, as planned moves place it for that step (R294). -/
def State.prickT (s : State) (t : StepTag) : Option Pricking :=
  ((s.motif t.motif).prickFor t.gen).map fun p => p.placed (movedTo t s.take.moves)

/-- The module that has what a pricking gives to `id`, for steps that start now. -/
def movedNow : List Move → Nat → Nat
  | [], id => id
  | mv :: rest, id => if mv.machine = id then mv.holder else movedNow rest id

/-- The resident pricking of a motif, as planned moves place it for steps that start now. -/
def State.prickNow (s : State) (motif : Nat) : Option Pricking := (s.motif motif).prick.map fun p => p.placed (movedNow s.take.moves)

/-- A layer record by number. -/
def layerOf (p : Pricking) (l : Nat) : Option LayerRec := p.layers.find? fun r => r.layer = l

/-- The layer record of a step tag. -/
def State.layerT (s : State) (t : StepTag) : Option LayerRec := (s.prickT t).bind fun p => layerOf p t.layer

/-- Whether this module holds a layer record's layer. -/
def State.owns (s : State) (r : LayerRec) : Bool := decide (s.holder r.owner = s.machineId)

/-- The layers of a pricking that this module holds, rising. -/
def State.ownLayers (s : State) (p : Pricking) : List Nat := (p.layers.filter s.owns).map (·.layer)

/-- The modules of a layer's spread in rank order (R204). -/
def State.spreadIds (s : State) (r : LayerRec) : List Nat :=
  (r.spread.take r.k).map fun slot => s.holder (16 * groupOf r.owner + slot)

/-- The module whose pages a rank of a layer's spread are, before any takeover. -/
def rankHome (r : LayerRec) (i : Nat) : Nat := 16 * groupOf r.owner + r.spread.getD i 0

/-- Whether a rank's module is missing, so that its shadow serves the rank's pages (R207, R293). -/
def State.rankLost (s : State) (r : LayerRec) (i : Nat) : Bool := s.fabric.missing.contains (rankHome r i) || s.take.farLost.contains (rankHome r i)

/-- The ranks of a layer's spread that this module holds. -/
def State.ranksHeld (s : State) (r : LayerRec) : List Nat :=
  (List.range r.k).filter fun i => decide ((s.spreadIds r).getD i 0xFFFF = s.machineId)

/-- The ranks whose pages this module serves as their home: those it holds, but not a lost rank, which its shadow serves (R207). -/
def State.ranksHere (s : State) (r : LayerRec) : List Nat := (s.ranksHeld r).filter fun i => !s.rankLost r i

/-- The modules of a motif's placement and spreads (R254). -/
def State.motifModules (s : State) (p : Pricking) : List Nat :=
  ((p.shards.map fun e => s.holder e.machineId) ++ p.layers.flatMap s.spreadIds).dedup

/-- Whether this module is the head, or the tail, of a pricking. -/
def State.headOf (s : State) (p : Pricking) : Bool := decide (s.holder p.head = s.machineId)
def State.tailOf (s : State) (p : Pricking) : Bool := decide (s.holder p.tail = s.machineId)

/-! ### Step records -/

/-- A datum of the step a record describes (R240). -/
def sameStep (t : StepTag) (r : StepRec) : Bool :=
  decide (r.motif = t.motif ∧ r.seq = t.seq ∧ r.step = t.step ∧ r.companion = t.companion)

/-- A record of the sequence a tag names. -/
def sameSeq (t : StepTag) (r : StepRec) : Bool := decide (r.motif = t.motif ∧ r.seq = t.seq ∧ r.companion = t.companion)

/-- Two data of one step. -/
def sameTag (t u : StepTag) : Bool :=
  decide (u.motif = t.motif ∧ u.seq = t.seq ∧ u.step = t.step ∧ u.companion = t.companion)

/-- The tag of a step's datum of a layer and lineage. -/
def StepRec.tag (r : StepRec) (layer : Nat) (lam : Lineage) : StepTag :=
  { step := r.step, seq := r.seq, motif := r.motif, gen := r.gen, layer := layer, lineage := lam, companion := r.companion }

/-- The record of a step. -/
def State.stepOf (s : State) (t : StepTag) : Option StepRec := s.steps.live.find? (sameStep t)

/-- Changes the record of a step. -/
def State.setStep (s : State) (t : StepTag) (f : StepRec → StepRec) : State :=
  { s with steps := { s.steps with live := mapFirst (sameStep t) f s.steps.live } }

/-- A step as a module first hears of it, with the settings then in force (R447); under takeover it shows slow_causes bit 0 (R293). -/
def State.freshStep (s : State) (t : StepTag) : StepRec :=
  { motif := t.motif, seq := t.seq, step := t.step, gen := t.gen, companion := t.companion, prefill := false, n := 0, width := 0,
    nodes := [], formats := [], floors := [], maxLineage := 0, inputs := [], outputs := [], checks := [], checkSent := [], checkTold := [],
    flagged := [], replay := none, noReplay := none,
    slow := if s.role = 1 ∧ s.take.spareServes.isSome then slowBit slowTakeover else 0, replays := 0, served := [], drawn := [], unitsDrawn := [], tau := s.cfg.cur.tau,
    auditLog2 := s.cfg.cur.auditLog2, ended := false, after := 0, avoid := [], damaged := [], uncommitted := false, sentTo := [] }

/-! ### Ended steps (R37, R239, R254, R290) -/

/-- Flagged staging words without those that data of a step lay in: that data is discarded, and a word is written before it is read again (R374). -/
def unflagged (t : StepTag) (l : List (Nat × Nat × Option StepTag)) : List (Nat × Nat × Option StepTag) :=
  l.filter fun x => match x.2.2 with
    | some u => !sameTag t u
    | none => true

/-- A step's derived data gone; array outputs stay until their report (R239, R254). -/
def State.purge (s : State) (t : StepTag) : State :=
  let off := fun (u : StepTag) => !sameTag t u
  { s with
    data := { s.data with
      rotated := s.data.rotated.filter fun x => off x.tag
      parts := s.data.parts.filter fun x => off x.key.tag
      tambour := s.data.tambour.filter fun x => off x.key.tag
      tambourWait := s.data.tambourWait.filter fun x => off x.key.tag
      wide := s.data.wide.filter fun x => off x.tag
      outs := s.data.outs.filter fun x => off x.tag }
    attn := { s.attn with
      rows := s.attn.rows.filter fun x => off x.1
      closed := s.attn.closed.filter off
      pipes := s.attn.pipes.filter fun x => off x.2.tag
      units := s.attn.units.filter fun x => off x.tag
      parts := s.attn.parts.filter fun x => off x.1
      merged := s.attn.merged.filter fun x => off x.1
      outs := s.attn.outs.filter fun x => off x.1
      written := s.attn.written.filter fun x => off x.1
      slotsWait := s.attn.slotsWait.filter fun x => off x.1
      sentRows := s.attn.sentRows.filter fun x => off x.1 }
    steps := { s.steps with actWait := s.steps.actWait.filter fun x => off x.1 }
    mem := { s.mem with flaggedStaging := unflagged t s.mem.flaggedStaging }
    arrays := { s.arrays with dutyWait := s.arrays.dutyWait.filter fun v => off v.2.tag } }

/-- The record of a step that has ended and left a token length: retained rows released, a replay abandoned (R239, R254, R370). -/
def StepRec.close (r : StepRec) (length : Nat) (uncommitted : Bool) : StepRec :=
  { r with ended := true, uncommitted := uncommitted, after := length, inputs := [], outputs := [], checks := [], replay := none, sentTo := [], nodes := [] }

/-- A step of an old generation that leaves the count of a switch in progress (R290). -/
def State.switchProgress (s : State) (motif gen : Nat) : State :=
  match s.motifs.switches.find? fun w => decide (w.motif = motif ∧ w.oldGen.toNat = gen) with
  | none => s
  | some w => s.update w.mailbox fun b => { b with progress := min w.target (b.progress + 1) }

/-- Marks a step ended, and takes it out of the count of a switch in progress (R290); of a sequence's ended steps the newest is kept, with its latches. -/
def State.endStep (s : State) (t : StepTag) (length : Nat) (uncommitted : Bool) : State :=
  let s0 := match s.stepOf t with
    | some r => if r.ended then s else s.switchProgress r.motif r.gen
    | none => s
  let s1 := (s0.setStep t fun r => r.close length uncommitted).purge t
  { s1 with
    steps := { s1.steps with live := s1.steps.live.filter fun r => !(sameSeq t r && r.ended && decide (r.step < t.step)) }
    attn := { s1.attn with latches := s1.attn.latches.filter fun l =>
      !(decide (l.tag.motif = t.motif ∧ l.tag.seq = t.seq ∧ l.tag.companion = t.companion ∧ l.tag.step < t.step)) } }

/-- Whether a record is of an earlier sequence of the same id: step 1 comes again after a later step has ended; whether it does after step 1 was the only one
is a free value. No message tells a module that is not the head of the close between (R30, R34; DESIGN CHOICE, log 70). -/
def State.bygone (s : State) (t : StepTag) (r : StepRec) : Bool :=
  sameSeq t r && r.ended && decide (t.step = 1) && !(s.seqs.open_.any fun q => decide (q.motif = t.motif ∧ q.id = t.seq ∧ q.companion = t.companion)) &&
  (decide (1 < r.step) || decide (r.step = 1 ∧ Config.remote t.motif t.seq 1 37 r.after % 2 = 1))

/-- An earlier sequence of a tag's id forgotten here: its step records, its latches and, since it is closed, the frames of its lists (R212, R217). -/
def State.dropBygone (s : State) (t : StepTag) : State :=
  if s.steps.live.any (s.bygone t) then
    { s with
      steps := { s.steps with live := s.steps.live.filter fun r => !s.bygone t r }
      attn := { s.attn with latches := s.attn.latches.filter fun l =>
        !(decide (l.tag.motif = t.motif ∧ l.tag.seq = t.seq ∧ l.tag.companion = t.companion)) }
      seqs := { s.seqs with frames := s.seqs.frames.filter fun f => !(decide (f.motif = t.motif ∧ f.seq = t.seq ∧ f.companion = t.companion)) } }
  else s

/-- The steps of a companion end here when a later one begins: companion steps run one after another (R37), and no COMMIT ends them (DESIGN CHOICE, log 73). -/
def State.endCompanions (s : State) (t : StepTag) : State :=
  if t.companion.isNone then s
  else (s.steps.live.filter fun r => sameSeq t r && !r.ended && decide (r.step < t.step)).foldl (fun u r => u.endStep (r.tag 0 0) r.n false) s

/-- The state with a record for the step of a datum. -/
def State.withStep (s : State) (t : StepTag) : State :=
  let s0 := s.dropBygone t
  if (s0.stepOf t).isSome then s0
  else
    let s1 := s0.endCompanions t
    { s1 with steps := { s1.steps with live := s1.steps.live ++ [s.freshStep t] } }

/-- Whether the step of a datum has ended here: it or a later step of its sequence (R47). -/
def State.stepOver (s : State) (t : StepTag) : Bool :=
  s.steps.live.any fun r => sameSeq t r && r.ended && decide (t.step ≤ r.step) && !s.bygone t r

/-- Steps in flight on this module. -/
def State.inFlight (s : State) : List StepRec := s.steps.live.filter fun r => !r.ended

/-- Steps of a sequence in flight. -/
def State.seqInFlight (s : State) (t : StepTag) : List StepRec := s.steps.live.filter fun r => sameSeq t r && !r.ended

/-- Notes a slow cause of a step on this module (R252). -/
def State.stepSlow (s : State) (t : StepTag) (cause : Nat) : State := s.setStep t fun r => { r with slow := r.slow ||| slowBit cause }

/-- Records that a module receives data of a step (R258 item 4). -/
def State.noteSent (s : State) (t : StepTag) (dest : Nat) (attn : Bool) : State :=
  s.setStep t fun r => { r with sentTo := { dest := dest, layer := t.layer, lineage := t.lineage, attn := attn } :: r.sentTo }

/-- Sends a datum of a step to a module and records it. -/
def State.sendData (s : State) (t : StepTag) (dest : Nat) (last attn : Bool) (body : MsgBody) : State :=
  (s.send { s.msg dest (some t) body with last := last }).noteSent t dest attn

/-- The steps in flight of the sequence that a PAGES_BIND names which have latched a descriptor of its layers (R214): on this module its latches tell; whether a
spread module elsewhere has latched one no message tells: a free value (log 51). -/
def State.latchedNow (s : State) (e : Bytes) : List Nat :=
  let mine := s.steps.live.filter fun r => decide (r.motif = entryMotif e ∧ r.seq = entrySeq e ∧ r.companion = none) && !r.ended
  (mine.filter fun r => (List.range (field e 0x12 2)).any fun i =>
    let l := field e 0x10 2 + i
    let elsewhere := match s.layerT (r.tag l 0) with
      | some x => (s.spreadIds x).any (· ≠ s.machineId)
      | none => false
    (s.attn.latches.any fun x => sameTag (r.tag l 0) x.tag && decide (x.tag.layer = l)) ||
      (elsewhere && decide (Config.remote r.motif r.seq r.step 39 l % 2 = 1))).map (·.step)

/-! ### Lineages (R241, R257, R262) -/

/-- The attempt of a lineage. -/
def attemptOf (l : Lineage) : Nat := l.toNat / 2 ^ 24

/-- The first layer a lineage recalls. -/
def recallLayer (l : Lineage) : Nat := 0xFFFF - l.toNat % 65536

/-- The lineage of an attempt from a layer on. -/
def lineageOf (attempt f : Nat) : Lineage := BitVec.ofNat 32 (attempt % 256 * 2 ^ 24 + (0xFFFF - f))

/-- The larger of two lineages. -/
def lineMax (a b : Lineage) : Lineage := if a.toNat < b.toNat then b else a

/-- The lineage of a new recall from layer `f` (R257); attempt 8 is kept, with the lower layer (R262). -/
def raiseLineage (seen : Lineage) (f : Nat) : Lineage :=
  if 8 ≤ attemptOf seen then lineageOf 8 (min f (recallLayer seen)) else lineageOf (attemptOf seen + 1) f

/-- The floor of a layer (R258): the largest lineage of the recalls that cover it. -/
def floorAt (r : StepRec) (layer : Nat) : Lineage :=
  r.floors.foldl (fun m e => if e.1 ≤ layer then lineMax m e.2 else m) 0

/-- Whether every tile of a layer of the step is served by the tambour (R262). -/
def allTambour (r : StepRec) (layer : Nat) : Bool := decide (8 ≤ attemptOf r.maxLineage ∧ recallLayer r.maxLineage ≤ layer)

/-! ### Recall (R250, R256 to R259) -/

/-- What the origin of a recall keeps of its first recalled layer (R260 item 3). -/
structure Keep where
  /-- The layer's query rows, slot writes and merged rows. -/
  attn : Bool
  /-- Blocks whose chains hold a flagged array, as (matrix, output block), where other blocks are kept. -/
  blocks : Option (List (Nat × Nat))
  motif : Nat
  layer : Nat
  deriving DecidableEq, Repr

/-- Nothing kept. -/
def Keep.nothing : Keep := { attn := false, blocks := none, motif := 0, layer := 0 }

/-- Whether the input of a matrix of layer f is kept: no flagged matrix reaches it, nor the attention that runs again (R260 item 3; which matrix feeds which
the spec does not say: a free value, log 17). -/
def Keep.input (k : Keep) (matrix : Nat) : Bool :=
  match k.blocks with
  | none => false
  | some bs => (k.attn || !Config.followsAttention k.motif k.layer matrix) && bs.all fun b => !Config.reaches k.motif k.layer b.1 matrix

/-- Whether the results of an output block of layer f are kept: its input is, and its chains hold no flagged array. -/
def Keep.block (k : Keep) (matrix block : Nat) : Bool :=
  match k.blocks with
  | none => false
  | some bs => k.input matrix && !bs.contains (matrix, block)

/-- A datum that a recall of step `t` at lineage `lam` from layer `f` supersedes. -/
def stale (t : StepTag) (f : Nat) (lam : Lineage) (u : StepTag) : Bool :=
  sameTag t u && decide (f ≤ u.layer) && decide (u.lineage.toNat < lam.toNat)

/-- Drops the superseded data of a list; those of layer f that are kept take the new lineage. -/
def sweep {α : Type} (t : StepTag) (f : Nat) (lam : Lineage) (tag : α → StepTag) (retag : α → Lineage → α) (keep : α → Bool)
    (l : List α) : List α :=
  l.filterMap fun a =>
    if !stale t f lam (tag a) then some a
    else if decide ((tag a).layer = f) && keep a then some (retag a lam) else none

/-- A tag with another lineage. -/
def tagAt (t : StepTag) (lam : Lineage) : StepTag := { t with lineage := lam }

/-- A chain key with another lineage. -/
def keyAt (k : ChainKey) (lam : Lineage) : ChainKey := { k with tag := tagAt k.tag lam }

/-- The data path without the superseded data. -/
def sweepData (t : StepTag) (f : Nat) (lam : Lineage) (k : Keep) (d : DataPath) : DataPath :=
  { d with
    rotated := sweep t f lam (·.tag) (fun a l => { a with tag := tagAt a.tag l }) (fun a => k.input a.matrix) d.rotated
    parts := sweep t f lam (·.key.tag) (fun a l => { a with key := keyAt a.key l }) (fun a => k.block a.key.matrix a.key.outputBlock) d.parts
    tambour := sweep t f lam (·.key.tag) (fun a l => { a with key := keyAt a.key l }) (fun a => k.block a.key.matrix a.key.outputBlock) d.tambour
    tambourWait := sweep t f lam (·.key.tag) (fun a l => { a with key := keyAt a.key l, vec := { a.vec with tag := tagAt a.vec.tag l } })
      (fun a => k.block a.key.matrix a.key.outputBlock) d.tambourWait
    wide := sweep t f lam (·.tag) (fun a l => { a with tag := tagAt a.tag l }) (fun a => k.block a.matrix a.outputBlock) d.wide
    outs := sweep t f lam (·.tag) (fun a l => { a with tag := tagAt a.tag l }) (fun a => k.block a.matrix a.outputBlock) d.outs }

/-- Attention without the superseded data. -/
def sweepAttn (t : StepTag) (f : Nat) (lam : Lineage) (k : Keep) (a : Attention) : Attention :=
  { a with
    rows := sweep t f lam (·.1) (fun x l => (tagAt x.1 l, x.2)) (fun _ => k.attn) a.rows
    closed := sweep t f lam id (tagAt) (fun _ => k.attn) a.closed
    pipes := a.pipes.filter fun p => !stale t f lam p.2.tag
    units := sweep t f lam (·.tag) (fun x l => { x with tag := tagAt x.tag l }) (fun _ => k.attn) a.units
    parts := sweep t f lam (·.1) (fun x l => (tagAt x.1 l, x.2)) (fun _ => k.attn) a.parts
    merged := sweep t f lam (·.1) (fun x l => (tagAt x.1 l, x.2)) (fun _ => k.attn) a.merged
    outs := sweep t f lam (·.1) (fun x l => (tagAt x.1 l, x.2)) (fun _ => k.attn) a.outs
    written := sweep t f lam (·.1) (fun x l => (tagAt x.1 l, x.2)) (fun _ => k.attn) a.written
    slotsWait := sweep t f lam (·.1) (fun x l => (tagAt x.1 l, x.2)) (fun _ => k.attn) a.slotsWait
    sentRows := sweep t f lam (·.1) (fun x l => (tagAt x.1 l, x.2)) (fun _ => k.attn) a.sentRows }

/-- The record of a step once a recall is applied: floor raised, superseded rows and checks gone. -/
def StepRec.recalled (r : StepRec) (f : Nat) (lam : Lineage) (forwarded : List Sent) : StepRec :=
  { r with
    floors := (f, lam) :: r.floors
    maxLineage := lineMax r.maxLineage lam
    inputs := r.inputs.filter fun x => !(decide (f < x.layer) && decide (x.lineage.toNat < lam.toNat))
    outputs := r.outputs.filter fun x => !(decide (f ≤ x.layer) && decide (x.lineage.toNat < lam.toNat))
    checks := r.checks.filter fun c => !(decide (f ≤ c.2.through) && decide (c.1.toNat < lam.toNat))
    checkSent := r.checkSent.filter fun c => !(decide (f ≤ c.1) && decide (c.2.toNat < lam.toNat))
    sentTo := r.sentTo.filter fun e => !forwarded.contains e }

/-- A knot re-armed for a recalled layer (R250): the new lineage as guard, nothing counted. -/
def Knot.rearmed (k : Knot) (lam : Lineage) : Knot := { k with state := 1, guard := lam, count := 0, refused := 0 }

/-- The knots after a recall: those that serve a recalled layer of the step are re-armed (R250). -/
def rearmKnots (t : StepTag) (f : Nat) (lam : Lineage) (k : Knots) : Knots :=
  { k with knot := k.knot.foldl (fun tab e => match e.2.serves with
      | some u => if sameTag t u ∧ f ≤ u.layer ∧ e.2.guard.toNat < lam.toNat then Tab.put Knot.init tab e.1 (e.2.rearmed lam) else tab
      | none => tab) k.knot }

/-- What a recall leaves of an array output: one whose check has not been reported stays until its report (R260 item 1, R266). -/
def sweepOut (t : StepTag) (f : Nat) (lam : Lineage) (keep : ArrayOut → Bool) (o : ArrayOut) : Option ArrayOut :=
  let old := stale t f lam o.vec.tag
  if !old || !o.reported then some o
  else if decide (o.vec.tag.layer = f) && keep o then some { o with vec := { o.vec with tag := tagAt o.vec.tag lam } }
  else none

/-- Array outputs without the superseded ones. -/
def sweepOuts (t : StepTag) (f : Nat) (lam : Lineage) (keep : Nat → ArrayOut → Bool) (arrays : Arrays) : Arrays :=
  { arrays with addr := arrays.addr.foldl (fun tab e =>
      Tab.put ArrayState.init tab e.1 { e.2 with outs := e.2.outs.filterMap (sweepOut t f lam (keep e.1)) }) arrays.addr }

/-- The modules that hold data a recall supersedes (R258 item 4). -/
def forwards (r : StepRec) (f : Nat) (lam : Lineage) (keepAttn : Bool) : List Sent :=
  r.sentTo.filter fun e =>
    decide (f ≤ e.layer) && decide (e.lineage.toNat < lam.toNat) && !(keepAttn && e.attn && decide (e.layer = f))

/-- Every datum of a step that a recall supersedes, from layer `lo` on. -/
def State.sweepAll (s : State) (t : StepTag) (lo : Nat) (lam : Lineage) (keep : Keep) (outs : Nat → ArrayOut → Bool) : State :=
  { s with
    data := sweepData t lo lam keep s.data
    attn := sweepAttn t lo lam keep s.attn
    steps := { s.steps with actWait := s.steps.actWait.filter fun x => !stale t lo lam x.1 }
    arrays := { sweepOuts t lo lam outs s.arrays with dutyWait := s.arrays.dutyWait.filter fun v => !stale t lo lam v.2.tag } }

/-- Discards the tree that the draft motif has begun from the verdict on a step (R255). -/
def State.discardTree (s : State) (t : StepTag) : State :=
  if t.companion.isSome then s
  else { s with seqs := { s.seqs with open_ := s.seqs.open_.map fun q =>
    if q.id = t.seq ∧ (q.motif = t.motif ∧ q.companion = none ∨ q.companion = some t.motif) then { q with nextTree := none } else q } }

/-- Applies a recall (lam, f) of a step: discards, floor, knots, forwarding (R258 items 1 to 4). Its origin leaves the data of layer f
to its replay, which decides what of it R260 keeps. -/
def State.applyRecall (s : State) (t : StepTag) (f : Nat) (lam : Lineage) (origin keepAttn : Bool) (body : RecallBody) : State :=
  match s.stepOf t with
  | none => s
  | some r =>
    let fwd := forwards r f lam keepAttn
    let s1 := (s.discardTree t).sweepAll t (if origin then f + 1 else f) lam Keep.nothing fun _ _ => false
    let s2 := { s1 with knots := rearmKnots t f lam s1.knots }
    let s3 := s2.setStep t fun r => r.recalled f lam fwd
    s3.sendAll ((fwd.map (·.dest)).dedup.filter (· ≠ s.machineId)) (some (r.tag f lam)) (.recall body)

/-- What an addressable array holds. -/
def State.held (s : State) (a : Nat) : Option Held := (s.phys (s.physOf a)).cells

/-- Whether the flagged array lies in a matrix that follows its layer's attention (R260 item 3; which matrices do is a free value, log 17). -/
def State.afterAttention (s : State) (array : Nat) : Bool :=
  match s.held array with
  | some h => Config.followsAttention h.motif h.tile.layer h.tile.matrix
  | none => false

/-- Modules an origin tells beside those it sent data to (DEDUCED, log 20): the layer module of f when the origin is not it, and with
NO_REPLAY the tail, which ends the step (R261), and the head, whose command completes with the layer (R211). -/
def State.recallAlso (s : State) (t : StepTag) (f : Nat) (noReplay : Bool) : List Nat :=
  match s.prickT t with
  | none => []
  | some p =>
    ((match layerOf p f with | some r => [s.holder r.owner] | none => []) ++ (if noReplay then [s.holder p.tail, s.holder p.head] else [])).dedup.filter
      (· ≠ s.machineId)

/-- Raises a recall of one step, without its dependents: record, counter, lineage, effects at the origin (R256 to R258). -/
def State.raiseOne (s : State) (t : StepTag) (cause f array kind index : Nat) (noReplay : Bool) : State :=
  match s.stepOf t with
  | none => s
  | some r =>
    if r.ended || r.noReplay.isSome || (decide (8 ≤ attemptOf r.maxLineage) && !(noReplay || decide (cause = 3 ∨ cause = 4))) then s
    else
      let lam := raiseLineage r.maxLineage f
      let body : RecallBody := { cause := cause, noReplay := noReplay, layer := f, array := array, origin := s.machineId, time := s.now }
      let s1 := (s.event { cls := 11, code := 1, op := 0, kind := kind, index := index, tag := some (r.tag f lam), epoch := 0,
                           detail := leBytes 1 cause ++ leBytes 1 (b2n noReplay) ++ leBytes 2 f ++ leBytes 2 s.machineId ++ leBytes 2 array }).count
                  fun c => { c with recalls := sat64 c.recalls 1 }
      ((s1.applyRecall t f lam (!noReplay) (decide (array ≠ 0xFFFF) && s.afterAttention array) body).sendAll
          (s.recallAlso t f noReplay) (some (r.tag f lam)) (.recall body)).setStep t fun r => { r with
        replay := if noReplay then r.replay else some (match r.replay with | some p => (min p.1 f, lam, body) | none => (f, lam, body))
        damaged := if cause = 3 then s.machineId :: r.damaged else r.damaged
        noReplay := if noReplay then some f else r.noReplay
        slow := if noReplay then r.slow else r.slow ||| slowBit slowReplay }

/-- Whether this module holds a layer of the tag's motif at or above `f`. -/
def State.ownsFrom (s : State) (t : StepTag) (f : Nat) : Bool :=
  match s.prickT t with
  | some p => (s.ownLayers p).any fun l => decide (f ≤ l)
  | none => false

/-- The later steps of a sequence in flight here: prefill steps that depend on this one (R238). -/
def State.dependents (s : State) (t : StepTag) : List StepRec :=
  s.steps.live.filter fun r => sameSeq t r && !r.ended && decide (t.step < r.step)

/-- Recalls the dependents of a recalled step with cause 6, replayed or not as that step (R256, R258 item 5). -/
def State.recallDependents (s : State) (t : StepTag) (f : Nat) (noReplay : Bool) : State :=
  if s.ownsFrom t f then
    (s.dependents t).foldl (fun u r => u.raiseOne (r.tag f 0) 6 f 0xFFFF kModule 0 noReplay) s
  else s

/-- Raises a recall of a step and recalls its dependents. -/
def State.raiseRecall (s : State) (t : StepTag) (cause f array kind index : Nat) : State :=
  (s.raiseOne t cause f array kind index (decide (cause = 5))).recallDependents t f (decide (cause = 5))

/-- Takes a recall that another module raised, if it is news (R258; a repeated recall changes nothing). A layer module whose own layer a
spread module recalls replays it in full, as no other module can (DEDUCED, log 20): only the origin keeps data of layer f. -/
def State.takeRecall (s : State) (t : StepTag) (lam : Lineage) (f : Nat) (body : RecallBody) : State :=
  match s.stepOf t with
  | none => s
  | some r =>
    if r.ended then s
    else if lam.toNat ≤ (floorAt r f).toNat then
      if body.noReplay then s.setStep t fun r => { r with replay := none, noReplay := some (match r.noReplay with | some g => min g f | none => f) }
      else s
    else
      let mine := !body.noReplay && (match (s.prickT t).bind fun p => layerOf p f with | some l => s.owns l | none => false)
      let s1 := (s.applyRecall t f lam false false body).setStep t fun r =>
        { r with noReplay := if body.noReplay then some (match r.noReplay with | some g => min g f | none => f) else r.noReplay
                 damaged := if body.cause = 3 then body.origin :: r.damaged else r.damaged
                 replay := if mine then some (f, lam, body) else r.replay }
      s1.recallDependents t f body.noReplay

/-- The body under which a recall that a datum implies is forwarded: which cause, array, origin and time the datum does not tell (free values, log 16). -/
def impliedRecall (t : StepTag) (f : Nat) : RecallBody :=
  { cause := 1 + Config.remote t.motif t.seq t.step 20 0 % 6, noReplay := false, layer := f,
    array := Config.remote t.motif t.seq t.step 20 1 % 65536, origin := Config.remote t.motif t.seq t.step 20 2 % 65536,
    time := Config.remote t.motif t.seq t.step 20 3 % 2 ^ 64 }

/-- Arrival of a datum of a step (R258, R259): the state with the step known, and whether the datum is taken. A datum above its
layer's floor is first treated as the recall its lineage spells. -/
def State.arrive (s : State) (t : StepTag) : State × Bool :=
  if s.stepOver t then (s, false)
  else
    let s1 := (s.withStep t).setStep t fun r => { r with maxLineage := lineMax r.maxLineage t.lineage }
    match s1.stepOf t with
    | none => (s, false)
    | some r =>
      let floor := floorAt r t.layer
      if t.lineage.toNat < floor.toNat then (s1, false)
      else if floor.toNat < t.lineage.toNat then
        let f := recallLayer t.lineage
        (s1.takeRecall t t.lineage f (impliedRecall t f), true)
      else (s1, true)

end Sys2Proof.Machine
end

