-- ==== Sys2Proof/Machine/Arrays.lean ====
section
/-! DEFINITION. Arrays: cells, charge, converters, shift-add, picot check, statistics, and what a suspect report leads to (R81 to R112, R162 to R171, R383). -/

namespace Sys2Proof.Machine

/-! ### Cells (R81 to R84, R103, R171) -/

/-- The a digit of a slice sum: the nearest integer to s/15, which is never a tie (R103). -/
def picotA (s : Int) : Int := (2 * s + 15) / 30

/-- The b digit of a slice sum (R103). -/
def picotB (s : Int) : Int := s - 15 * picotA s

/-- A weight of the calibration pattern, uniform from -7 to +7 (R171; free value, log 5). -/
def patternWeight (p row col : Nat) : Int := (Config.patternDraw (gridRow p) (gridCol p) row col % 15 : Nat) - 7

/-- The cell value of the calibration pattern at a row and column, picot digits included (R171). -/
def patternCell (p row col : Nat) : Int :=
  if col < 512 then patternWeight p row col
  else
    let s := sumI ((List.range 16).map fun i => patternWeight p row (16 * ((col - 512) / 2) + i))
    if col % 2 = 0 then picotA s else picotB s

/-- The non-zero cells of a tile's column: row and cell value; a W3 weight v is stored as 2v, picot digits as they are (R83, R103). -/
def tileColumn (h : Held) (col : Nat) : List (Nat × Int) :=
  if col < 512 then h.tile.weights.filterMap fun w => if w.2.1 = col then some (w.1, if h.w3 then 2 * w.2.2 else w.2.2) else none
  else h.tile.picots.filterMap fun w => if w.2.1 = col then some (w.1, w.2.2) else none

/-- The cells of a column of a physical array. -/
def columnCells (s : State) (p col : Nat) : List (Nat × Int) :=
  match (s.phys p).cells with
  | none => (List.range 1024).map fun r => (r, patternCell p r col)
  | some h => tileColumn h col

/-- The gain tap G of a physical array (R90, R158). -/
def gainOf (s : State) (p : Nat) : Nat :=
  match (s.phys p).cells with
  | none => 2 ^ (1 + Config.patternGain (gridRow p) (gridCol p) % 6)
  | some h => h.gain

/-- Whether range retry is on (R92): the layer's setting; the calibration pattern belongs to no layer, and its setting is a free value (log 5). -/
def retryOf (s : State) (p : Nat) : Bool :=
  match (s.phys p).cells with
  | none => decide (Config.patternGain (gridRow p) (gridCol p) / 6 % 2 = 1)
  | some h => h.retry

/-- The column sum S of a column (R85). -/
def columnSum (cells : List (Nat × Int)) : Int := sumI (cells.map (·.2))

/-- The column square Q of a column. -/
def columnSquare (cells : List (Nat × Int)) : Nat := (sumI (cells.map fun c => c.2 * c.2)).toNat

/-! ### One vector (R85 to R106) -/

/-- The weight of plane k of a B-bit vector (R86). -/
def planeWeight (b k : Nat) : Int := if k + 1 < b then (2 ^ k : Nat) else -(2 ^ (b - 1) : Nat)

/-- The sum of the squares of the plane weights. -/
def planeSquares (b : Nat) : Nat := ((List.range b).map fun k => 4 ^ k).sum

/-- Bit k of element i of a vector of B-bit elements. -/
def elemBit (elems : List Int) (b i k : Nat) : Bool := bit (unsigned b (elems.getD i 0)) k

/-- The charge of a column under balanced drive (R85): +c for a row whose bit is 1, -c for a row whose bit is 0. -/
def charge (cells : List (Nat × Int)) (drive : Nat → Bool) : Int := sumI (cells.map fun c => if drive c.1 then c.2 else -c.2)

/-- Where fine step k begins within its group of 16 codes, in 1/64 LSB: the taps before it delay by nominal × (1 + (tap - 16)/64) each (R154). -/
def tapEdge (taps : Tab Nat) (k : Nat) : Nat := ((List.range k).map fun i => 48 + Tab.get 16 taps i).sum

/-- The low 4 bits of m + 128 for a charge `r` above the start of its group, with `u` to the LSB: the last fine step that begins at or below it (R154; log 41). -/
def fineStep (taps : Tab Nat) (u r : Nat) : Nat :=
  ((List.range 15).filter fun k => decide (tapEdge taps (k + 1) * u ≤ 64 * r)).length

/-- A converter with `u` to the LSB on a trimmed charge in the same unit, with its tap trims: code and OVR (R91, R154). -/
def quantise (taps : Tab Nat) (u : Nat) (y : Int) : Int × Bool :=
  if 255 * (u : Int) ≤ 2 * y then (127, true)
  else if 2 * y < -257 * (u : Int) then (-128, true)
  else
    -- twice the charge above the lowest code's lower edge; a group of 16 codes is 32 u of it
    let x := (2 * y + 257 * (u : Int)).toNat
    ((16 * (x / (32 * u)) + fineStep taps (2 * u) (x % (32 * u)) : Nat) - 128, false)

/-- A charge in 1/256 weight-unit with a column's offset and threshold trims applied, in 1/51,200 weight-unit (R153). -/
def trimmed (c : CoefSet) (g col : Nat) (y256 : Int) : Int :=
  (y256 - 16 * Tab.get 0 c.offsets col * (g : Int)) * ((216 - Tab.get 16 c.thresholds col : Nat) : Int)

/-- One conversion: the value that enters C (16 times the code after a retry), and its flags. -/
structure Conversion where
  value : Int
  ovr : Bool
  retry : Bool
  clamped : Bool
  deriving DecidableEq, Repr

/-- A conversion of a column with range retry on or off; first and second charge as sensed, before the column's trims (R91 to R93, R153, R154). -/
def convert (c : CoefSet) (g col : Nat) (retry : Bool) (y256 y256' : Int) : Conversion :=
  let a := quantise c.taps (51200 * g) (trimmed c g col y256)
  if a.2 && retry then
    let b := quantise c.taps (51200 * (16 * g)) (trimmed c g col y256')
    { value := 16 * b.1, ovr := true, retry := true, clamped := b.2 }
  else { value := a.1, ovr := a.2, retry := false, clamped := a.2 }

/-- The conversions of the 576 columns in one plane; the analog error of each is a free value (R149, log 4). -/
def planeConvs (c : CoefSet) (columns : List (List (Nat × Int))) (g : Nat) (retry : Bool) (drive : Nat → Bool) (draw plane : Nat) : List Conversion :=
  columns.mapIdx fun col cells =>
    let y := 256 * charge cells drive
    convert c g col retry (y + Config.analogError draw col plane) (y + Config.analogError draw col (plane + 16))

/-- Saturation to signed 18 bits. -/
def sat18 (x : Int) : Int := clampI (-131072) 131071 x

/-- The shift-add of one column over its planes: the sum, and whether it clamped at any plane (R101). -/
def shiftAdd (vals : List (Int × Int)) : Int × Bool :=
  vals.foldl (fun acc v => let x := acc.1 + v.1 * v.2; (sat18 x, acc.2 || decide (sat18 x ≠ x))) (0, false)

/-- The code of a column in a plane, or no conversion. -/
def convAt (convs : List Conversion) (col : Nat) : Conversion := convs.getD col { value := 0, ovr := false, retry := false, clamped := false }

/-- d of a slice in a plane (R104). -/
def sliceD (convs : List Conversion) (j : Nat) : Int :=
  15 * (convAt convs (512 + 2 * j)).value + (convAt convs (513 + 2 * j)).value
    - sumI ((List.range 16).map fun i => (convAt convs (16 * j + i)).value)

/-- r of a slice in a plane: retried codes, that of the a column counted 15 times (R104). -/
def sliceR (convs : List Conversion) (j : Nat) : Nat :=
  15 * b2n (convAt convs (512 + 2 * j)).retry + b2n (convAt convs (513 + 2 * j)).retry
    + ((List.range 16).map fun i => b2n (convAt convs (16 * j + i)).retry).sum

/-- Whether a slice-plane check is skipped: one of its 18 codes is clamped (R105). -/
def sliceSkip (convs : List Conversion) (j : Nat) : Bool :=
  (convAt convs (512 + 2 * j)).clamped || (convAt convs (513 + 2 * j)).clamped
    || (List.range 16).any fun i => (convAt convs (16 * j + i)).clamped

/-- Whether a slice-plane check fails (R104). -/
def sliceFails (tau : Nat) (convs : List Conversion) (j : Nat) : Bool :=
  !sliceSkip convs j && decide (((16 * tau + 8 * sliceR convs j : Nat) : Int) < (sliceD convs j).natAbs)

/-- Retried codes of a slice. -/
def sliceRetries (convs : List Conversion) (j : Nat) : Nat :=
  b2n (convAt convs (512 + 2 * j)).retry + b2n (convAt convs (513 + 2 * j)).retry
    + ((List.range 16).map fun i => b2n (convAt convs (16 * j + i)).retry).sum

/-- The first failed slice-plane check of a vector: plane, slice, d, retried codes. -/
def firstFail (tau : Nat) (planes : List (List Conversion)) : Option (Nat × Nat × Int × Nat) :=
  (List.range planes.length).findSome? fun k =>
    let convs := planes.getD k []
    ((List.range 32).find? (sliceFails tau convs)).map fun j => (k, j, sliceD convs j, sliceRetries convs j)

/-- Whether all elements of a vector are 0 (R108). -/
def zeroVector (v : LiveVector) : Bool := v.elems.all fun x => x = 0

/-- The output of a zero vector (R108): C is 0, Z is set, no check is made, and it is clean at once. -/
def zeroOut (v : LiveVector) (epoch : BitVec 32) : ArrayOut :=
  { vec := v, sums := [], ovrFirst := 0, ovrClamped := 0, nsat := 0, retries := 0, planes := 0, skip := false, skips := 0, clampedCols := [], zero := true,
    fail := none, codes := [], epoch := epoch, reported := true, taken := false }

/-- The planes of a vector on a physical array. -/
def evalPlanes (s : State) (p : Nat) (elems : List Int) (b : Nat) (draw : Nat) : List (List Conversion) :=
  let columns := (List.range 576).map (columnCells s p)
  (List.range b).map fun k => planeConvs (s.phys p).coef columns (gainOf s p) (retryOf s p) (fun i => elemBit elems b i k) draw k

/-- The column code sums of the 512 weight columns, with whether each clamped (R101). -/
def codeSums (b : Nat) (planes : List (List Conversion)) : List (Int × Bool) :=
  (List.range 512).map fun col => shiftAdd (planes.mapIdx fun k convs => (planeWeight b k, (convAt convs col).value))

/-- The output of a vector from its planes (R101, R102, R104, R105). -/
def outOf (v : LiveVector) (tau : Nat) (epoch : BitVec 32) (planes : List (List Conversion)) : ArrayOut :=
  let sums := codeSums v.bits planes
  let skips := (planes.map fun convs => ((List.range 32).filter (sliceSkip convs)).length).sum
  { vec := v
    sums := (sums.mapIdx fun j x => (j, x.1)).foldl (fun t e => Tab.put 0 t e.1 e.2) []
    ovrFirst := (planes.map fun convs => (convs.filter (·.ovr)).length).sum
    ovrClamped := (planes.map fun convs => (convs.filter (·.clamped)).length).sum
    nsat := (sums.filter (·.2)).length
    retries := (planes.filter fun convs => convs.any (·.retry)).length
    planes := v.bits
    skip := decide (0 < skips)
    skips := skips
    clampedCols := (List.range 512).filter fun j => planes.any fun convs => (convAt convs j).clamped
    zero := false
    fail := firstFail tau planes
    codes := (planes.mapIdx fun k convs => (k, convs)).filterMap fun e =>
      if e.2.any (·.retry) then none else some (e.1, e.2.map fun c => if c.clamped then none else some c.value)
    epoch := epoch, reported := false, taken := false }

/-- The array-cycles a vector's evaluation takes: 4 per plane and 2 per retried plane (R97, R98); none for a zero vector. -/
def evalCycles (o : ArrayOut) : Nat := if o.zero then 0 else 4 * o.planes + 2 * o.retries

/-! ### Duty (R112) -/

/-- Evaluation cycles that a duty window of 10 µs allows: P_A/1,820 of 32,768 arrays at 850 MHz. -/
def dutyLimit (s : State) : Nat := s.arrays.share * (32768 * 8500) / 1820

/-- What an array makes of a vector now (R96 to R105, R108). -/
def State.evalVector (s : State) (p : Nat) (v : LiveVector) (tau : Nat) : ArrayOut :=
  if zeroVector v then zeroOut v (s.phys p).epoch else outOf v tau (s.phys p).epoch (evalPlanes s p v.elems v.bits s.draws)

/-- Whether the duty window has room for a vector's evaluation, its retried planes included (R98, R112). -/
def dutyRoom (s : State) (o : ArrayOut) : Bool := decide (s.arrays.dutyUsed + evalCycles o ≤ dutyLimit s)

/-- The multiply-accumulates of a vector's evaluation: none for a zero vector (R111). -/
def macsOf (o : ArrayOut) : Nat := if o.zero then 0 else 1024 * 512

/-- The arrays with a vector's evaluation counted (R111, R112). -/
def Arrays.spend (a : Arrays) (o : ArrayOut) : Arrays := { a with dutyUsed := a.dutyUsed + evalCycles o, macs := a.macs + macsOf o }

/-! ### Statistics (R162 to R166) -/

/-- Statistics with the codes of one plane added: the codes given are those of 576 columns, clamped ones absent. -/
def Stats.addPlane (st : Stats) (codes : List (Option Int)) (ones : Nat) : Stats :=
  let cols := codes.mapIdx fun j c => (j, c)
  let s1 := cols.foldl (fun (st : Stats) e => match e.2 with
    | none => st
    | some c => { st with
        count := Tab.upd 0 st.count e.1 (· + 1)
        sum := Tab.upd 0 st.sum e.1 (· + c)
        sumSq := Tab.upd 0 st.sumSq e.1 (· + (c * c).toNat)
        colOnes := Tab.upd 0 st.colOnes e.1 (· + ones)
        hist := Tab.upd 0 st.hist (c + 128).toNat (· + 1) }) st
  let s2 := (List.range 32).foldl (fun (st : Stats) j =>
    let ixs := (512 + 2 * j) :: (513 + 2 * j) :: (List.range 16).map (16 * j + ·)
    if ixs.all fun i => (codes.getD i none).isSome then
      let code := fun i => (codes.getD i none).getD 0
      let d := 15 * code (512 + 2 * j) + code (513 + 2 * j) - sumI ((List.range 16).map fun i => code (16 * j + i))
      { st with dSum := Tab.upd 0 st.dSum j (· + d), dSq := Tab.upd 0 st.dSq j (· + (d * d).toNat), dCount := Tab.upd 0 st.dCount j (· + 1) }
    else st) s1
  { s2 with ones := s2.ones + ones, drives := s2.drives + 1024 }

/-- The 1 bits that plane k of a vector drives. -/
def planeOnes (elems : List Int) (b k : Nat) : Nat := ((List.range 1024).filter fun i => elemBit elems b i k).length

/-- Statistics with a clean vector counted (R166): its planes without a retry. -/
def Stats.addOut (st : Stats) (o : ArrayOut) : Stats :=
  o.codes.foldl (fun st e => st.addPlane e.2 (planeOnes o.vec.elems o.vec.bits e.1)) st

/-- A set brought into force (R158, R167, R176). -/
def PhysArray.commit (p : PhysArray) (c : CoefSet) (g now : Nat) : PhysArray :=
  { p with coef := c, epoch := p.epoch + 1, commitTime := now, gainTap := g, auditRms := 0xFFFF, vectors := 0, stats := Stats.init, windowStart := now,
           topUp := false, shadow := none, shadowHost := false }

/-! ### Suspects and refreshes due (R187, R383, R384) -/

/-- Makes an array due for refresh with a priority; a higher priority (lower number) already given stays (R187). -/
def markDue (a : ArrayState) (priority now : Nat) : ArrayState :=
  { a with due := match a.due with
      | some (p, t) => if priority < p then some (priority, now) else some (p, t)
      | none => some (priority, now) }

/-- What a suspect report makes of its array (R383, R384): the first forces an audit of the chain; a second from a different step
within 10 s makes it due for refresh with priority 1; one within 24 h after such a refresh meets retirement condition 2. -/
def suspectRules (a : ArrayState) (seq step now : Nat) : ArrayState :=
  let again := match a.lastSuspect with
    | some (t, q, n) => decide (now ≤ t + 10000000000 ∧ (q, n) ≠ (seq, step))
    | none => false
  let late := match a.suspectRefresh with | some t => decide (now ≤ t + 86400000000000) | none => false
  let b := { a with suspects := satTo 16 (a.suspects + 1), lastSuspect := some (now, seq, step),
                    retire := if late then some (a.retire.getD 2) else a.retire }
  if again then { markDue b 1 now with dueSuspect := true } else { b with forced := true }

/-- The detail of a SUSPECT record (R389). -/
def suspectDetail (f : Nat × Nat × Int × Nat) : Bytes :=
  leBytes 1 f.1 ++ leBytes 1 f.2.1 ++ leBytes 2 (unsigned 16 f.2.2.1) ++ leBytes 1 f.2.2.2

end Sys2Proof.Machine
end

