-- ==== Sys2Proof/Machine/Fp.lean ====
section
/-! DEFINITION. FP32 under R123 and R197: every operation rounds the exact result to nearest even, keeps subnormals, never makes an infinity or a NaN. -/

namespace Sys2Proof.Machine

/-- The largest finite FP32 magnitude. -/
def fpMaxBits : Nat := 0x7F7FFFFF

/-- The sign of a value. -/
def fpNeg (a : Fp32) : Bool := bit a.toNat 31

/-- The magnitude bits of a value. -/
def fpMag (a : Fp32) : Nat := a.toNat % 2 ^ 31

/-- An infinity or a NaN (received from outside; R123 maps operations on it to +0). -/
def fpBad (a : Fp32) : Bool := decide (0x7F800000 ≤ fpMag a)

/-- The integer significand of a finite value. -/
def fpSig (a : Fp32) : Nat :=
  let m := fpMag a
  if m / 2 ^ 23 = 0 then m else m % 2 ^ 23 + 2 ^ 23

/-- The exponent, plus 149, of the unit of the significand of a finite value. -/
def fpExp (a : Fp32) : Nat :=
  let e := fpMag a / 2 ^ 23
  if e = 0 then 0 else e - 1

/-- The value times 2^149, an integer for every finite value. -/
def fpInt (a : Fp32) : Int :=
  let m : Int := (fpSig a * 2 ^ fpExp a : Nat)
  if fpNeg a then -m else m

/-- Sign and magnitude bits as a value. -/
def fpOf (neg : Bool) (mag : Nat) : Fp32 := BitVec.ofNat 32 (mag + if neg then 2 ^ 31 else 0)

/-- The magnitude bits of num/den rounded to nearest even, and whether it exceeded the largest finite value (R123). -/
def roundMag (num den : Nat) : Nat × Bool :=
  if num = 0 ∨ den = 0 then (0, false) else
  -- the value times 2^149 is n/d; the unit is 2^k with k = max(0, log2(n/d) - 23)
  let n := num * 2 ^ 149
  let q0 := n / den
  let k := Nat.log2 q0 - 23
  let d := den * 2 ^ k
  let q := n / d
  let r := n % d
  let q' := if 2 * r < d then q else if 2 * r = d then (if q % 2 = 0 then q else q + 1) else q + 1
  let mag := if q0 < 2 ^ 23 then q' else k * 2 ^ 23 + q'
  if fpMaxBits < mag then (fpMaxBits, true) else (mag, false)

/-- A signed rational rounded to FP32; `neg` is the sign of a zero result. -/
def fpRound (neg : Bool) (num : Int) (den : Nat) : Fp32 :=
  let neg' := if num = 0 then neg else decide (num < 0)
  fpOf neg' (roundMag num.natAbs den).1

/-- Whether rounding the rational exceeds the largest finite value and is clamped (counted under R123). -/
def fpOver (num : Int) (den : Nat) : Bool := (roundMag num.natAbs den).2

/-- Sum. -/
def fpAdd (a b : Fp32) : Fp32 :=
  if fpBad a || fpBad b then 0
  else fpRound (fpNeg a && fpNeg b) (fpInt a + fpInt b) (2 ^ 149)

/-- Whether a sum is clamped under R123. -/
def fpAddOver (a b : Fp32) : Bool := !(fpBad a || fpBad b) && fpOver (fpInt a + fpInt b) (2 ^ 149)

/-- Difference. -/
def fpSub (a b : Fp32) : Fp32 := fpAdd a (b ^^^ 0x80000000#32)

/-- Whether a difference is clamped under R123. -/
def fpSubOver (a b : Fp32) : Bool := fpAddOver a (b ^^^ 0x80000000#32)

/-- Product. -/
def fpMul (a b : Fp32) : Fp32 :=
  if fpBad a || fpBad b then 0
  else fpRound (fpNeg a != fpNeg b) (fpInt a * fpInt b) (2 ^ 298)

/-- Whether a product is clamped under R123. -/
def fpMulOver (a b : Fp32) : Bool := !(fpBad a || fpBad b) && fpOver (fpInt a * fpInt b) (2 ^ 298)

/-- A result of a pipeline from its exact value's sign: what falls below the smallest subnormal is +0 (R197). -/
def pipeZero (exact : Bool) (v : Fp32) : Fp32 := if exact = false ∧ fpMag v = 0 then 0 else v

/-- A product in an attention pipeline or a merge (R197). -/
def fpMulPipe (a b : Fp32) : Fp32 := pipeZero (decide (fpInt a * fpInt b = 0)) (fpMul a b)

/-- Quotient; 0/0 and a quotient by zero have no defined result and return +0 (R123). -/
def fpDiv (a b : Fp32) : Fp32 :=
  if fpBad a || fpBad b || fpInt b = 0 then 0
  else fpRound (fpNeg a != fpNeg b) (if fpInt b < 0 then -fpInt a else fpInt a) (fpInt b).natAbs

/-- A product with 2^e; exact unless the result leaves the normal range. -/
def fpScale (a : Fp32) (e : Int) : Fp32 :=
  if fpBad a then 0
  else if 0 ≤ e then fpRound (fpNeg a) (fpInt a * (2 ^ e.toNat : Nat)) (2 ^ 149)
  else fpRound (fpNeg a) (fpInt a) (2 ^ (149 + (-e).toNat))

/-- A product with 2^e in an attention pipeline (R197). -/
def fpScalePipe (a : Fp32) (e : Int) : Fp32 := pipeZero (decide (fpInt a = 0)) (fpScale a e)

/-- Whether a quotient is clamped under R123. -/
def fpDivOver (a b : Fp32) : Bool := !(fpBad a || fpBad b) && fpOver (fpInt a) (fpInt b).natAbs

/-- Whether the scaling is clamped under R123. -/
def fpScaleOver (a : Fp32) (e : Int) : Bool :=
  !fpBad a && (if 0 ≤ e then fpOver (fpInt a * (2 ^ e.toNat : Nat)) (2 ^ 149) else false)

/-- An integer rounded to FP32. -/
def fpOfInt (i : Int) : Fp32 := fpRound false i 1

/-- Strict order of finite values. -/
def fpLt (a b : Fp32) : Bool := decide (fpInt a < fpInt b)

/-- The larger of two values (the first on a tie). -/
def fpMax (a b : Fp32) : Fp32 := if fpLt a b then b else a

/-- BF16 widened by 16 zero bits (R123). -/
def fpOfBf16 (h : Nat) : Fp32 := BitVec.ofNat 32 (h * 65536)

/-- 1/√x rounded from its exact result; the reciprocal square root of 0 returns +0 (R123, R474). -/
def fpRsqrt (a : Fp32) : Fp32 :=
  if fpBad a || decide (fpInt a ≤ 0) then 0
  else
    -- 1/√(i/2^149) = √(2^149/i), taken to 2^-400 with a sticky bit below
    let i := (fpInt a).natAbs
    let r2 := 2 ^ (149 + 800) / i
    let r := Nat.sqrt r2
    if r * r * i = 2 ^ 949 then fpRound false (r : Nat) (2 ^ 400)
    else fpRound false (2 * r + 1 : Nat) (2 ^ 401)

/-- Terms of the series of e^-x for x in fixed point of `p` bits, x below 1: sum of (-x)^n/n!. -/
def expSeries (p : Nat) (x : Nat) : Nat → Nat → Int → Int → Int
  | 0, _, _, acc => acc
  | f + 1, n, term, acc =>
    let t := (-(term * x)) / ((2 ^ p * n : Nat) : Int)
    expSeries p x f (n + 1) t (acc + t)

/-- Squaring a fixed-point value `k` times. -/
def squarings (p : Nat) : Nat → Nat → Nat
  | 0, v => v
  | k + 1, v => squarings p k (v * v / 2 ^ p)

/-- e^x for x ≤ 0 rounded from the exact result to nearest even (R42, R197): 512-bit fixed point, x divided by 2^8 and the result squared 8 times. -/
def fpExpNeg (a : Fp32) : Fp32 :=
  if fpBad a || decide (0 < fpInt a) then 0
  else if fpInt a = 0 then 0x3F800000#32
  else
    let mag := (fpInt a).natAbs
    -- below e^-104 the result is under half of the smallest subnormal
    if 104 * 2 ^ 149 < mag then 0
    else
      let p := 512
      let x := mag * 2 ^ (p - 149 - 8)
      let e := expSeries p x 80 1 (2 ^ p : Nat) (2 ^ p : Nat)
      fpRound false ((squarings p 8 e.toNat : Nat) : Int) (2 ^ p)

end Sys2Proof.Machine
end

