-- ==== Sys2Proof/Machine/Numerics.lean ====
section
/-! DEFINITION. Rotation, requantisation and block formats (R119 to R131, R474). -/

namespace Sys2Proof.Machine

/-! ### Block formats (R120 to R122) -/

/-- Element width of a format: 0 I2B, 1 I3B, 2 I4B, 3 I8B. -/
def formatBits (f : Nat) : Nat := if f = 0 then 2 else if f = 1 then 3 else if f = 2 then 4 else 8

/-- The element field of a block of 32 B-bit elements (R121). -/
def blockField (b : Nat) (elems : List Int) : Bytes :=
  leBytes (4 * b) ((elems.mapIdx fun i e => unsigned b e * 2 ^ (b * i)).sum)

/-- The 32 elements of an element field (R121). -/
def blockElems (b : Nat) (f : Bytes) : List Int := (List.range 32).map fun i => signed b (ofLE f / 2 ^ (b * i) % 2 ^ b)

/-- The value of element x of a block with scale byte E, as FP32 (R120); a block with E = 255 reads as zero. -/
def blockValue (x : Int) (e : Nat) : Fp32 := if e = 255 then 0 else fpScale (fpOfInt x) ((e : Int) - 127)

/-- The elements of a vector of n blocks of 32 (R122). -/
def vectorElems (b n : Nat) (v : Bytes) : List Int := (List.range n).flatMap fun k => blockElems b ((v.drop (4 * b * k)).take (4 * b))

/-- The scale bytes of a vector of n blocks (R122). -/
def vectorScales (b n : Nat) (v : Bytes) : List Nat := (List.range n).map fun k => field v (4 * b * n + k) 1

/-- Whether a vector has a block with scale 255 (R120). -/
def badScale (b n : Nat) (v : Bytes) : Bool := (vectorScales b n v).any fun e => e = 255

/-- The stored vector of blocks of elements with their scales (R122). -/
def vectorBytes (b : Nat) (blocks : List (Nat × List Int)) : Bytes :=
  (blocks.flatMap fun k => blockField b k.2) ++ blocks.flatMap fun k => leBytes 1 k.1

/-! ### Requantisation (R130, R131) -/

/-- A value times 2^149; an infinity or a NaN received from anywhere counts as +0 (R123). -/
def finiteInt (v : Fp32) : Int := if fpBad v then 0 else fpInt v

/-- Whether every value lies in the range of exponent E for B-bit elements (R130). -/
def fitsExp (b e : Nat) (vs : List Int) : Bool :=
  vs.all fun v => decide (-(((2 ^ b + 1) * 2 ^ (e + 21) : Nat) : Int) ≤ v ∧ v < (((2 ^ b - 1) * 2 ^ (e + 21) : Nat) : Int))

/-- What requantisation gives: exponent, elements, zeroed elements, clamped elements. -/
structure Requant where
  exponent : Nat
  elems : List Int
  zeroed : Nat
  clamped : Nat
  deriving DecidableEq, Repr

/-- Requantisation of values to B bits with one exponent (R130). -/
def requant (b : Nat) (values : List Fp32) : Requant :=
  let vs := values.map finiteInt
  if vs.all fun v => v = 0 then { exponent := 0, elems := vs, zeroed := 0, clamped := 0 }
  else
    let e := (((List.range 254).map (· + 1)).find? fun e => fitsExp b e vs).getD 254
    let raw := vs.map fun v => roundDivEven v (2 ^ (e + 22))
    let lim := fun x => clampI (-((2 ^ (b - 1) : Nat) : Int)) ((2 ^ (b - 1) - 1 : Nat) : Int) x
    { exponent := e
      elems := raw.map lim
      zeroed := ((List.zip vs raw).filter fun p => decide (p.1 ≠ 0 ∧ p.2 = 0)).length
      clamped := (raw.filter fun x => decide (lim x ≠ x)).length }

/-- Values in blocks of 32. -/
def inBlocks (values : List Fp32) : List (List Fp32) :=
  (List.range (values.length / 32)).map fun k => (values.drop (32 * k)).take 32

/-- A row requantised with one exponent per block (R131), as stored (R122). -/
def requantRow (b : Nat) (values : List Fp32) : Bytes :=
  vectorBytes b ((inBlocks values).map fun blk => ((requant b blk).exponent, (requant b blk).elems))

/-! ### Rotation (R125, R126) -/

/-- The SHAKE256 stream of a rotation seed, `n` bytes (R126). -/
def seedStream (n seed : Nat) : Bytes := shake256 n (leBytes 8 seed ++ zeros 8)

/-- Sign flip j of a seed's stream. -/
def signBit (stream : Bytes) (j : Nat) : Bool := (stream.getD (j / 8) 0).getLsbD (j % 8)

/-- One butterfly stage of stride h. -/
def butterfly (h : Nat) (v : List Fp32) : List Fp32 :=
  v.mapIdx fun i x => if i / h % 2 = 0 then fpAdd x (v.getD (i + h) 0) else fpSub (v.getD (i - h) 0) x

/-- How many results of a butterfly stage are clamped (R123). -/
def butterflyOver (h : Nat) (v : List Fp32) : Nat :=
  (v.mapIdx fun i x => b2n (if i / h % 2 = 0 then fpAddOver x (v.getD (i + h) 0) else fpSubOver (v.getD (i - h) 0) x)).sum

/-- The strides of the transform of 2^m elements; their order is a free value (log 19). -/
def strides (m : Nat) : List Nat :=
  let rise := (List.range m).map fun k => 2 ^ k
  if Config.stridesRise then rise else rise.reverse

/-- The Walsh-Hadamard transform of 2^m elements, rounding at each stage, and how many results were clamped on the way. -/
def hadamardCount (m : Nat) (v : List Fp32) : List Fp32 × Nat :=
  (strides m).foldl (fun x h => (butterfly h x.1, x.2 + butterflyOver h x.1)) (v, 0)

/-- The Walsh-Hadamard transform of 2^m elements, rounding at each stage (R125). -/
def hadamard (m : Nat) (v : List Fp32) : List Fp32 := (hadamardCount m v).1

/-- Values with the signs of a stream from bit `base` on. -/
def applySigns (stream : Bytes) (base : Nat) (v : List Fp32) : List Fp32 :=
  v.mapIdx fun i x => if signBit stream (base + i) then x ^^^ 0x80000000#32 else x

/-- The 1,024-point rotation of segment k of a wider vector (R125, R126). -/
def rotateSegment (seed k : Nat) (v : List Fp32) : List Fp32 :=
  (hadamard 10 (applySigns (seedStream (128 * (k + 1)) seed) (1024 * k) v)).map fun x => fpScale x (-5)

/-- The 128-point head rotation with the signs of KV head g (R125, R126). -/
def rotateHead (seed g : Nat) (v : List Fp32) : List Fp32 :=
  (hadamard 7 (applySigns (seedStream (16 * (g + 1)) seed) (128 * g) v)).map fun x => fpMul x 0x3DB504F3#32

/-- Clamped results in the rotation of segment k (R123, R138). -/
def segmentOver (seed k : Nat) (v : List Fp32) : Nat := (hadamardCount 10 (applySigns (seedStream (128 * (k + 1)) seed) (1024 * k) v)).2

/-- Clamped results in a head rotation (R123). -/
def headOver (seed g : Nat) (v : List Fp32) : Nat := (hadamardCount 7 (applySigns (seedStream (16 * (g + 1)) seed) (128 * g) v)).2

/-- Segment k of a wide vector. -/
def segment {α : Type} (k : Nat) (v : List α) : List α := (v.drop (1024 * k)).take 1024

/-- A matrix input rotated segment by segment, each with its seed. -/
def rotateAll (seeds : List Nat) (values : List Fp32) : List Fp32 :=
  (seeds.mapIdx fun k seed => rotateSegment seed k (segment k values)).flatten

/-- Clamped results in the rotation of a matrix input. -/
def rotateAllOver (seeds : List Nat) (values : List Fp32) : Nat := (seeds.mapIdx fun k seed => segmentOver seed k (segment k values)).sum

/-- What requantising blocks counts: elements, elements zeroed, results clamped (R131, R138, R139). -/
structure Quant where
  elements : Nat
  zeroed : Nat
  clamped : Nat
  deriving DecidableEq, Repr

/-- Counts of two requantisations together. -/
def Quant.add (a b : Quant) : Quant := { elements := a.elements + b.elements, zeroed := a.zeroed + b.zeroed, clamped := a.clamped + b.clamped }

/-- Counts of several requantisations together. -/
def Quant.sum (l : List Quant) : Quant := l.foldr Quant.add { elements := 0, zeroed := 0, clamped := 0 }

/-- What the requantisation of a block counts. -/
def Requant.counts (r : Requant) : Quant := { elements := r.elems.length, zeroed := r.zeroed, clamped := r.clamped }

/-- A head vector rotated with the signs of KV head g and requantised with one exponent per block of 32: elements, exponents, and what is counted (R127, R131). -/
def quantHead (b seed g : Nat) (v : List Fp32) : List Int × List Nat × Quant :=
  let blocks := (inBlocks (rotateHead seed g v)).map (requant b)
  (blocks.flatMap (·.elems), blocks.map (·.exponent),
   (Quant.sum (blocks.map (·.counts))).add { elements := 0, zeroed := 0, clamped := headOver seed g v })

/-- What the requantisation of a row to B bits counts: elements, zeroed ones, and those clamped under the third case of R130 (R131, R138). -/
def rowQuant (b : Nat) (values : List Fp32) : Quant := Quant.sum ((inBlocks values).map fun blk => (requant b blk).counts)

/-- The FP32 values of a stored vector of n blocks; a block with scale 255 reads as zero (R120). -/
def storedValues (b n : Nat) (v : Bytes) : List Fp32 :=
  (List.range n).flatMap fun k => (blockElems b ((v.drop (4 * b * k)).take (4 * b))).map fun x => blockValue x (field v (4 * b * n + k) 1)

/-! ### Final norm (R474) -/

/-- The sum of squares in ascending order. -/
def sumSquares (x : List Fp32) : Fp32 := x.foldl (fun s v => fpAdd s (fpMul v v)) 0

/-- The final norm of a row with gain g (R474). -/
def finalNorm (x g : List Fp32) : List Fp32 :=
  let r := fpRsqrt (fpAdd (fpDiv (sumSquares x) (fpOfInt x.length)) 0x35800000#32)
  x.mapIdx fun i v => fpMul (fpMul v r) (g.getD i 0)

/-- Clamped results in a final norm (R123). -/
def finalNormOver (x g : List Fp32) : Nat :=
  let squares := (x.map fun v => b2n (fpMulOver v v)).sum
  let sums := (x.foldl (fun (a : Fp32 × Nat) v => (fpAdd a.1 (fpMul v v), a.2 + b2n (fpAddOver a.1 (fpMul v v)))) (0, 0)).2
  let s := fpDiv (sumSquares x) (fpOfInt x.length)
  let r := fpRsqrt (fpAdd s 0x35800000#32)
  squares + sums + b2n (fpAddOver s 0x35800000#32) +
    (x.mapIdx fun i v => b2n (fpMulOver v r) + b2n (fpMulOver (fpMul v r) (g.getD i 0))).sum

/-- BF16 values from offset `off` of a vector section. -/
def bf16At (v : Bytes) (off n : Nat) : List Fp32 := (List.range n).map fun i => fpOfBf16 (field v (off + 2 * i) 2)

/-- Where the embedding table of a head's vector section begins: it is the last part of the section (R273). -/
def embeddingOffset (p : Pricking) (sh : Shard) : Nat := sh.vectors.length - 2 * p.vocabSize * p.width

/-- Where the final norm gain of a tail's vector section begins: before the embedding table when the tail is also the head (R273). -/
def finalGainOffset (p : Pricking) (sh : Shard) : Nat :=
  (if p.head = p.tail then embeddingOffset p sh else sh.vectors.length) - 2 * p.width

/-- The embedding row of a token in FP32 (R235, R273). -/
def embeddingRow (p : Pricking) (sh : Shard) (token : Nat) : List Fp32 :=
  bf16At sh.vectors (embeddingOffset p sh + 2 * p.width * token) p.width

end Sys2Proof.Machine
end

