-- ==== Sys2Proof/Machine/Datapath.lean ====
section
/-! DEFINITION. The data path of a layer: rotation sets, arrays, chains, tambour, wide accumulators, matrix outputs, precision windows (R96 to R148, R168 to R170). -/

namespace Sys2Proof.Machine

/-! ### Layer precision (R138 to R146) -/

/-- The index of a layer's records (R388). -/
def layerKey (motif layer : Nat) : Nat := motif * 4096 + layer

/-- A layer's precision record in its base format with empty counters (R146). -/
def LayerPrec.fresh (base : Nat) : LayerPrec :=
  { format := base, elements := 0, zeroed := 0, outputs := 0, nsat := 0, conversions := 0, ovr := 0, positions := 0, rElements := 0,
    rZeroed := 0, rOutputs := 0, rNsat := 0, rConversions := 0, rOvr := 0, fallbacks := 0, quiet := 0, windows := 0, rows := 0,
    voidRows := 0, shadowPages := 0 }

/-- The index of a copy's layer records: each generation of a motif has its own (R146). -/
def precKey (motif gen layer : Nat) : Nat := gen % 65536 * 65536 + layerKey motif layer

/-- The base format of a layer in a generation of a motif, I2B where it is not known. -/
def State.baseFormat (s : State) (motif gen layer : Nat) : Nat :=
  match ((s.motif motif).prickFor gen).bind fun p => layerOf p layer with
  | some r => r.baseFormat
  | none => 0

/-- The precision record of a layer in a generation of a motif. -/
def State.prec (s : State) (motif gen layer : Nat) : LayerPrec :=
  match s.motifs.layers.find? fun e => e.1 = precKey motif gen layer with
  | some e => e.2
  | none => LayerPrec.fresh (s.baseFormat motif gen layer)

/-- Changes the precision record of a layer. -/
def State.setPrec (s : State) (motif gen layer : Nat) (f : LayerPrec → LayerPrec) : State :=
  { s with motifs := { s.motifs with layers :=
      (precKey motif gen layer, f (s.prec motif gen layer)) :: s.motifs.layers.filter fun e => e.1 ≠ precKey motif gen layer } }

/-- Changes the record of the layer a tag names. -/
def State.setPrecT (s : State) (t : StepTag) (f : LayerPrec → LayerPrec) : State := s.setPrec t.motif t.gen t.layer f

/-- Counts results clamped under R123 in the layer's narrow saturation (R138). -/
def State.countClamps (s : State) (t : StepTag) (n : Nat) : State := if n = 0 then s else s.setPrecT t fun p => { p with nsat := p.nsat + n }

/-- Counts the requantisation of residuals, queries, keys or values in the layer's window: elements, zeroed elements, clamped results (R131, R138, R139; log 86). -/
def State.countQuant (s : State) (t : StepTag) (q : Quant) : State :=
  if q.elements = 0 then s
  else s.setPrecT t fun p => { p with elements := p.elements + q.elements, zeroed := p.zeroed + q.zeroed, nsat := p.nsat + q.clamped }

/-- Latches the step's format of a layer at its first position; a format already latched stays (R145). -/
def State.latchFormat (s : State) (t : StepTag) : State :=
  match s.stepOf t with
  | none => s
  | some r =>
    if r.formats.any fun e => e.1 = t.layer then s
    else
      let f := (s.prec t.motif t.gen t.layer).format
      s.setStep t fun r => { r with formats := (t.layer, f) :: r.formats, slow := if f = 3 then r.slow ||| slowBit slowPrecision else r.slow }

/-- The format of a step's layer. -/
def State.formatOf (s : State) (t : StepTag) : Nat :=
  match (s.stepOf t).bind fun r => r.formats.find? fun e => e.1 = t.layer with
  | some e => e.2
  | none => (s.prec t.motif t.gen t.layer).format

/-- Whether a datum of a layer of this module may be worked on: the step is known and in flight, and no recall supersedes it. -/
def State.usable (s : State) (t : StepTag) : Bool :=
  match s.stepOf t with
  | some r => !r.ended && !s.start.safe && decide (floorAt r t.layer = t.lineage) && decide (¬ (r.noReplay.getD 0x10000 ≤ t.layer))
  | none => false

/-- Notes the throttles in force while a step runs here (R73, R413); `waited` when one of its vectors waits for the duty window. -/
def State.noteThrottle (s : State) (t : StepTag) (waited : Bool) : State :=
  let hot := decide (0 < s.thermal.level ∨ 0 < s.brokenFloor)
  let power := decide (0 < s.thermal.powerLevel) || (waited && decide (s.arrays.share < 400))
  s.setStep t fun r => { r with slow := r.slow ||| (if hot then slowBit slowThermal else 0) ||| (if power then slowBit slowPower else 0) }

/-! ### Digital units and the selection of duplicate audits (R365, R368, R380, R385) -/

/-- The unit of a kind that does a piece of work: the one in place `n`, or, where that one is in its margin window or retired, the next of the kind that serves
(R380, R385; log 36). -/
def State.unitAt (s : State) (kind n : Nat) : Option Nat :=
  let k := kindIslands kind
  ((List.range k.2).map fun i => k.1 + (n + i) % k.2).find? fun i => decide ((s.island i).state = 0)

/-- The work of a unit for a step's attempt noted in an audit of it: a further layer; of a pipeline's work units each is chosen with the same probability. -/
def UnitAudit.note (a : UnitAudit) (t : StepTag) (island : Nat) (work : Nat × Nat) (d : Nat) : UnitAudit :=
  if a.island ≠ island ∨ { a.tag with layer := t.layer } ≠ t then a
  else if (islandKind island).1 ≠ kAttention then { a with layers := if a.layers.contains t.layer then a.layers else t.layer :: a.layers }
  else if d % (a.seen + 1) = 0 then { a with layers := [t.layer], work := work, seen := a.seen + 1 }
  else { a with seen := a.seen + 1 }

/-- A unit serves a step's attempt: with its first work there it is selected for a duplicate audit with probability 1/N (R365). -/
def State.unitServes (s : State) (t : StepTag) (island : Nat) (work : Nat × Nat) : State :=
  match s.stepOf t with
  | none => s
  | some r =>
    if r.unitsDrawn.contains (island, t.lineage) then
      { s with draws := s.draws + 1, data := { s.data with unitAudits := s.data.unitAudits.map fun a => a.note t island work s.draw.1 } }
    else
      let s1 := s.draw.2.setStep t fun r => { r with unitsDrawn := (island, t.lineage) :: r.unitsDrawn }
      if s.draw.1 % 2 ^ r.auditLog2 = 0 then
        { s1 with data := { s1.data with unitAudits := { tag := t, island := island, layers := [t.layer], work := work, seen := 1 } :: s1.data.unitAudits } }
      else s1

/-- The unit of a kind in a place, if one serves, serves a step's attempt. -/
def State.workAt (s : State) (t : StepTag) (kind place : Nat) : State :=
  match s.unitAt kind place with
  | some i => s.unitServes t i (0, 0)
  | none => s

/-! ### Rotation (R129) -/

/-- The matrix of the output projection: the highest matrix number of the motif's last layer (R474). -/
def State.outputMatrix (s : State) (t : StepTag) : Option Nat :=
  match s.prickT t, (s.motif t.motif).shardFor t.gen with
  | some p, some sh =>
    if t.layer + 1 = p.layers.length then
      ((sh.tiles.filter fun x => x.layer = t.layer).map (·.matrix)).max?
    else none
  | _, _ => none

/-- The retained output row of the layer a tag names, as stored (R239). -/
def State.outputRow (s : State) (t : StepTag) (row : Nat) : Option Bytes :=
  (s.stepOf t).bind fun r => (r.outputs.find? fun x =>
    decide (x.layer = t.layer ∧ x.lineage = t.lineage ∧ x.first ≤ row ∧ row < x.first + x.rows.length)).bind fun x => x.rows[row - x.first]?

/-- What a rotation set takes for a row of a matrix, with the results clamped in forming it: the values given; for the output projection the final
norm of the last layer's output row as it is retained, which the values must be (R474; DEDUCED, log 78). -/
def State.matrixInput (s : State) (t : StepTag) (matrix row : Nat) (values : List Fp32) : Option (List Fp32 × Nat) :=
  match s.prickT t, (s.motif t.motif).shardFor t.gen with
  | some p, some sh =>
    if s.outputMatrix t = some matrix then
      let g := bf16At sh.vectors (finalGainOffset p sh) p.width
      match s.outputRow t row with
      | some b => if values = storedValues 8 (p.width / 32) b then some (finalNorm values g, finalNormOver values g) else none
      | none => none
    else some (values, 0)
  | _, _ => some (values, 0)

/-- The tiles of a tag's layer and a matrix, from the mirror of the step's generation. -/
def State.matrixTiles (s : State) (t : StepTag) (matrix : Nat) : List Tile :=
  match (s.motif t.motif).shardFor t.gen with
  | some sh => sh.tiles.filter fun x => decide (x.layer = t.layer ∧ x.matrix = matrix)
  | none => []

/-- Whether seeds are those the pricking gives a matrix's input segments: the input seeds of its tiles (R16, R127). -/
def State.seedsOk (s : State) (t : StepTag) (matrix : Nat) (seeds : List Nat) : Bool :=
  let named := (s.matrixTiles t matrix).map (·.inputSeed)
  seeds.all named.contains && named.all seeds.contains

/-- The matrix input formed for a row. -/
def State.rotOf (s : State) (t : StepTag) (matrix row : Nat) : Option RotOut :=
  s.data.rotated.find? fun x => decide (x.tag = t ∧ x.matrix = matrix ∧ x.row = row)

/-- Whether a vector is a segment of a matrix input with the rotation seed of a tile: its elements, its format and the one exponent (R124, R129, R141, R145);
where several segments have the tile's seed, any of them (DESIGN CHOICE, log 92). -/
def RotOut.feeds (x : RotOut) (tile : Tile) (v : LiveVector) : Bool :=
  decide (v.bits = formatBits x.format ∧ v.exponent = x.exponent) &&
    (List.range x.seeds.length).any fun k => decide (x.seeds.getD k 0 = tile.inputSeed ∧ segment k x.elems = v.elems)

/-- Whether a vector is the one that a tile is to take: the segment of its row's rotated, requantised matrix input (R124, R127). -/
def State.vectorFor (s : State) (tile : Tile) (v : LiveVector) : Bool :=
  match s.rotOf v.tag v.matrix v.row with
  | some x => x.feeds tile v
  | none => false

/-! ### Row groups (R219, R228, R233) -/

/-- The query rows received for exactly this tag, in row order of arrival. -/
def State.rowsOf (s : State) (t : StepTag) : List QueryRow := (s.attn.rows.filter fun x => x.1 = t).map (·.2)

/-- Whether a row belongs to a prefill step: its ancestor mask is 0 (R245). -/
def rowPrefill (r : QueryRow) : Bool := decide (r.ancestors = 0)

/-- The slot position a row's own key and value take (R223). -/
def rowSlot (r : QueryRow) : Nat := if rowPrefill r then r.position else r.kvLength + r.node

/-- A list cut into pieces of at most n. -/
def pieces {α : Type} (n : Nat) (l : List α) : List (List α) := (List.range ((l.length + n - 1) / n)).map fun i => (l.drop (n * i)).take n

/-- The row groups of a layer: by KV head, in ascending row order, at most 128 rows (R219). -/
def rowGroups (h : Nat) (rows : List QueryRow) : List (List QueryRow) :=
  let sorted := rows.mergeSort fun a b => decide (a.row ≤ b.row)
  (List.range h).flatMap fun g => pieces 128 (sorted.filter fun q => q.kvHead = g)

/-- Row groups per KV head of a step of `w` positions. -/
def groupsPerHead (r : LayerRec) (w : Nat) : Nat := (w * (r.qHeads / max r.kvHeads 1) + 127) / 128

/-- The number of row groups of a step's layer, once the module knows how many rows it has: its last row has come, or it knows the step's width. -/
def State.groupCount (s : State) (t : StepTag) (r : LayerRec) : Option Nat :=
  if s.attn.closed.contains t then some (rowGroups r.kvHeads (s.rowsOf t)).length
  else match s.stepOf t with
    | some c => if c.width = 0 then none else some (r.kvHeads * groupsPerHead r c.width)
    | none => none

/-- Row group i of a step's layer, once it is complete (R228). -/
def State.rowGroup (s : State) (t : StepTag) (r : LayerRec) (i : Nat) : Option (List QueryRow) :=
  if s.attn.closed.contains t then (rowGroups r.kvHeads (s.rowsOf t))[i]?
  else match s.stepOf t with
    | none => none
    | some c =>
      let per := groupsPerHead r c.width
      let rows := ((((s.rowsOf t).filter fun q => q.kvHead = i / per).mergeSort fun a b => decide (a.row ≤ b.row)).drop (128 * (i % per))).take 128
      if rows ≠ [] ∧ rows.length = min 128 (c.width * (r.qHeads / max r.kvHeads 1) - 128 * (i % per)) then some rows else none

/-- Whether a row group is complete and all its merged rows are in. -/
def State.groupMerged (s : State) (t : StepTag) (r : LayerRec) (i row : Nat) : Bool :=
  match s.rowGroup t r i with
  | some qs => qs.any (fun q => q.row = row) && qs.all fun q => s.attn.merged.any fun y => decide (y.1 = t ∧ y.2.row = q.row)
  | none => false

/-- Whether the attention results that a row of a matrix needs are in: of a matrix that follows its layer's attention, the merged rows of the row groups
that hold the row's heads (R233; which matrices do is a free value, log 17). -/
def State.attnIn (s : State) (t : StepTag) (matrix row : Nat) : Bool :=
  !Config.followsAttention t.motif t.layer matrix ||
  match s.stepOf t, s.layerT t with
  | some c, some r =>
    let mine := (s.rowsOf t).filter fun q => decide (rowSlot q + 1 = c.n + row)
    let groups := (s.groupCount t r).getD 0
    decide (mine.length = r.qHeads) && mine.all fun q => (List.range groups).any fun i => s.groupMerged t r i q.row
  | _, _ => false

/-- The attention output of a row of a step: its heads' outputs side by side, in head order, and rows of zeros up to whole segments (R82, R231). -/
def State.attnRow (s : State) (t : StepTag) (n row segments : Nat) : List Fp32 :=
  let mine := ((s.rowsOf t).filter fun q => decide (rowSlot q + 1 = n + row)).mergeSort fun a b => decide (a.qHead ≤ b.qHead)
  let heads := mine.flatMap fun q => match s.attn.outs.find? fun x => decide (x.1 = t ∧ x.2.1 = q.row) with | some x => x.2.2 | none => []
  heads ++ List.replicate (1024 * segments - heads.length) 0

/-- Whether the input of a matrix that takes the layer's attention output is that output (R127, R231; which matrix does is a free value, log 17). -/
def State.fromAttention (s : State) (t : StepTag) (matrix row : Nat) (values : List Fp32) : Bool :=
  !(Config.followsAttention t.motif t.layer matrix && Config.takesAttention t.motif t.layer matrix) ||
  match s.stepOf t with
  | some c => decide (values = s.attnRow t c.n row (values.length / 1024))
  | none => false

/-- ROTATION: the rotated input, quantised with one exponent for the whole matrix input in the step's format; zeroed elements counted (R129 to R131, R138). -/
def execRotation (tag : StepTag) (matrix row : Nat) (seeds : List Nat) (values : List Fp32) (s : State) : Result :=
  .next (match s.layerT tag with
  | none => s
  | some r =>
    match s.matrixInput tag matrix row values with
    | none => s
    | some input =>
      if !s.usable tag || !s.owns r || !s.seedsOk tag matrix seeds || decide (values.length ≠ 1024 * seeds.length) || !s.attnIn tag matrix row ||
          !s.fromAttention tag matrix row values then s
      else
        let s1 := ((s.latchFormat tag).noteThrottle tag false).workAt tag kRotation (Config.unitPlace kRotation tag.motif tag.layer matrix 0)
        let f := s1.formatOf tag
        let z := rotateAll seeds input.1
        let q := requant (formatBits f) z
        let zeroed := if f = 3 then (requant (formatBits r.baseFormat) z).zeroed else q.zeroed
        let out : RotOut := { tag := tag, matrix := matrix, row := row, format := f, exponent := q.exponent, seeds := seeds, elems := q.elems }
        { s1 with data := { s1.data with rotated := out :: s1.data.rotated.filter fun x => !decide (x.tag = tag ∧ x.matrix = matrix ∧ x.row = row) } }.setPrecT
          tag fun c => { c with elements := c.elements + q.elems.length, zeroed := c.zeroed + zeroed,
                                nsat := c.nsat + q.clamped + input.2 + rotateAllOver seeds input.1 })

/-! ### Arrays (R96, R106, R168) -/

/-- Whether the steering entries of an array's tile point to it for a step: it is SERVING with a tile of the step's generation (R289, R292), and not
flagged in the step (R114, R115, R260, R262). A DRAINING array only finishes the vectors it has latched. -/
def State.arrayServes (s : State) (array : Nat) (t : StepTag) : Bool :=
  decide ((s.array array).service = .serving) &&
  (match s.held array with | some h => decide (h.motif = t.motif ∧ h.gen = t.gen) | none => false) &&
  match s.stepOf t with
  | some r => !(r.flagged.any fun e => decide (e.2 = array)) && !allTambour r t.layer
  | none => false

/-- Whether a vector is one for the tile an array holds. -/
def tileTakes (h : Held) (v : LiveVector) : Bool :=
  decide (h.motif = v.tag.motif ∧ h.gen = v.tag.gen ∧ h.tile.layer = v.tag.layer ∧ h.tile.matrix = v.matrix ∧ v.elems.length = 1024) &&
  decide (v.bits = 2 ∨ v.bits = 3 ∨ v.bits = 4 ∨ v.bits = 8)

/-- τ for a step's vectors (R447): the setting when the step started on the module. -/
def State.tauOf (s : State) (t : StepTag) : Nat := match s.stepOf t with | some r => r.tau | none => s.cfg.cur.tau

/-! ### Which of array and tambour serves a vector (R114, R115, R134) -/

/-- The array index of a tile that no array holds (R288). -/
def noArray : Nat := 0xFFFF

/-- Whether a tile's record, as it lies in the mirror, names an array; a tile that no array holds is found by the index its record names. -/
def tileAt (array : Nat) (x : Tile) : Bool := decide (x.array = array ∨ (x.array = noArray ∧ x.named = array))

/-- The tile of a vector sent to an array's node. -/
def State.tileOf (s : State) (array : Nat) (v : LiveVector) : Option Tile := (s.matrixTiles v.tag v.matrix).find? (tileAt array)

/-- The chain of a tile's output block for the row of a vector. -/
def chainOf (x : Tile) (v : LiveVector) : ChainKey :=
  { tag := v.tag, matrix := v.matrix, outputBlock := x.outputBlock, chain := x.chain, row := v.row }

/-- Whether the chain's partial has gone past a position with the tile there left to the tambour. -/
def State.passedOver (s : State) (k : ChainKey) (position : Nat) : Bool :=
  (s.data.parts.any fun c => decide (c.key = k ∧ position ≤ c.position) && c.tambour.getLsbD position) ||
  (s.data.wide.any fun w => decide (w.tag = k.tag ∧ w.matrix = k.matrix ∧ w.outputBlock = k.outputBlock ∧ w.row = k.row) &&
    (w.awaited.contains (k.chain, position) || w.tiles.contains (k.chain, position)))

/-- Whether the tambour has the vector of a chain's tile, waiting or served. -/
def State.tambourHas (s : State) (k : ChainKey) (position : Nat) : Bool :=
  (s.data.tambourWait.any fun j => decide (j.key = k ∧ j.position = position)) ||
  (s.data.tambour.any fun x => decide (x.key = k ∧ x.position = position)) ||
  (s.data.wide.any fun w => decide (w.tag = k.tag ∧ w.matrix = k.matrix ∧ w.outputBlock = k.outputBlock ∧ w.row = k.row) && w.tiles.contains (k.chain, position))

/-- Whether an array has the vector of a chain's tile: latched, or already added by its node. -/
def State.arrayHas (s : State) (array : Nat) (k : ChainKey) (position : Nat) : Bool :=
  ((s.array array).outs.any fun o => decide (o.vec.tag = k.tag ∧ o.vec.matrix = k.matrix ∧ o.vec.row = k.row)) ||
  (s.data.parts.any fun c => decide (c.key = k ∧ position ≤ c.position) && !c.tambour.getLsbD position) ||
  (s.data.wide.any fun w => decide (w.tag = k.tag ∧ w.matrix = k.matrix ∧ w.outputBlock = k.outputBlock ∧ w.row = k.row) && w.chains.contains k.chain &&
    !(w.awaited.contains (k.chain, position) || w.tiles.contains (k.chain, position)))

/-- A READY shadow set brought into force at a batch boundary (R175); background sets not during a freeze (R182). -/
def State.commitShadow (s : State) (ph : Nat) : State :=
  let p := s.phys ph
  match p.shadow with
  | none => s
  | some c =>
    if decide (p.calState = 3) && !p.shadowHost && s.arrays.freezeUntil.isSome then s
    else
      let s1 := s.setPhys ph (p.commit c (gainOf s ph) s.now)
      match p.shadowHost, s.indexOf ph with
      | true, some a => s1.setArray a { s1.array a with hostSet := none }
      | _, _ => s1

/-- Whether an array has latched every vector of a step batch that it began, or that batch has ended or been recalled (R175). -/
def State.batchDone (s : State) (b : StepTag × Nat) : Bool :=
  match s.stepOf b.1 with
  | none => true
  | some r => r.ended || decide (r.width ≤ b.2) || decide (b.1.lineage.toNat < (floorAt r b.1.layer).toNat)

/-- Whether an array is at no vector between two of one step batch: every batch that it has begun is done (R175). -/
def State.batchOver (s : State) (a : Nat) : Bool := (s.array a).batch.all s.batchDone

/-- The vectors of a step batch that an array has latched. -/
def latchedOf (a : ArrayState) (t : StepTag) : Nat := match a.batch.find? fun b => b.1 = t with | some b => b.2 | none => 0

/-- The state in which an array latches a vector: before the first vector of a step batch a READY set is brought into force, unless another batch is under way
there (R175). Each step is a batch of its own here: which steps the bobbin joins changes timing only (R34; log 87). -/
def State.atLatch (s : State) (array p : Nat) (v : LiveVector) : State :=
  if latchedOf (s.array array) v.tag = 0 && s.batchOver array then s.commitShadow p else s

/-- Whether the duty window has room for a vector at an array (R112); a zero vector takes none. -/
def State.dutyFits (s : State) (array p : Nat) (v : LiveVector) : Bool :=
  zeroVector v || dutyRoom s ((s.atLatch array p v).evalVector p v (s.tauOf v.tag))

/-- An array with a vector latched and evaluated (R96 to R105, R175). -/
def State.latchVector (s0 : State) (array p : Nat) (v : LiveVector) : State :=
  let s := s0.atLatch array p v
  let o := s.evalVector p v (s.tauOf v.tag)
  let a := s.array array
  let s1 := s.setArray array { a with outs := a.outs ++ [o]
                                      batch := (v.tag, latchedOf a v.tag + 1) :: a.batch.filter fun b => decide (b.1 ≠ v.tag) && !s.batchDone b }
  { s1 with draws := s1.draws + 1, arrays := s1.arrays.spend o }.count fun c => { c with skipped := sat64 c.skipped o.skips }

/-- Whether a vector may be latched by an array now: the array serves its tile, and the tambour has not taken it (R115). -/
def State.latchOk (s : State) (array : Nat) (v : LiveVector) : Bool :=
  s.usable v.tag && s.arrayServes array v.tag && (match s.held array with
    | some h => tileTakes h v && s.vectorFor h.tile v && !s.passedOver (chainOf h.tile v) h.tile.position && !s.tambourHas (chainOf h.tile v) h.tile.position
    | none => false)

/-- A vector sent to an array that does not serve its tile goes to the tambour, where it waits its turn (R115, R134, R281). A tile with a mirror block that
no source restores the tambour cannot serve (R377). -/
def State.toTambour (s : State) (array : Nat) (v : LiveVector) : State :=
  match s.tileOf array v with
  | none => s
  | some x =>
    let k := chainOf x v
    if !s.usable v.tag || !s.vectorFor x v || (s.arrayServes array v.tag && !s.passedOver k x.position) ||
        s.arrayHas array k x.position || s.tambourHas k x.position || (s.motif v.tag.motif).spoilt.contains array then s
    else { s with data := { s.data with tambourWait := s.data.tambourWait ++ [{ array := array, key := k, position := x.position, vec := v }] } }


/-- VECTOR_LATCH: the vector is latched, or waits at its sender for the duty window in its order (R96, R112), in one order of the whole module (DESIGN CHOICE,
log 90); where the steering entry points away it goes to the tambour (R115). -/
def execVectorLatch (array : Nat) (v : LiveVector) (s : State) : Result :=
  need (decide (array < Config.arrays)) .noSuchArray
    (match s.workOf array with
    | none => s.toTambour array v
    | some p =>
      if !s.latchOk array v then s.toTambour array v
      else if s.arrays.dutyWait = [] ∧ s.dutyFits array p v then s.latchVector array p v
      else { s with arrays := { s.arrays with dutyWait := s.arrays.dutyWait ++ [(array, v)] } }.noteThrottle v.tag true)

/-- The vectors that wait, latched in their order while the window has room; those whose array no longer serves them go to the tambour. -/
def drainWait : List (Nat × LiveVector) → State → State
  | [], s => { s with arrays := { s.arrays with dutyWait := [] } }
  | (a, v) :: rest, s =>
    match s.workOf a with
    | none => drainWait rest (s.toTambour a v)
    | some p =>
      if !s.latchOk a v then drainWait rest (s.toTambour a v)
      else if s.dutyFits a p v then drainWait rest (s.latchVector a p v)
      else { s with arrays := { s.arrays with dutyWait := (a, v) :: rest } }

/-- Whether the duty window has run its 10 µs; a window that module time has stepped back across has too (R9, R111). -/
def State.dutyOver (s : State) : Bool := decide (s.arrays.dutyStart + 10000 ≤ s.now ∨ s.now < s.arrays.dutyStart)

/-- DUTY_WINDOW_END: a 10 µs window ends, a new share takes effect, waiting vectors proceed (R111, R112, R403). -/
def execDutyWindowEnd (s : State) : Result :=
  .next (onlyIf s.dutyOver s (drainWait s.arrays.dutyWait
    { s with arrays := { s.arrays with dutyUsed := 0, dutyStart := s.now, freeUsed := 0
                                       share := if s.start.stage < 6 then 40 else min s.thermal.shareGov (ladderShare s.level) } }))

/-- The first output of an array whose check has not been reported. -/
def unreported (a : ArrayState) : Option ArrayOut := a.outs.find? fun o => !o.reported

/-- An array with its first unreported output reported; one its node has already taken is done with. -/
def reportFirst (a : ArrayState) : ArrayState :=
  { a with outs := (mapFirst (fun o => !o.reported) (fun o => { o with reported := true }) a.outs).filter fun o => !(o.reported && o.taken) }

/-- A clean report (R106): the vector's conversions enter the statistics (R166), those of the window that runs when it is reported (DESIGN CHOICE, log 97). -/
def reportClean (s : State) (array : Nat) (o : ArrayOut) : State :=
  let s1 := s.setArray array (reportFirst (s.array array))
  let p := s.physOf array
  s1.setPhys p { s1.phys p with stats := (s1.phys p).stats.addOut o }

/-- A suspect report (R106, R256 cause 1, R383): record, counters, repair rules, and the recall, unless a recall has already superseded
the vector (R266); in a layer whose replay has not begun the array joins that replay (R260). -/
def reportSuspect (s : State) (array : Nat) (o : ArrayOut) (f : Nat × Nat × Int × Nat) : State :=
  let t := o.vec.tag
  let s1 := (s.setArray array (suspectRules (reportFirst (s.array array)) t.seq t.step s.now)).count
    fun c => { c with suspects := sat64 c.suspects 1 }
  let s2 := s1.event { cls := 1, code := 1, op := 1, kind := kArray, index := array, tag := some t, epoch := o.epoch, detail := suspectDetail f }
  match s2.stepOf t with
  | none => s2
  | some r =>
    let flag := fun (u : State) => u.setStep t fun r => { r with flagged := (t.layer, array) :: r.flagged }
    if r.ended then s2
    else if t.lineage.toNat < (floorAt r t.layer).toNat then
      (if (match r.replay with | some p => decide (p.1 = t.layer) | none => false) then flag s2 else s2)
    else flag (s2.raiseRecall t 1 t.layer array kArray array)

/-- PICOT_CHECK_REPORT: the next vector of the array is reported clean or suspect (R106). -/
def execPicotCheckReport (array : Nat) (s : State) : Result :=
  need (decide (array < Config.arrays)) .noSuchArray
    (match unreported (s.array array) with
    | none => s
    | some o => match o.fail with
      | none => reportClean s array o
      | some f => reportSuspect s array o f)

/-- The generation of the tables and mirror a motif table entry holds first: while it loads, the one the load gives (R276). -/
def MotifEntry.gen1 (e : MotifEntry) : Nat := if e.state = 1 then (e.gen + 1).toNat else e.gen.toNat

/-- The generation of the second copy: to be switched to, or, after a switch, the old one (R289, R290). -/
def MotifEntry.gen2 (e : MotifEntry) : Nat := if e.copy = 0 then (e.gen - 1).toNat else e.copyGen.toNat

/-- Whether what an array holds belongs to a resident copy. -/
def State.heldLive (s : State) (h : Held) : Bool :=
  let e := s.motif h.motif
  decide (e.state ≠ 0) && (decide (h.gen = e.gen1 ∨ h.gen = e.gen.toNat) || (e.prick2.isSome && decide (h.gen = e.gen2)))

/-- Whether every die sensor reads 20 °C or more; a broken one counts as too hot (R409, R455). -/
def State.dieWarm (s : State) : Bool :=
  (List.range 96).all fun i => decide ((s.sensor i).state ≠ 0) || (match (s.sensor i).hist with | e :: _ => decide (20 * 128 ≤ e.2) | [] => false)

/-- Whether an addressable array may take part in warm-up and confirmation (R174, R191, R455): from stage 5 a FREE array, and one that holds a tile once its mirror
is present. What a released tile's S and Q are after a power-off the spec does not say: a FREE array that holds one takes part at once, S and Q being those
of its cells (DESIGN CHOICE, log 68). -/
def State.mayWarm (s : State) (a : Nat) : Bool :=
  decide (5 ≤ s.start.stage) && (!s.start.leftSafe || s.dieWarm) && (s.array a).retire.isNone && (s.workOf a).isSome &&
  match s.held a with
  | some h => !s.heldLive h || decide ((s.motif h.motif).mirrorState = 2)
  | none => true

/-- The vector that the input stage's generator forms (R168): every bit of every plane a draw of its generator (free value, log 6). -/
def internalElems (p : Nat) (epoch : BitVec 32) (n b : Nat) : List Int :=
  (List.range 1024).map fun i =>
    signed b (((List.range b).map fun k => b2n (Config.internalBit (gridRow p) (gridCol p) epoch.toNat n k i) * 2 ^ k).sum)

/-- Whether the loop of an array runs internal vectors of B planes: I8B in warm-up and confirmation, I4B in top-up and on a tracking FREE
array (R168, R170). -/
def internalFits (calState b : Nat) (topUp free : Bool) : Bool :=
  decide ((calState = 1 ∨ calState = 2) ∧ b = 8) || (decide (calState = 3 ∧ b = 4) && (topUp || free))

/-- Whether an array takes part in warm-up or confirmation (R174, R191). -/
def State.warming (s : State) (phys : Nat) : Bool :=
  decide ((s.phys phys).calState = 1 ∨ (s.phys phys).calState = 2) && (match s.indexOf phys with | some a => s.mayWarm a | none => true)

/-- Whether an array's warm-up or confirmation runs: it has begun internal vectors and runs on until it leaves (R174). -/
def PhysArray.runs (p : PhysArray) : Bool := decide (0 < p.stats.vectors ∨ 0 < p.windows ∨ 0 < p.streak)

/-- Whether it is an array's turn in warm-up or confirmation: those that run go on, the others begin lowest index first, as many as the array share lets
run at full rate (R112, R174). -/
def State.warmTurn (s : State) (phys : Nat) : Bool :=
  (s.phys phys).runs ||
  match s.indexOf phys with
  | none => true
  | some a => decide ((s.arrays.phys.filter fun e => s.warming e.1 &&
      (e.2.runs || match s.indexOf e.1 with | some b => decide (b < a) | none => false)).length < max 1 (s.arrays.share * Config.arrays / 1820))

/-- Whether an array runs an internal vector of B planes now (R168, R170, R174): none is run where a live vector is offered. -/
def State.internalTurn (s : State) (phys bits : Nat) (free : Bool) : Bool :=
  let p := s.phys phys
  let offered := match s.indexOf phys with | some a => s.arrays.dutyWait.any (fun w => w.1 = a) | none => false
  internalFits p.calState bits p.topUp free && !offered && (decide (p.calState = 3) || (s.warming phys && s.warmTurn phys))

/-- INTERNAL_VECTOR: an internal vector is evaluated and counted when clean, FREE tracking arrays within 1 % duty together (R170); a failing picot check is written as an event and counts
toward retirement (R168, R169, R383). -/
def execInternalVector (phys bits : Nat) (s : State) : Result :=
  need (decide (phys < Config.physArrays)) .noSuchArray
    (let p := s.phys phys
     let free := match s.indexOf phys with | some a => decide ((s.array a).service = .free) | none => true
     let idle := free && decide (p.calState = 3)
     let v : LiveVector := { tag := { step := 0, seq := 0, motif := 0, gen := 0, layer := 0, lineage := 0, companion := none }, matrix := 0, row := 0,
                             bits := bits, exponent := 0, elems := internalElems phys p.epoch p.vectors bits }
     let o := s.evalVector phys v s.cfg.cur.tau
     if s.start.safe || !s.internalTurn phys bits free || !dutyRoom s o || (idle && !decide (s.arrays.freeUsed + evalCycles o ≤ Config.arrays * 85)) then s
     else
       let s1 := { s with draws := s.draws + 1, arrays := { s.arrays.spend o with freeUsed := s.arrays.freeUsed + if idle then evalCycles o else 0 } }.count
         fun c => { c with skipped := sat64 c.skipped o.skips }
       let stats := { p.stats with vectors := p.stats.vectors + 1 }
       match o.fail with
       | none => s1.setPhys phys { p with vectors := p.vectors + 1, stats := stats.addOut o }
       | some f =>
         let s2 := (s1.setPhys phys { p with vectors := p.vectors + 1, stats := stats }).count fun c => { c with suspects := sat64 c.suspects 1 }
         match s.indexOf phys with
         | none => s2
         | some a =>
           (s2.setArray a (suspectRules (s2.array a) (2 ^ 24) p.vectors s.now)).event
             { cls := 1, code := 2, op := 2, kind := kArray, index := a, tag := none, epoch := p.epoch, detail := suspectDetail f })

/-! ### Chains (R132 to R134) -/

/-- The tiles of a chain's output block, from the mirror of the step's generation. -/
def State.blockTiles (s : State) (k : ChainKey) : List Tile :=
  match (s.motif k.tag.motif).shardFor k.tag.gen with
  | some sh => sh.tiles.filter fun x => decide (x.layer = k.tag.layer ∧ x.matrix = k.matrix ∧ x.outputBlock = k.outputBlock)
  | none => []

/-- The tile at a position of a chain. -/
def State.chainTile (s : State) (k : ChainKey) (position : Nat) : Option Tile :=
  (s.blockTiles k).find? fun x => decide (x.chain = k.chain ∧ x.position = position)

/-- A partial before the first array of its chain: it carries the exponent and the format of the matrix input (R133). -/
def ChainPart.start (k : ChainKey) (x : RotOut) : ChainPart :=
  { key := k, sums := [], ovrFirst := 0, ovrClamped := 0, nsat := 0, exponent := x.exponent, bits := formatBits x.format, position := 0, present := 0, tambour := 0, conversions := 0 }

/-- The columns of two tables of sums added with saturation, and how many clamped (R132). -/
def addSums (a b : Tab Int) : Tab Int × Nat :=
  b.foldl (fun acc e =>
    let x := Tab.get 0 acc.1 e.1 + e.2
    (Tab.put 0 acc.1 e.1 (sat18 x), acc.2 + b2n (decide (sat18 x ≠ x)))) (a, 0)

/-- A partial with an array's output added at a position (R132, R133). -/
def ChainPart.add (c : ChainPart) (position : Nat) (o : ArrayOut) : ChainPart :=
  let x := addSums c.sums o.sums
  { c with
    sums := x.1, position := position, ovrFirst := c.ovrFirst + o.ovrFirst, ovrClamped := c.ovrClamped + o.ovrClamped,
    nsat := c.nsat + o.nsat + x.2,
    present := if o.zero then c.present else c.present ||| BitVec.ofNat 16 (2 ^ position),
    conversions := c.conversions + 576 * o.planes }

/-- A partial forwarded past an array that does not serve (R134). -/
def ChainPart.skip (c : ChainPart) (position : Nat) : ChainPart :=
  { c with position := position, tambour := c.tambour ||| BitVec.ofNat 16 (2 ^ position) }

/-- The header of a partial, 128 bits (R133). -/
def ChainPart.header (c : ChainPart) : Bytes :=
  leBytes 16 (c.ovrFirst % 2 ^ 17 * 2 ^ 111 + c.ovrClamped % 2 ^ 17 * 2 ^ 94 + c.nsat % 2 ^ 14 * 2 ^ 80 + c.exponent % 2 ^ 8 * 2 ^ 72 +
    (if c.bits = 8 then 3 else c.bits - 2) % 4 * 2 ^ 70 + c.position % 16 * 2 ^ 66 + c.present.toNat * 2 ^ 50 + c.tambour.toNat * 2 ^ 34)

/-- A partial as it travels: the 512 narrow sums packed at 18 bits in column order, the header, and the step tag (R133). -/
def ChainPart.wire (c : ChainPart) : Bytes :=
  leBytes 1152 (((List.range 512).map fun j => unsigned 18 (Tab.get 0 c.sums j) * 2 ^ (18 * j)).sum) ++ c.header ++ tagBytes c.key.tag

/-- The output of an array for a vector of a chain, not yet taken by its node. -/
def outFor (a : ArrayState) (k : ChainKey) : Option ArrayOut :=
  a.outs.find? fun o => decide (o.vec.tag = k.tag ∧ o.vec.matrix = k.matrix ∧ o.vec.row = k.row) && !o.taken

/-- An array whose output for a chain is taken; one already reported is done with. -/
def takeOut (a : ArrayState) (k : ChainKey) : ArrayState :=
  { a with outs := (mapFirst (fun o => decide (o.vec.tag = k.tag ∧ o.vec.matrix = k.matrix ∧ o.vec.row = k.row) && !o.taken)
      (fun o => { o with taken := true }) a.outs).filter fun o => !(o.reported && o.taken) }

/-- Puts a partial at its node, in place of the one of the position before. -/
def State.putPart (s : State) (c : ChainPart) : State :=
  { s with data := { s.data with parts := c :: s.data.parts.filter fun x => x.key ≠ c.key } }

/-- Whether an audit covers a row. -/
def AuditSel.covers (a : AuditSel) (k : ChainKey) : Bool :=
  decide ({ a.key with row := k.row } = k) && (match a.rows with | none => true | some rs => rs.contains k.row)

/-- An audit buffer with a node's partial and its array's output, if it covers the row (R366). -/
def AuditSel.copy (a : AuditSel) (now : Nat) (k : ChainKey) (position : Nat) (o : Option (Nat × ArrayOut)) (c : ChainPart) : AuditSel :=
  if a.covers k then
    { a with at_ := now, parts := a.parts ++ [c], outs := match o with | some x => a.outs ++ [(position, x.1, x.2)] | none => a.outs }
  else a

/-- Copies of a node's work into the audit buffer (R366). -/
def State.auditCopy (s : State) (k : ChainKey) (position : Nat) (o : Option (Nat × ArrayOut)) (c : ChainPart) : State :=
  { s with data := { s.data with audits := s.data.audits.map fun a => a.copy s.now k position o c } }

/-- An audit buffer with what a chain promoted into the wide accumulator, and the unit that did (R366, R367). -/
def AuditSel.copyWide (a : AuditSel) (now : Nat) (k : ChainKey) (unit : Option Nat) (add : Tab Int) : AuditSel :=
  if a.covers k then { a with at_ := now, wides := a.wides ++ [(k.row, add)], unit := unit } else a

/-- An audit buffer with the tambour contributions that were added to the wide accumulator (R366). -/
def AuditSel.copyTambour (a : AuditSel) (now : Nat) (k : ChainKey) (mine : List TambourOut) : AuditSel :=
  if a.covers k then { a with at_ := now, tambour := a.tambour ++ mine } else a

/-- Picks `n` rows of a list by draws, each place equally likely (R366). -/
def pickRows : Nat → Nat → List Nat → List Nat
  | 0, _, _ => []
  | n + 1, d, rows =>
    if rows = [] then [] else
    let r := rows.getD (Config.draw d % rows.length) 0
    r :: pickRows n (d + 1) (rows.filter (· ≠ r))

/-- Selection of a chain for an array audit, drawn at the step's first vector on it, per attempt, with probability 1/N; a forced audit
is selected whatever the draw (R365). -/
def State.auditSelect (s : State) (k : ChainKey) : State :=
  let chain := { k with row := 0 }
  match s.stepOf k.tag with
  | none => s
  | some r =>
    if r.drawn.contains chain then s
    else
      let tiles := (s.blockTiles k).filter fun x => x.chain = k.chain
      let forced := tiles.any fun x => (s.array x.array).forced
      let s1 := s.draw.2.setStep k.tag fun r => { r with drawn := chain :: r.drawn }
      if (tiles.all fun x => !s.arrayServes x.array k.tag) || (tiles.any fun x => (s.motif k.tag.motif).spoilt.contains x.array) || !(forced || decide (s.draw.1 % 2 ^ r.auditLog2 = 0)) then s1
      else
        let s2 := tiles.foldl (fun (u : State) x => u.setArray x.array { u.array x.array with forced := false }) s1
        let rows := if r.width ≤ 16 then none else some (pickRows 16 s2.draws (List.range r.width))
        let sel : AuditSel := { key := chain, at_ := s.now, rows := rows, outs := [], parts := [], wides := [], tambour := [], unit := none }
        { s2 with draws := s2.draws + 16, data := { s2.data with audits := sel :: s2.data.audits } }

/-- CHAIN_PARTIAL: the node at a position of a chain adds its array's output, or forwards the partial past an array that does not serve
(R132, R134). It acts once the partial of the position before and its own output are both present. -/
def execChainPartial (key : ChainKey) (position : Nat) (s : State) : Result :=
  .next (match s.chainTile key position with
  | none => s
  | some tile =>
    let before := if position = 0 then (s.rotOf key.tag key.matrix key.row).map (ChainPart.start key)
      else s.data.parts.find? fun c => decide (c.key = key ∧ c.position + 1 = position)
    let fresh := position ≠ 0 || !(s.data.parts.any fun c => c.key = key)
    match before with
    | none => s
    | some c =>
      if !s.usable key.tag || !fresh then s
      else
        let s0 := if position = 0 then s.auditSelect key else s
        match outFor (s.array tile.array) key with
        | some o =>
          let c' := c.add position o
          ((s0.setArray tile.array (takeOut (s0.array tile.array) key)).putPart c').auditCopy key position (some (tile.array, o)) c'
        | none =>
          if s.arrayServes tile.array key.tag && !s.tambourHas key position then s
          else (s0.putPart (c.skip position)).auditCopy key position none (c.skip position))

/-- The exact contribution 2 Σ x·c of a tile (R134). -/
def tileProduct (w3 : Bool) (t : Tile) (elems : List Int) : Tab Int :=
  t.weights.foldl (fun tab w => Tab.upd 0 tab w.2.1 (· + 2 * (elems.getD w.1 0) * (if w3 then 2 * w.2.2 else w.2.2))) []

/-- Counts tile vectors of the tambour (R190, R381). -/
def State.useTambour (s : State) (n : Nat) : State :=
  { s with data := { s.data with tambourUse := (s.now, n) :: s.data.tambourUse.filter fun e => decide (s.now < e.1 + 1000000) } }

/-- Notes that the tambour served a tile for a step (R252, R73): cause bit 5, but not for a tile that only the replay of the step's own flagged array brings
there, which shows as cause bit 1. -/
def State.noteTambour (s : State) (t : StepTag) (array : Nat) : State :=
  let replayed : Bool := match s.stepOf t with
    | some r => (r.flagged.any fun e => decide (e.2 = array)) && decide ((s.array array).service = .serving) && !allTambour r t.layer
    | none => false
  (s.useTambour 1).setStep t fun r => { r with
    served := if r.served.contains (array, t.lineage) then r.served else (array, t.lineage) :: r.served
    slow := if replayed then r.slow else r.slow ||| slowBit slowTambour }

/-- The priority of a waiting vector at the tambour (R281): 0 a replay's, 1 a layer's taken over, 2 one whose array is OUT or retired. -/
def State.jobClass (s : State) (j : TambourJob) : Nat :=
  if 0 < attemptOf j.key.tag.lineage then 0 else if (s.motif j.key.tag.motif).servingFor.isSome then 1 else 2

/-- The vector that the tambour serves next: the lowest priority number, and of those the first to arrive (R281; log 77). -/
def State.nextJob (s : State) : Option TambourJob :=
  (List.range 3).findSome? fun c => s.data.tambourWait.find? fun j => decide (s.jobClass j = c)

/-- The tambour computes a waiting vector's tile, exactly and from the mirror, for the chain-end unit (R134). -/
def State.serveJob (s : State) (j : TambourJob) : State :=
  match s.chainTile j.key j.position, s.layerT j.key.tag with
  | some tile, some r =>
    let out : TambourOut := { key := j.key, position := j.position, vec := j.vec, sums := if zeroVector j.vec then [] else tileProduct r.w3 tile j.vec.elems }
    { s with data := { s.data with
        tambourWait := s.data.tambourWait.filter fun x => !decide (x.key = j.key ∧ x.position = j.position)
        tambour := out :: s.data.tambour.filter fun x => !decide (x.key = j.key ∧ x.position = j.position) } }.noteTambour j.key.tag j.array
  | _, _ => s

/-- TAMBOUR_TILE: the vector of a tile whose array does not serve comes to the tambour, unless it waits there already, and is served if its turn has come
(R134, R281). -/
def execTambourTile (array : Nat) (key : ChainKey) (position : Nat) (v : LiveVector) (s : State) : Result :=
  need (decide (array < Config.arrays)) .noSuchArray
    (let j : TambourJob := { array := array, key := key, position := position, vec := v }
     let s1 := match s.tileOf array v with
       | some x => if chainOf x v = key ∧ x.position = position then s.toTambour array v else s
       | none => s
     if s1.nextJob = some j then s1.serveJob j else s1)

/-! ### Chain end (R135, R137) -/

/-- A wide accumulator with nothing promoted. -/
def WideAcc.start (k : ChainKey) : WideAcc :=
  { tag := k.tag, matrix := k.matrix, outputBlock := k.outputBlock, row := k.row, exponent := 0, acc := [], chains := [], tiles := [], awaited := [] }

/-- Whether a wide accumulator is the one of a key's block and row. -/
def wideFor (k : ChainKey) (w : WideAcc) : Bool :=
  decide (w.tag = k.tag ∧ w.matrix = k.matrix ∧ w.outputBlock = k.outputBlock ∧ w.row = k.row)

/-- The wide accumulator of a key's block and row. -/
def State.wideOf (s : State) (k : ChainKey) : WideAcc := (s.data.wide.find? (wideFor k)).getD (WideAcc.start k)

/-- The sum of two tables, column by column. -/
def addTab (a b : Tab Int) : Tab Int := b.foldl (fun t e => Tab.upd 0 t e.1 (· + e.2)) a

/-- G·n_j - Σ S_j of a chain's partial, from the tiles of its present arrays (R135). -/
def chainContribution (g : Nat) (c : ChainPart) (tiles : List Tile) : Tab Int :=
  let base := c.sums.foldl (fun t e => Tab.put 0 t e.1 ((g : Int) * e.2)) []
  tiles.foldl (fun t x =>
    if c.present.getLsbD x.position then x.colSums.foldl (fun t e => Tab.upd 0 t e.1 (· - e.2)) t else t) base

/-- The place of the vector unit at a chain's end (log 36). -/
def chainPlace (k : ChainKey) : Nat := Config.unitPlace kVector k.tag.motif k.tag.layer k.matrix (16 * k.outputBlock + k.chain)

/-- Positions a partial says the tambour serves. -/
def tambourPositions (c : ChainPart) : List Nat := (List.range 16).filter fun p => c.tambour.getLsbD p

/-- CHAIN_END_PROMOTE: the chain's complete partial, and the tambour contributions of its tiles that are there, go into the wide
accumulator; the block's counts go into the layer's window (R135, R139). -/
def execChainEndPromote (key : ChainKey) (s : State) : Result :=
  .next (match s.layerT key.tag with
  | none => s
  | some r =>
    if !s.usable key.tag then s
    else
      let tiles := (s.blockTiles key).filter fun x => x.chain = key.chain
      let w := s.wideOf key
      let part := s.data.parts.find? fun c => decide (c.key = key ∧ c.position + 1 = tiles.length)
      let s1 : State := match part with
        | none => s
        | some c =>
          let add := chainContribution r.gainTap c tiles
          let w1 := { w with acc := addTab w.acc add, exponent := max w.exponent c.exponent, chains := key.chain :: w.chains,
                             awaited := w.awaited ++ ((tambourPositions c).filter fun p => !w.tiles.contains (key.chain, p)).map fun p => (key.chain, p) }
          ({ s with data := { s.data with
              parts := s.data.parts.filter fun x => x.key ≠ key
              wide := w1 :: s.data.wide.filter fun x => !wideFor key x
              audits := s.data.audits.map fun (a : AuditSel) => a.copyWide s.now key (s.unitAt kVector (chainPlace key)) add } }.workAt
            key.tag kVector (chainPlace key)).setPrecT key.tag fun p => { p with ovr := p.ovr + c.ovrFirst, nsat := p.nsat + c.nsat, conversions := p.conversions + c.conversions }
      let mine := s1.data.tambour.filter fun x => x.key = key
      if mine = [] then s1
      else
        let w2 := mine.foldl (fun (w : WideAcc) x => { w with
          acc := addTab w.acc x.sums, tiles := (key.chain, x.position) :: w.tiles
          awaited := w.awaited.filter (· ≠ (key.chain, x.position)) }) (s1.wideOf key)
        { s1 with data := { s1.data with
            tambour := s1.data.tambour.filter fun x => x.key ≠ key
            audits := s1.data.audits.map fun (a : AuditSel) => a.copyTambour s.now key mine
            wide := w2 :: s1.data.wide.filter fun x => !wideFor key x } })

/-- The chains of an output block. -/
def blockChains (tiles : List Tile) : List Nat := (tiles.map (·.chain)).dedup

/-- Whether every chain and every tambour contribution of a block is in (R135). -/
def blockComplete (tiles : List Tile) (w : WideAcc) : Bool :=
  decide (tiles ≠ []) && (blockChains tiles).all w.chains.contains && decide (w.awaited = [])

/-- The per-column scales of an output block: they are on chain position 0 (R273). -/
def blockScales (tiles : List Tile) : Tab Fp32 :=
  match tiles.find? fun x => x.position = 0 with
  | some t => t.scales
  | none => []

/-- One matrix output y_j (R137). -/
def outputColumn (a : Int) (sigma : Fp32) (e : Nat) (w3 : Bool) : Fp32 :=
  fpScale (fpMul (fpOfInt a) sigma) ((e : Int) - 127 - (if w3 then 2 else 1))

/-- Whether a matrix output is clamped under R123. -/
def outputClamped (a : Int) (sigma : Fp32) (e : Nat) (w3 : Bool) : Bool :=
  let y := fpMul (fpOfInt a) sigma
  (!fpBad sigma && fpOver (fpInt (fpOfInt a) * fpInt sigma) (2 ^ 298)) || fpScaleOver y ((e : Int) - 127 - (if w3 then 2 else 1))

/-- The vocabulary size of a tag's motif. -/
def State.vocabT (s : State) (t : StepTag) : Nat := match s.prickT t with | some p => p.vocabSize | none => 0

/-- MATRIX_OUTPUT: a complete block is scaled to FP32 (R137, R139). -/
def execMatrixOutput (key : ChainKey) (s : State) : Result :=
  .next (match s.layerT key.tag with
  | none => s
  | some r =>
    let tiles := s.blockTiles key
    let w := s.wideOf key
    if !s.usable key.tag || !blockComplete tiles w then s
    else
      let sc := blockScales tiles
      let at_ := fun j => (Tab.get 0 w.acc j, Tab.get (0 : Fp32) sc j)
      -- the output projection's padded columns are discarded (R82, R474); which columns of another matrix are padding no table tells (log 80)
      let cols := if s.outputMatrix key.tag = some key.matrix then min 512 (s.vocabT key.tag - 512 * key.outputBlock) else 512
      let out : MatOut := { tag := key.tag, matrix := key.matrix, outputBlock := key.outputBlock, row := key.row,
                            values := (List.range cols).map fun j => outputColumn (at_ j).1 (at_ j).2 w.exponent r.w3 }
      let clamped := ((List.range 512).filter fun j => outputClamped (at_ j).1 (at_ j).2 w.exponent r.w3).length
      { s with data := { s.data with
          wide := s.data.wide.filter fun x => !wideFor key x
          outs := out :: s.data.outs.filter fun x => !decide (x.tag = key.tag ∧ x.matrix = key.matrix ∧ x.outputBlock = key.outputBlock ∧ x.row = key.row) } }.setPrecT
        key.tag fun p => { p with outputs := p.outputs + 512, nsat := p.nsat + clamped })

/-! ### Precision windows (R140, R143, R144) -/

/-- Whether a rate exceeds a limit in parts per 2^24; a rate with denominator 0 is 0 (R143). -/
def exceeds (num den limit : Nat) : Bool := decide (den ≠ 0 ∧ limit * den < num * 2 ^ 24)

/-- Whether a rate lies within half a limit (R144). -/
def within (num den limit : Nat) : Bool := decide (den = 0 ∨ 2 * num * 2 ^ 24 ≤ limit * den)

/-- A rate in whole parts per 2^24, rounded down (DESIGN CHOICE, log 94). -/
def ratePart (num den : Nat) : Nat := if den = 0 then 0 else num * 2 ^ 24 / den

/-- The layer precision record at the end of a window: snapshot and cleared counters (R140). -/
def LayerPrec.close (p : LayerPrec) : LayerPrec :=
  { p with rElements := p.elements, rZeroed := p.zeroed, rOutputs := p.outputs, rNsat := p.nsat, rConversions := p.conversions, rOvr := p.ovr,
           elements := 0, zeroed := 0, outputs := 0, nsat := 0, conversions := 0, ovr := 0, positions := 0, windows := p.windows + 1 }

/-- The FALLBACK record of a layer (R143, R389). -/
def fallbackEvent (motif layer : Nat) (p : LayerPrec) (o n z : Bool) (s : State) : State :=
  let rate := if o then (0, ratePart p.ovr p.conversions) else if n then (1, ratePart p.nsat p.outputs) else (2, ratePart p.zeroed p.elements)
  s.ev 10 1 0 kLayer (layerKey motif layer) (leBytes 1 rate.1 ++ leBytes 4 rate.2 ++ leBytes 1 (b2n o + 2 * b2n n + 4 * b2n z))

/-- The copy of a motif whose layer has come to the end of its window: the copy in force, unless only the other's has (R140, R146). -/
def State.windowGen (s : State) (motif layer : Nat) : Nat :=
  let e := s.motif motif
  let due := fun (gen : Nat) => match (e.prickFor gen).bind fun p => layerOf p layer with
    | some r => decide (r.fbWindow ≤ (s.prec motif gen layer).positions)
    | none => false
  if !due e.gen.toNat && due e.gen2 then e.gen2 else e.gen.toNat

/-- PRECISION_WINDOW_END: snapshot, and fall-back to I8B or return to the base format (R140, R143, R144). -/
def execPrecisionWindowEnd (motif layer : Nat) (s : State) : Result :=
  need (decide (motif < 16)) .noSuchMotif
    (let gen := s.windowGen motif layer
     match (((s.motif motif).prickFor gen).map fun p => p.placed (movedNow s.take.moves)).bind fun p => layerOf p layer with
    | none => s
    | some r =>
      let p := s.prec motif gen layer
      if !s.owns r || decide (p.positions < r.fbWindow) then s
      else
        let o := exceeds p.ovr p.conversions r.ovrLimit
        let n := exceeds p.nsat p.outputs r.nsatLimit
        let z := exceeds p.zeroed p.elements r.zeroedLimit
        let closed := p.close
        if p.format ≠ 3 then
          if r.fallback && (o || n || z) then
            fallbackEvent motif layer p o n z
              (s.setPrec motif gen layer fun _ => { closed with format := 3, fallbacks := closed.fallbacks + 1, quiet := 0 })
          else s.setPrec motif gen layer fun _ => closed
        else if within p.ovr p.conversions r.ovrLimit && within p.nsat p.outputs r.nsatLimit && within p.zeroed p.elements r.zeroedLimit then
          if p.quiet + 1 = r.returnWindows then
            (s.setPrec motif gen layer fun _ => { closed with format := r.baseFormat, quiet := 0 }).ev 10 2 0 kLayer (layerKey motif layer) []
          else s.setPrec motif gen layer fun _ => { closed with quiet := p.quiet + 1 }
        else s.setPrec motif gen layer fun _ => { closed with quiet := 0 })

end Sys2Proof.Machine
end

