-- ==== Sys2Proof/Machine/Pages.lean ====
section
/-! DEFINITION. Pages, frames, page lists and latches (R199 to R218). -/

namespace Sys2Proof.Machine

/-! ### Layout of a page (R199 to R202) -/

/-- Bits per element of a motif's KV format. -/
def kvBits (p : Pricking) : Nat := if p.kvI8 then 8 else 4

/-- Bytes of one token's key or value elements of one head. -/
def headBytes (b : Nat) : Nat := 16 * b

/-- Bytes of a head's element area: keys, then values. -/
def headArea (b : Nat) : Nat := 512 * b

/-- Offsets in a page of a head's key elements, value elements, key scales and value scales of a slot. -/
def keyOff (b g t : Nat) : Nat := headArea b * g + headBytes b * t
def valueOff (b g t : Nat) : Nat := headArea b * g + headArea b / 2 + headBytes b * t
def keyScaleOff (b h g t : Nat) : Nat := headArea b * h + 8 * h * t + 8 * g
def valueScaleOff (b h g t : Nat) : Nat := keyScaleOff b h g t + 4

/-- The page payload of a layer with H KV heads (R200). -/
def pagePayload (b h : Nat) : Nat := 16 * h * (256 * b / 8 + 8)

/-- The frame size F of a motif in bytes. -/
def frameSize (p : Pricking) : Nat := p.frameKib * 1024

/-- Memory with one slot of a frame written whole (R203). -/
def writeSlot (m : Memory) (b h frame t : Nat) (d : SlotData) : Memory :=
  (d.heads.mapIdx fun g x => (g, x)).foldl (fun m e =>
    memWrite (memWrite (memWrite (memWrite m (frame + keyOff b e.1 t) e.2.1) (frame + valueOff b e.1 t) e.2.2.1)
      (frame + keyScaleOff b h e.1 t) e.2.2.2.1) (frame + valueScaleOff b h e.1 t) e.2.2.2.2) m

/-- One slot of a frame as it lies there. -/
def readSlot (m : Memory) (b h frame t position node : Nat) : SlotData :=
  { position := position, node := node
    heads := (List.range h).map fun g => (memRead m (frame + keyOff b g t) (headBytes b), memRead m (frame + valueOff b g t) (headBytes b),
      memRead m (frame + keyScaleOff b h g t) 4, memRead m (frame + valueScaleOff b h g t) 4) }

/-- The blocks flagged uncorrectable that a frame touches. -/
def State.flaggedIn (s : State) (frame size : Nat) : List Nat := s.mem.flagged.filter fun b => decide (frame < 64 * b + 64 ∧ 64 * b < frame + size)

/-- Whether a frame touches a block flagged uncorrectable, which no unit uses before it is rebuilt (R374, R377). -/
def State.frameFlagged (s : State) (frame size : Nat) : Bool := !(s.flaggedIn frame size).isEmpty

/-- An UNCORRECTABLE record (R374, R389). -/
def State.evWord (s : State) (kind index addr reader : Nat) (tag : Option StepTag) : State :=
  s.event { cls := 3, code := 1, op := if reader = 2 then 9 else if reader = 3 then 11 else 7, kind := kind, index := index, tag := tag, epoch := 0,
            detail := leBytes 5 addr ++ leBytes 1 reader }

/-! ### Which pages lie here (R204, R205) -/

/-- The rank of a page's home and of its shadow. -/
def homeRank (k page : Nat) : Nat := page % k
def shadowRank (k page : Nat) : Nat := (page % k + k / 2) % k

/-- Whether a page has its home, or its shadow, on this module. -/
def State.homeHere (s : State) (r : LayerRec) (page : Nat) : Bool := (s.ranksHere r).contains (homeRank r.k page)
def State.shadowHere (s : State) (r : LayerRec) (page : Nat) : Bool := decide (2 ≤ r.k) && (s.ranksHere r).contains (shadowRank r.k page)

/-- The modules that hold a page: home, then shadow. -/
def State.pageHolders (s : State) (r : LayerRec) (page : Nat) : List Nat :=
  let ids := s.spreadIds r
  (ids.getD (homeRank r.k page) 0xFFFF :: (if 2 ≤ r.k then [ids.getD (shadowRank r.k page) 0xFFFF] else [])).dedup

/-! ### Sequences headed elsewhere -/

/-- The open sequence, or companion, that a tag names on its head. -/
def State.seqOf (s : State) (t : StepTag) : Option Seq :=
  s.seqs.open_.find? fun q => decide (q.motif = t.motif ∧ q.id = t.seq ∧ q.companion = t.companion)

/-- Whether the sequence of a tag is host-managed: its own setting on the head; elsewhere a free value (log 16). -/
def State.hostManaged (s : State) (t : StepTag) : Bool :=
  match s.seqOf t with
  | some q => q.hostPages
  | none => decide (Config.remote t.motif t.seq 0 6 0 % 2 = 1)

/-- The offset of a layer's home descriptor for a sequence headed elsewhere: PAGES_BIND runs on the head, and no message tells another module of it, so whether
a table is bound for the layer at a step, and where in the host area it lies, are free values (log 16). -/
def State.remoteDescriptor (s : State) (t : StepTag) : Option Nat :=
  let rem := Config.remote t.motif t.seq t.step 7
  if s.cfg.cur.hostSize < 32 ∨ rem (2 * t.layer) % 2 = 0 then none
  else some (s.cfg.cur.hostOffset + rem (2 * t.layer + 1) % (s.cfg.cur.hostSize - 31))

/-- The offset of a layer's home descriptor, where a table is bound for it (R209). -/
def State.descriptorAt (s : State) (t : StepTag) : Option Nat :=
  if (s.seqOf t).isSome then
    (s.seqs.bindings.find? fun b =>
      decide (b.motif = t.motif ∧ b.seq = t.seq ∧ b.firstLayer ≤ t.layer ∧ t.layer < b.firstLayer + b.layerCount)).map
      fun b => b.descOffset + (t.layer - b.firstLayer) * 32
  else s.remoteDescriptor t

/-! ### Host-managed lists (R208 to R211) -/

/-- The descriptor at an offset of the memory window. -/
def readDescriptor (m : Memory) (off : Nat) : Descriptor :=
  let d := memRead m off 16
  { list := field d 0 8, length := field d 8 4, generation := field d 12 2 }

/-- Whether the list itself is sound: in the host area and aligned (R211). -/
def State.listSound (s : State) (d : Descriptor) : Bool := decide (d.list % 64 = 0) && s.inHostArea d.list (4 * d.length)

/-- The frame offset that entry j of a list names, unless a condition of R211 holds. -/
def State.listFrame (s : State) (d : Descriptor) (size j : Nat) : Option Nat :=
  let k := ofLE (memRead s.mem (d.list + 4 * j) 4)
  if d.length ≤ j ∨ k = 0xFFFFFFFF ∨ !s.inHostArea (k * size) size then none else some (k * size)

/-- The frames that a host-managed list names for those of some pages that it covers. -/
def State.hostFrames (s : State) (d : Descriptor) (k size : Nat) (pages : List Nat) : List (Nat × Nat) :=
  if s.listSound d then pages.filterMap fun p => (s.listFrame d size (p / k)).map fun f => (p, f) else []

/-! ### Firmware-managed lists (R216) -/

/-- The frame of a page in a firmware-managed list. -/
def State.frameRef (s : State) (t : StepTag) (page : Nat) (home : Bool) : Option FrameRef :=
  s.seqs.frames.find? fun f =>
    decide (f.motif = t.motif ∧ f.seq = t.seq ∧ f.companion = t.companion ∧ f.layer = t.layer ∧ f.page = page ∧ f.home = home)

/-- The bytes of a frame in use: start and length. -/
def State.frameSpan (s : State) (f : FrameRef) : Nat × Nat :=
  match (s.motif f.motif).prick with
  | some p => (f.frame * frameSize p, frameSize p)
  | none => (0, 0)

/-- The bytes of a shard in a mirror. -/
def shardBytes (sh : Shard) : Nat := sh.tiles.length * 299008 + sh.vectors.length

/-- The bytes that mirrors and group mirrors take, those of shards on their way by fetch or copy included (R280). -/
def State.mirrorBytes (s : State) : Nat :=
  (s.motifs.table.map fun e =>
    (match e.2.mirror with | some m => shardBytes m | none => 0) + (match e.2.mirror2 with | some m => shardBytes m | none => 0)
      + (e.2.groupMirror.map fun g => shardBytes g.2.2).sum + (e.2.arriving.map fun a => a.2.1).sum).sum +
  (s.motifs.loads.map fun l => match l.order with | some o => if l.shard.isNone then o.entry.length else 0 | none => 0).sum

/-- The distinct frames of firmware-managed lists. -/
def State.frameSpans (s : State) : List (Nat × Nat) := (s.seqs.frames.map s.frameSpan).dedup

/-- Whether there is room in module memory for `n` more bytes beside mirrors, frames and the host area (R216, R280). -/
def State.roomFor (s : State) (n : Nat) : Bool :=
  decide (s.mirrorBytes + ((s.frameSpans).map (·.2)).sum + s.cfg.cur.hostSize + n ≤ Config.memorySize)

/-- The i-th frame number of a size that lies outside the host area. -/
def State.outerFrame (s : State) (size i : Nat) : Nat :=
  let below := s.cfg.cur.hostOffset / size
  if s.cfg.cur.hostSize = 0 ∨ i < below then i else i - below + (s.cfg.cur.hostOffset + s.cfg.cur.hostSize + size - 1) / size

/-- A free frame number for a motif's frame size, none when no frame is free; the bobbin's choice among free frames is the lowest (log 21). -/
def State.freeFrame (s : State) (size : Nat) : Option Nat :=
  if size = 0 ∨ !s.roomFor size then none
  else
    let used := s.frameSpans
    ((List.range (20 * used.length + 1)).map (s.outerFrame size)).find? fun k =>
      decide ((k + 1) * size ≤ Config.memorySize) && used.all fun u => decide (u.1 + u.2 ≤ k * size ∨ (k + 1) * size ≤ u.1)

/-- Allocates frames for pages that have none; none when no frame is free. -/
def allocate (t : StepTag) (size : Nat) (home : Bool) : List Nat → State → Option State
  | [], s => some s
  | page :: rest, s =>
    if (s.frameRef t page home).isSome then allocate t size home rest s
    else match s.freeFrame size with
      | none => none
      | some k =>
        let ref : FrameRef := { motif := t.motif, seq := t.seq, companion := t.companion, layer := t.layer, page := page, home := home, frame := k }
        allocate t size home rest { s with seqs := { s.seqs with frames := ref :: s.seqs.frames } }

/-- The frames of pages in a firmware-managed list. -/
def State.ownFrames (s : State) (t : StepTag) (size : Nat) (home : Bool) (pages : List Nat) : List (Nat × Nat) :=
  pages.filterMap fun p => (s.frameRef t p home).map fun f => (p, f.frame * size)

/-! ### Forks (R217) -/

/-- The frames of a sequence's list that a fork shares: pages wholly below the source's KV length (R217). -/
def sharedFrames (kv : Nat) (f : FrameRef) : Bool := decide (16 * f.page + 16 ≤ kv)

/-- Copies the payload of the page that holds the KV length into new frames (R201); none where no frame is free, with the layer (R217). -/
def copyFrames (newId : Nat) (kv : Nat) : List FrameRef → State → Except Nat State
  | [], s => .ok s
  | f :: rest, s =>
    let ref : FrameRef := { f with seq := newId }
    if sharedFrames kv f then copyFrames newId kv rest { s with seqs := { s.seqs with frames := ref :: s.seqs.frames } }
    else if f.page = kv / 16 then
      match (s.motif f.motif).prick with
      | none => copyFrames newId kv rest s
      | some p => match s.freeFrame (frameSize p) with
        | none => .error f.layer
        | some k =>
          let size := frameSize p
          let used := match layerOf p f.layer with | some r => pagePayload (kvBits p) r.kvHeads | none => 0
          copyFrames newId kv rest { s with
            mem := memWrite s.mem (k * size) (memRead s.mem (f.frame * size) used)
            seqs := { s.seqs with frames := { ref with frame := k } :: s.seqs.frames } }
    else copyFrames newId kv rest s

/-! ### Latch (R211 to R213) -/

/-- The latch of a step's layer on this module. -/
def State.latchOf (s : State) (t : StepTag) : Option Latch :=
  s.attn.latches.find? fun l => sameTag t l.tag && decide (l.tag.layer = t.layer)

/-- Frames held already, with those of a list for pages that had none. -/
def addFrames (had new : List (Nat × Nat)) : List (Nat × Nat) := had ++ new.filter fun e => !(had.any fun x => x.1 = e.1)

/-- Puts a latch in place of the one of its step's layer. -/
def State.putLatch (s : State) (l : Latch) : State :=
  { s with attn := { s.attn with latches := l :: s.attn.latches.filter fun x => !(sameTag l.tag x.tag && decide (x.tag.layer = l.tag.layer)) } }

/-- Reports a step uncovered (R211, R216): the event record, and a recall without replay. -/
def State.uncovered (s : State) (t : StepTag) (generation status : Nat) : State :=
  (s.event { cls := 11, code := 2, op := 0, kind := kLayer, index := layerKey t.motif t.layer, tag := some t, epoch := 0,
             detail := leBytes 2 generation ++ leBytes 1 status }).raiseRecall t 5 t.layer 0xFFFF kLayer (layerKey t.motif t.layer)

/-- The KV length of a step. -/
def StepRec.kv (r : StepRec) : Nat := r.n - 1

/-- The most tentative slots a step can have, as far as the module knows it: its width, or 64 for a generation step and 4,096 for a prefill step (R35, R36). -/
def StepRec.slotSpan (r : StepRec) : Nat := if r.width ≠ 0 then r.width else if r.prefill then 4096 else 64

/-- What the first query row of a layer makes a module latch (R212, R213): of a host-managed sequence both descriptors as they are, with every entry read;
later host writes to descriptors, or to entries of tentative slots, do not reach the step. An unbound layer counts as a list of length 0. -/
def State.newLatch (s : State) (t : StepTag) (p : Pricking) (r : LayerRec) (c : StepRec) : Latch :=
  if s.hostManaged t then
    let none' : Descriptor := { list := 0, length := 0, generation := 0 }
    let d := match s.descriptorAt t with
      | some off => (readDescriptor s.mem off, readDescriptor s.mem (off + 16))
      | none => (none', none')
    let pages := List.range ((c.kv + c.slotSpan - 1) / 16 + 1)
    { tag := t, lists := some d, kv := c.kv
      home := s.hostFrames d.1 r.k (frameSize p) (pages.filter (s.homeHere r))
      shadow := s.hostFrames d.2 r.k (frameSize p) (pages.filter (s.shadowHere r)) }
  else { tag := t, lists := none, kv := c.kv, home := [], shadow := [] }

/-- Checks that a latch covers a step up to a position, and allocates the frames a firmware-managed list lacks, home and shadow together (R211, R216); the
flag says whether it does. Where no table is bound, or the sequence is firmware-managed, the record's list generation is 0: the spec gives none
(DESIGN CHOICE, log 71). -/
def State.cover (s : State) (t : StepTag) (p : Pricking) (r : LayerRec) (l : Latch) (last : Nat) : State × Bool :=
  let pages := List.range (last / 16 + 1)
  let homes := pages.filter fun x => s.homeHere r x && !(l.home.any fun e => e.1 = x)
  let shadows := pages.filter fun x => s.shadowHere r x && !(l.shadow.any fun e => e.1 = x)
  match l.lists with
  | some d =>
    if homes ≠ [] ∨ !s.listSound d.1 then (s.uncovered t d.1.generation (stPagesShort % 256), false)
    else if r.k ≠ 1 ∧ (shadows ≠ [] ∨ !s.listSound d.2) then (s.uncovered t d.2.generation (stPagesShort % 256), false)
    else (s, true)
  | none =>
    let size := frameSize p
    match (allocate t size true homes s).bind (allocate t size false shadows) with
    | none => (s.uncovered t 0 (stNoPages % 256), false)
    | some s1 =>
      (s1.putLatch { l with home := addFrames l.home (s1.ownFrames t size true homes), shadow := addFrames l.shadow (s1.ownFrames t size false shadows) }, true)

/-- A sequence that this module meets with a KV length and no frame of its lists is a fork made on its head: the lists of its source here are shared, and the page
that holds the KV length copied. Which sequence it was forked from no message tells: a free value (R217; log 70). -/
def State.meetFork (s : State) (t : StepTag) (c : StepRec) : State :=
  let own := fun (id : Nat) (f : FrameRef) => decide (f.motif = t.motif ∧ f.seq = id ∧ f.companion = t.companion)
  if s.hostManaged t || (s.seqOf t).isSome || decide (c.kv = 0) || s.seqs.frames.any (own t.seq) then s
  else
    match copyFrames t.seq c.kv ((s.seqs.frames.filter (own (Config.remote t.motif t.seq 0 38 0 % 2 ^ 24))).mergeSort fun a b => decide (a.layer ≤ b.layer)) s with
    | .ok u => u
    | .error _ => s

/-- Latches a layer's page lists for a step, if they are not latched yet, and checks them up to a position; the flag says whether the step is covered
(R211 to R213, R216). -/
def State.latchPages (s : State) (t : StepTag) (last : Nat) : State × Bool :=
  match s.prickT t, s.layerT t, s.stepOf t with
  | some p, some r, some c =>
    match s.latchOf t with
    | some l => s.cover t p r l last
    | none =>
      let s0 := s.meetFork t c
      let l := s0.newLatch t p r c
      let unbound := match l.lists with | some _ => (s0.descriptorAt t).isNone | none => false
      if unbound then (s0.uncovered t 0 (stPagesShort % 256), false) else (s0.putLatch l).cover t p r l last
  | _, _, _ => (s, false)

/-- The frame of a page for a walk: entries of wholly committed pages of a host-managed list are read at the walk, through the descriptor the step latched, so
that an edit shows, and one that leaves no usable entry leaves the frame read at the latch (R213, R215). -/
def State.walkFrame (s : State) (l : Latch) (d : Descriptor) (k size : Nat) (e : Nat × Nat) : Nat × Nat :=
  if 16 * e.1 + 16 ≤ l.kv then (e.1, (s.listFrame d size (e.1 / k)).getD e.2) else e

/-- The frames this module holds for a page of a latch: home and shadow. -/
def framesOf (l : Latch) (page : Nat) : List Nat :=
  ((l.home ++ l.shadow).filter fun e => e.1 = page).map (·.2)

end Sys2Proof.Machine
end

