-- ==== Sys2Proof/Machine/Attention.lean ====
section
/-! DEFINITION. Attention: query rows, slot writes, work units, partials and their merge (R192 to R234, R244, R245). -/

namespace Sys2Proof.Machine

/-! ### Rows of a layer -/

/-- Rows added, those already there once. -/
def addRows (t : StepTag) (new : List QueryRow) (had : List (StepTag × QueryRow)) : List (StepTag × QueryRow) :=
  had ++ (new.filter fun r => !(had.any fun x => decide (x.1 = t ∧ x.2.row = r.row))).map fun r => (t, r)

/-- The last tentative slot that a step is known to have: by its width where the module knows it, else by the rows that have come. -/
def lastSlot (r : StepRec) (rows : List QueryRow) : Nat :=
  max (rows.foldl (fun m q => max m (rowSlot q)) 0) (if r.width = 0 then 0 else r.n + r.width - 2)

/-- What query rows tell a module about its step: n and whether it is a prefill step; with the last row of a layer, its width (R240, R245). -/
def StepRec.learn (r : StepRec) (rows : List QueryRow) (all : Nat) (qHeads : Nat) (last : Bool) : StepRec :=
  match rows with
  | [] => r
  | q :: _ =>
    let r1 := if r.n = 0 then { r with n := q.kvLength + 1, prefill := rowPrefill q } else r
    if last ∧ r1.width = 0 then { r1 with width := all / max qHeads 1 } else r1

/-! ### Query rows and slots (R206, R212, R228) -/

/-- A datum of a step that has come: produced here, when the source is this module and the layer its own, else received (R258, R259). -/
def State.taken (s : State) (source : Nat) (t : StepTag) : State × Bool :=
  if source = s.machineId then
    (s, s.usable t && (match s.layerT t with | some r => s.owns r | none => false))
  else s.arrive t

/-- Slots written whole into the frames held for their pages (R203, R206, R213). -/
def State.writeSlots (s : State) (t : StepTag) (b h : Nat) (slots : List SlotData) : State :=
  match s.latchOf t with
  | none => s
  | some l => slots.foldl (fun u d =>
      let frames := framesOf l (d.position / 16)
      { u with
        mem := frames.foldl (fun m f => writeSlot m b h f (d.position % 16) d) u.mem
        attn := { u.attn with written :=
          if frames = [] ∨ u.attn.written.contains (t, d.position) then u.attn.written else (t, d.position) :: u.attn.written } }) s

/-- Whether a slot is one of a step's tentative slots: node x writes position n - 1 + x (R223), its number modulo 256 in a prefill step. -/
def StepRec.ownsSlot (r : StepRec) (d : SlotData) : Bool :=
  decide (r.n ≠ 0 ∧ r.kv ≤ d.position ∧ (d.position - r.kv) % 256 = d.node % 256 ∧ d.position < r.kv + r.slotSpan)

/-- Slots that have come for a latched layer: those of the step are written once its lists cover them. -/
def State.takeSlots (s : State) (t : StepTag) (b h : Nat) (slots : List SlotData) : State :=
  match s.stepOf t with
  | none => s
  | some c =>
    let mine := slots.filter c.ownsSlot
    if mine = [] then s
    else
      let y := s.latchPages t (mine.foldl (fun m d => max m d.position) 0)
      if !y.2 then y.1 else y.1.writeSlots t b h mine

/-- The slots that waited for a layer's latch are written (R212). -/
def State.releaseSlots (s : State) (t : StepTag) (b h : Nat) : State :=
  let mine := (s.attn.slotsWait.filter fun x => x.1 = t).map (·.2)
  if mine = [] then s
  else { s with attn := { s.attn with slotsWait := s.attn.slotsWait.filter fun x => x.1 ≠ t } }.takeSlots t b h mine

/-- Query rows kept, with the lists latched at the first of them (R211, R212, R213); slots that came before are then written. -/
def State.keepRows (s : State) (t : StepTag) (last : Bool) (rows : List QueryRow) (p : Pricking) (r : LayerRec) : State :=
  if s.ranksHeld r = [] then s
  else match s.stepOf t with
    | none => s
    | some rec =>
      let x := s.latchPages t (lastSlot rec rows)
      if !x.2 then x.1
      else ({ x.1 with attn := { x.1.attn with
          rows := addRows t rows x.1.attn.rows
          closed := if last ∧ !x.1.attn.closed.contains t then t :: x.1.attn.closed else x.1.attn.closed } }.setPrecT
        t fun q => { q with rows := q.rows + rows.length }).releaseSlots t (kvBits p) r.kvHeads

/-- The KV head that a query head is paired with (R126, R271): 0 contiguous, 1 strided. -/
def pairHead (r : LayerRec) (qHead : Nat) : Nat := if r.pairing = 0 then qHead / max 1 (r.qHeads / max 1 r.kvHeads) else qHead % max 1 r.kvHeads

/-- A query row as this module forms it from its FP32 head vector: paired, rotated with its KV head's signs and requantised to I4B, one exponent per block
(R126, R127, R131), with what its requantisation counts. -/
def formRow (r : LayerRec) (q : QueryRow) (v : List Fp32) : QueryRow × Quant :=
  let g := pairHead r q.qHead
  let x := quantHead 4 r.headSeed g v
  ({ q with kvHead := g, elems := x.1, scales := x.2.1 }, x.2.2)

/-- The query rows of a command: received as they are, or formed here. -/
def rowsFor (own : Bool) (r : LayerRec) (rows : List QueryRow) (heads : List (List Fp32)) : List QueryRow × Quant :=
  if own then
    let x := (List.zip rows heads).map fun e => formRow r e.1 e.2
    (x.map (·.1), Quant.sum (x.map (·.2)))
  else (rows, Quant.sum [])

/-- QUERY: the layer module forms its rows and sends them to the spread; a spread module keeps them and latches its lists (R127, R131, R212, R228). -/
def execQuery (source : Nat) (tag : StepTag) (last : Bool) (q : QueryRows) (s : State) : Result :=
  .next (match s.prickT tag, s.layerT tag with
  | some p, some r =>
    let own := decide (source = s.machineId)
    let x := s.taken source tag
    if !x.2 || (own && decide (q.heads.length ≠ q.rows.length)) then x.1
    else
      let f := rowsFor own r q.rows q.heads
      let s1 := (x.1.countQuant tag f.2).setStep tag fun c => c.learn f.1 (addRows tag f.1 x.1.attn.rows |>.filter (·.1 = tag)).length r.qHeads last
      let s2 := if own then
          ((s1.spreadIds r).dedup.filter (· ≠ s.machineId)).foldl (fun u d => u.sendData tag d last true (.query f.1)) s1
        else s1
      s2.keepRows tag last f.1 p r
  | _, _ => s)

/-- Whether a slot's bytes fit a layer: a key and a value vector with four scales each for every KV head (R201, R202). -/
def slotFits (b h : Nat) (d : SlotData) : Bool :=
  decide (d.heads.length = h) && d.heads.all fun x =>
    decide (x.1.length = headBytes b ∧ x.2.1.length = headBytes b ∧ x.2.2.1.length = 4 ∧ x.2.2.2.length = 4)

/-- Whether slots sent to a module are the last of the step that it gets: where the width is not known, a free value (log 16). -/
def State.lastOfSlots (s : State) (r : LayerRec) (c : StepRec) (t : StepTag) (dest : Nat) (slots : List SlotData) : Bool :=
  let top := slots.foldl (fun m d => max m d.position) 0
  if c.width = 0 then decide (Config.remote t.motif t.seq t.step 8 top % 2 = 1)
  else !((List.range (c.n + c.width - 2 - top)).any fun i => (s.pageHolders r ((top + 1 + i) / 16)).contains dest)

/-- Slots sent by the layer module to the home and the shadow module of each page (R206). -/
def State.sendSlots (s : State) (t : StepTag) (r : LayerRec) (slots : List SlotData) : State :=
  match s.stepOf t with
  | none => s
  | some rec => ((s.spreadIds r).dedup.filter (· ≠ s.machineId)).foldl (fun u d =>
      let mine := slots.filter fun e => (u.pageHolders r (e.position / 16)).contains d
      if mine = [] then u else u.sendData t d (u.lastOfSlots r rec t d mine) true (.slot mine)) s

/-- One head vector as a page holds it: element fields and block exponents (R201, R202). -/
def storedHead (b : Nat) (x : List Int × List Nat × Quant) : Bytes × Bytes :=
  ((List.range 4).flatMap fun i => blockField b ((x.1.drop (32 * i)).take 32), x.2.1.map (BitVec.ofNat 8))

/-- A slot as this module forms it from the FP32 keys and values of its KV heads: head-rotated and requantised to the motif's KV format, one exponent per
block (R127, R131, R203), with what its requantisation counts. -/
def formSlot (b : Nat) (r : LayerRec) (d : SlotData) (heads : List (List Fp32 × List Fp32)) : SlotData × Quant :=
  let x := heads.mapIdx fun g e => (quantHead b r.headSeed g e.1, quantHead b r.headSeed g e.2)
  ({ d with heads := x.map fun e => ((storedHead b e.1).1, (storedHead b e.2).1, (storedHead b e.1).2, (storedHead b e.2).2) },
   Quant.sum (x.flatMap fun e => [e.1.2.2, e.2.2.2]))

/-- The slots of a command: received as they are, or formed here. -/
def slotsFor (own : Bool) (b : Nat) (r : LayerRec) (slots : List SlotData) (heads : List (List (List Fp32 × List Fp32))) : List SlotData × Quant :=
  if own then
    let x := (List.zip slots heads).map fun e => formSlot b r e.1 e.2
    (x.map (·.1), Quant.sum (x.map (·.2)))
  else (slots, Quant.sum [])

/-- SLOT: the layer module forms each slot and sends it to the home and shadow modules of its page; each of them writes it, once the step's first query row
has latched the layer's lists there (R203, R206, R212). -/
def execSlot (source : Nat) (tag : StepTag) (q : SlotRows) (s : State) : Result :=
  .next (match s.prickT tag, s.layerT tag with
  | some p, some r =>
    let own := decide (source = s.machineId)
    let f := slotsFor own (kvBits p) r q.slots q.heads
    if f.1 = [] ∨ (own = true ∧ q.heads.length ≠ q.slots.length) ∨ !(f.1.all (slotFits (kvBits p) r.kvHeads)) then s
    else
      let x := s.taken source tag
      if !x.2 then x.1
      else
        let s1 := x.1.countQuant tag f.2
        let s2 := if own then s1.sendSlots tag r f.1 else s1
        if s2.ranksHeld r = [] then s2
        else if (s2.latchOf tag).isNone then { s2 with attn := { s2.attn with slotsWait := s2.attn.slotsWait ++ f.1.map fun d => (tag, d) } }
        else s2.takeSlots tag (kvBits p) r.kvHeads f.1
  | _, _ => s)

/-! ### Work units (R193 to R197, R219, R220, R224) -/

/-- Depth of tentative node x on the path of a row: the ancestors before it (R38, R193). -/
def nodeDepth (ancestors : BitVec 64) (x : Nat) : Nat := ((List.range x).filter fun i => ancestors.getLsbD i).length

/-- The position that slot position p counts at for a row: a tentative slot counts at its node's (R224). -/
def rowCounts (q : QueryRow) (p : Nat) : Nat :=
  if rowPrefill q ∨ p < q.kvLength then p else q.kvLength + nodeDepth q.ancestors (p - q.kvLength)

/-- Whether a row attends slot position p before the mode narrows it (R224). -/
def rowSees (q : QueryRow) (p : Nat) : Bool :=
  if rowPrefill q then decide (p ≤ q.position)
  else decide (p < q.kvLength) || (decide (p < q.kvLength + 64) && q.ancestors.getLsbD (p - q.kvLength))

/-- Whether a row attends slot position p in a layer (R224): 0 causal, 1 causal exclusive, 2 window; `window` holds ω - 1. -/
def attends (r : LayerRec) (q : QueryRow) (p : Nat) : Bool :=
  rowSees q p &&
  (if r.attnMode = 1 then decide (p ≠ rowSlot q)
   else if r.attnMode = 2 then decide (q.position ≤ rowCounts q p + r.window)
   else true)

/-- One block's term of a score (R194); a block with scale 255 is all zero (R120). -/
def blockTerm (q k : List Int) (eq ek : Nat) : Fp32 :=
  if eq = 255 ∨ ek = 255 then 0 else fpScalePipe (fpOfInt (sumI (List.zipWith (· * ·) q k))) ((eq : Int) + ek - 254)

/-- Whether a block's term is clamped (R197). -/
def blockTermOver (q k : List Int) (eq ek : Nat) : Bool :=
  !decide (eq = 255 ∨ ek = 255) && fpScaleOver (fpOfInt (sumI (List.zipWith (· * ·) q k))) ((eq : Int) + ek - 254)

/-- A value and how many results were clamped on the way to it (R123). -/
abbrev Counted (α : Type) := α × Nat

/-- A sum, its clamps counted. -/
def addCount (a : Counted Fp32) (b : Fp32) : Counted Fp32 := (fpAdd a.1 b, a.2 + b2n (fpAddOver a.1 b))

/-- The score of a row and a token (R194). -/
def score (lambda : Fp32) (b : Nat) (q : QueryRow) (key scales : Bytes) : Counted Fp32 :=
  let block := fun i => ((q.elems.drop (32 * i)).take 32, blockElems b ((key.drop (4 * b * i)).take (4 * b)), q.scales.getD i 0, field scales i 1)
  let term := fun i => blockTerm (block i).1 (block i).2.1 (block i).2.2.1 (block i).2.2.2
  let n := ((List.range 4).map fun i => b2n (blockTermOver (block i).1 (block i).2.1 (block i).2.2.1 (block i).2.2.2)).sum
  let s := addCount (addCount (addCount (term 0, n) (term 1)) (term 2)) (term 3)
  (fpMulPipe lambda s.1, s.2 + b2n (fpMulOver lambda s.1))

/-- The value of element x of a block with scale byte e, in a pipeline. -/
def pipeValue (x : Int) (e : Nat) : Counted Fp32 :=
  if e = 255 then (0, 0) else (fpScalePipe (fpOfInt x) ((e : Int) - 127), b2n (fpScaleOver (fpOfInt x) ((e : Int) - 127)))

/-- The value vector of a token in FP32 (R195). -/
def valueVec (b : Nat) (value scales : Bytes) : Counted (List Fp32) :=
  let v := (List.range 4).flatMap fun i => (blockElems b ((value.drop (4 * b * i)).take (4 * b))).map fun x => pipeValue x (field scales i 1)
  (v.map (·.1), (v.map (·.2)).sum)

/-- The running values of a row before its first page (R195). -/
def RowRun.start (q : QueryRow) : RowRun := { row := q, empty := true, m := 0, l := 0, o := List.replicate 128 0, clamps := 0 }

/-- The largest of a list of values. -/
def fpMaxOf : List Fp32 → Fp32
  | [] => 0
  | a :: t => t.foldl fpMax a

/-- Sums of two lists of values, with how many of them are clamped. -/
def addAll (a b : List Fp32) : Counted (List Fp32) := (List.zipWith fpAdd a b, (List.zipWith (fun x y => b2n (fpAddOver x y)) a b).sum)

/-- A token taken into a row's running values with its score and value vector (R195). -/
def RowRun.token (y : RowRun) (tok : Fp32 × List Fp32) : RowRun :=
  let e := fpExpNeg (fpSub tok.1 y.m)
  let o := addAll y.o (tok.2.map fun v => fpMulPipe e v)
  { y with l := fpAdd y.l e, o := o.1, clamps := y.clamps + b2n (fpSubOver tok.1 y.m) + b2n (fpAddOver y.l e) + o.2 }

/-- One page's update of a row's running values, from the scores and values of the tokens attended, in slot order (R195). -/
def RowRun.page (x : RowRun) (toks : List (Fp32 × List Fp32)) : RowRun :=
  if toks = [] then x
  else
    let pm := fpMaxOf (toks.map (·.1))
    let x0 : RowRun := if x.empty then { x with empty := false, m := pm, l := 0, o := List.replicate 128 0 } else x
    let c := fpExpNeg (fpSub x0.m pm)
    let x1 : RowRun := if fpLt x0.m pm then { x0 with l := fpMulPipe x0.l c, o := x0.o.map fun v => fpMulPipe v c, m := pm, clamps := x0.clamps + b2n (fpSubOver x0.m pm) } else x0
    toks.foldl RowRun.token x1

/-- The tokens of a page that a row attends, with scores and values, and the results clamped in forming them. -/
def pageTokens (m : Memory) (r : LayerRec) (b frame page : Nat) (q : QueryRow) : Counted (List (Fp32 × List Fp32)) :=
  let toks := (List.range 16).filterMap fun t =>
    if attends r q (16 * page + t) then
      let g := q.kvHead
      some (score r.lambda b q (memRead m (frame + keyOff b g t) (headBytes b)) (memRead m (frame + keyScaleOff b r.kvHeads g t) 4),
        valueVec b (memRead m (frame + valueOff b g t) (headBytes b)) (memRead m (frame + valueScaleOff b r.kvHeads g t) 4))
    else none
  (toks.map fun x => (x.1.1, x.2.1), (toks.map fun x => x.1.2 + x.2.2).sum)

/-- A row's running values with a page of the module taken in (R195). -/
def RowRun.walk (m : Memory) (r : LayerRec) (b : Nat) (x : RowRun) (e : Nat × Nat) : RowRun :=
  let toks := pageTokens m r b e.2 e.1 x.row
  let y := x.page toks.1
  { y with clamps := y.clamps + toks.2 }

/-- Whether a replay takes a page from its shadow here because the home of the page has recalled the step for an uncorrectable word (R256). Which page that
word lies in no message tells this module: a free value (log 16). -/
def State.shadowForDamage (s : State) (t : StepTag) (r : LayerRec) (c : StepRec) (page : Nat) : Bool :=
  c.damaged.contains ((s.spreadIds r).getD (homeRank r.k page) 0xFFFF) && decide (Config.remote t.motif t.seq t.step (21 + t.layer) page % 2 = 1)

/-- The pages a module serves for a step's layer, in the order of R219, each with its frame: home pages, then the shadow pages of lost ranks (R207) and of
damaged home frames (R256), up to the step's last slot. -/
def State.pagesServed (s : State) (t : StepTag) (r : LayerRec) (l : Latch) : List (Nat × Nat) :=
  match s.prickT t, s.stepOf t with
  | some p, some c =>
    let rise := fun (x : List (Nat × Nat)) => x.mergeSort fun a b => decide (a.1 ≤ b.1)
    let used := fun (x : List (Nat × Nat)) => x.filter fun e => decide (16 * e.1 < c.kv + c.slotSpan)
    let walk := fun (d : Descriptor × Descriptor → Descriptor) (x : List (Nat × Nat)) => match l.lists with
      | some ds => x.map (s.walkFrame l (d ds) r.k (frameSize p))
      | none => x
    walk (·.1) (rise (used (l.home.filter fun e => s.homeHere r e.1 && !c.avoid.contains (t.layer, e.1)))) ++
    walk (·.2) (rise (used (l.shadow.filter fun e => s.shadowHere r e.1 && (s.rankLost r (homeRank r.k e.1) || s.shadowForDamage t r c e.1))))
  | _, _ => []

/-- Whether a page is served from a shadow list. -/
def State.shadowServed (s : State) (r : LayerRec) (page : Nat) : Bool := !s.homeHere r page

/-- The runs per row group: the smallest number that gives at least 48 units, at most the pages (R219). -/
def runCount (groups pages : Nat) : Nat := if groups = 0 then 0 else min ((47 + groups) / groups) pages

/-- Run i of the pages split as equally as possible, the longer runs first (R219). -/
def runOf {α : Type} (pages : List α) (runs i : Nat) : List α :=
  let q := pages.length / runs
  let r := pages.length % runs
  (pages.drop (i * q + min i r)).take (q + b2n (decide (i < r)))

/-- The KV length that the commits applied here have reached for the sequence of a step: what the last step that ended left, or, where none has ended, what
the first step found; a spare, which may come in later, takes the smallest of the steps in flight that it knows up to this one (R238, R293), and a companion step,
which no COMMIT ends, its own (log 73). -/
def State.kvBase (s : State) (t : StepTag) (c : StepRec) : Option Nat :=
  if t.companion.isSome then some c.kv
  else match s.steps.live.find? fun r => sameSeq t r && r.ended && decide (r.step < t.step) with
  | some e => some (e.after - 1)
  | none =>
    if s.role = 1 ∨ t.step = 1 then
      some (((s.seqInFlight t).filter fun r => decide (r.step ≤ t.step ∧ r.n ≠ 0)).foldl (fun m r => min m r.kv) c.kv)
    else (s.steps.live.find? fun r => sameSeq t r && decide (r.step = 1 ∧ r.n ≠ 0)).map (·.kv)

/-- Whether every slot of a page is there for a step: what earlier commits left, what the steps it depends on write, and what it writes itself, each
acknowledged here at the lineage in force (R220, R238, R260). A generation step has every earlier step of its sequence committed. -/
def State.slotsReady (s : State) (t : StepTag) (page : Nat) : Bool :=
  match s.stepOf t with
  | none => false
  | some c => match s.kvBase t c with
    | none => false
    | some base =>
      (c.prefill || decide (base = c.kv)) && decide (c.width ≠ 0) &&
      (List.range 16).all fun i =>
        let p := 16 * page + i
        decide (p < base ∨ c.kv + c.width ≤ p) ||
        s.attn.written.any fun w => decide (w.2 = p ∧ w.1.layer = t.layer) && (s.seqInFlight t).any fun r => decide (r.step ≤ t.step) && sameStep w.1 r &&
          decide (w.1.lineage = if sameTag t w.1 then t.lineage else floorAt r t.layer)

/-- Whether the compaction of the sequence's earlier steps is finished here for a layer (R225). -/
def State.compacted (s : State) (t : StepTag) : Bool :=
  !(s.attn.compactDue.any fun x => decide (x.1.motif = t.motif ∧ x.1.seq = t.seq ∧ x.1.companion = t.companion ∧ x.1.layer = t.layer))

/-- Whether a unit of a row group exists already: at a pipeline, handed over, or merged (run at or above the runs). -/
def State.unitKnown (s : State) (t : StepTag) (group run runs : Nat) : Bool :=
  (s.attn.pipes.any fun e => decide (e.2.tag = t ∧ e.2.group = group ∧ e.2.run = run)) ||
  (s.attn.units.any fun u => decide (u.tag = t ∧ u.group = group ∧ (u.run = run ∨ u.run = runs)))

/-- Whether a block read for a row group carries scale 255 (R120): in the rows or in a token that a row of the group attends. -/
def badScaleIn (m : Memory) (r : LayerRec) (b : Nat) (rows : List QueryRow) (pages : List (Nat × Nat)) : Bool :=
  (rows.any fun q => q.scales.any fun e => e = 255) ||
  rows.any fun q => pages.any fun e => (List.range 16).any fun t => attends r q (16 * e.1 + t) &&
    ((memRead m (e.2 + keyScaleOff b r.kvHeads q.kvHead t) 4).contains 255 || (memRead m (e.2 + valueScaleOff b r.kvHeads q.kvHead t) 4).contains 255)

/-- The unit of a row group and a run, computed page by page (R195, R219, R220). -/
def State.computeUnit (s : State) (t : StepTag) (r : LayerRec) (b group run : Nat) (rows : List QueryRow) (pages : List (Nat × Nat)) : Unit_ :=
  { tag := t, group := group, run := run
    rows := rows.map fun q => pages.foldl (RowRun.walk s.mem r b) (RowRun.start q)
    shadow := pages.any fun e => s.shadowServed r e.1 }

/-- A unit starts on a pipeline: shadow pages and bad scales noted, and the pipeline's work counted for a duplicate audit (R120, R195, R207, R365, R397). -/
def State.startUnit (s : State) (pipe : Nat) (t : StepTag) (r : LayerRec) (b group run : Nat) (rows : List QueryRow) (pages : List (Nat × Nat)) : State :=
  let shadows := (pages.filter fun e => s.shadowServed r e.1).length
  let s1 : State := { s with attn := { s.attn with pipes := (pipe, s.computeUnit t r b group run rows pages) :: s.attn.pipes } }
  let s2 := if shadows = 0 then s1
    else (s1.setPrecT t fun p => { p with shadowPages := p.shadowPages + shadows }).stepSlow t slowTakeover
  let s3 := s2.unitServes t (192 + pipe) (group, run)
  if badScaleIn s.mem r b rows pages then
    s3.event { cls := 10, code := 3, op := 7, kind := kAttention, index := pipe, tag := some t, epoch := 0, detail := [] }
  else s3

/-- Whether every unit before (group, run) in ascending order has been assigned: units go to pipelines in that order (R219). -/
def State.unitTurn (s : State) (t : StepTag) (group run runs : Nat) : Bool :=
  ((List.range group).all fun g => (List.range runs).all fun i => s.unitKnown t g i runs) && (List.range run).all fun i => s.unitKnown t group i runs

/-- WORK_UNIT: a pipeline starts the unit of a complete row group and a run (R193 to R197, R219, R220, R225, R228). -/
def execWorkUnit (pipe : Nat) (tag : StepTag) (group run : Nat) (s : State) : Result :=
  need (decide (pipe < 48)) .noSuchPipeline
    (match s.prickT tag, s.layerT tag, s.latchOf tag with
    | some p, some r, some l => match s.groupCount tag r, s.rowGroup tag r group with
      | some groups, some rows =>
        let pages := s.pagesServed tag r l
        let runs := runCount groups pages.length
        let mine := runOf pages runs run
        let ready := s.usable tag && decide (group < groups ∧ run < runs) && decide ((s.island (192 + pipe)).state = 0) &&
          !(s.attn.pipes.any fun e => e.1 = pipe) && !s.unitKnown tag group run runs && s.unitTurn tag group run runs && s.compacted tag &&
          mine.all (fun e => s.slotsReady tag e.1 && !s.frameFlagged e.2 (frameSize p))
        onlyIf ready s (s.startUnit pipe tag r (kvBits p) group run rows mine)
      | _, _ => s
    | _, _, _ => s)

/-- WORK_UNIT_END: the pipeline hands one row partial per row to the merge (R196). -/
def execWorkUnitEnd (pipe : Nat) (s : State) : Result :=
  need (decide (pipe < 48)) .noSuchPipeline
    (match s.attn.pipes.find? fun e => e.1 = pipe with
    | none => s
    | some e => { s with attn := { s.attn with pipes := s.attn.pipes.filter fun x => x.1 ≠ pipe, units := e.2 :: s.attn.units } })

/-! ### Merge (R221, R229 to R233) -/

/-- A partial as its three values; absent values are an EMPTY partial. -/
structure Part where
  empty : Bool
  m : Fp32
  l : Fp32
  o : List Fp32
  /-- results clamped on the way to it (R123) -/
  clamps : Nat
  deriving DecidableEq, Repr

/-- The EMPTY partial (R196). -/
def Part.none : Part := { empty := true, m := 0, l := 0, o := List.replicate 128 0, clamps := 0 }

/-- A partial taken into a merge with its weight exp(m_i - M) (R231). -/
def Part.weigh (x : Part) (p : Part) (w : Fp32) : Part :=
  let o := addAll x.o (p.o.map fun v => fpMulPipe v w)
  { x with l := fpAdd x.l (fpMulPipe p.l w), o := o.1, clamps := x.clamps + p.clamps + b2n (fpAddOver x.l (fpMulPipe p.l w)) + o.2 }

/-- Partials merged in the order given (R231). -/
def mergeParts (ps : List Part) : Part :=
  let live := ps.filter fun p => !p.empty
  if live = [] then Part.none
  else
    let m := fpMaxOf (live.map (·.m))
    let w := fun (p : Part) => fpExpNeg (fpSub p.m m)
    let subs := fun (p : Part) => b2n (fpSubOver p.m m)
    match live with
    | [] => Part.none
    | a :: t =>
      let start : Part := { empty := false, m := m, l := fpMulPipe a.l (w a), o := a.o.map fun v => fpMulPipe v (w a), clamps := a.clamps + subs a }
      t.foldl (fun (x : Part) p => { x.weigh p (w p) with clamps := (x.weigh p (w p)).clamps + subs p }) start

/-- The module partial of a row: its units' partials merged in ascending run order (R221). -/
def modulePart (units : List Unit_) (q : QueryRow) : Part :=
  mergeParts ((units.mergeSort fun a b => decide (a.run ≤ b.run)).filterMap fun u =>
    (u.rows.find? fun x => x.row.row = q.row).map fun x => { empty := x.empty, m := x.m, l := x.l, o := x.o, clamps := x.clamps })

/-- The record of a partial (R232). -/
def Part.record (p : Part) (row layer rank : Nat) (shadow merged : Bool) : RowPartial :=
  { row := row, layer := layer, rank := rank, empty := p.empty, merged := merged, shadow := shadow, m := p.m, l := p.l, o := p.o }

/-- The rank that merges a row (R230), and the module that holds it. -/
def mergeRank (k row : Nat) : Nat := row % k
def State.mergeHolder (s : State) (r : LayerRec) (row : Nat) : Nat := (s.spreadIds r).getD (mergeRank r.k row) 0xFFFF

/-- What a module sends for a row: its module partial under its lowest rank, and EMPTY partials under the other ranks it holds (log 22). -/
def rankRecords (ranks : List Nat) (p : Part) (row layer : Nat) (shadow : Bool) : List RowPartial :=
  ranks.mapIdx fun i rank => if i = 0 then p.record row layer rank shadow false else Part.none.record row layer rank false false

/-- Partials added at a merge holder, one per row and rank. -/
def addParts (t : StepTag) (recs : List RowPartial) (had : List (StepTag × RowPartial)) : List (StepTag × RowPartial) :=
  had ++ (recs.filter fun r => !(had.any fun x => decide (x.1 = t ∧ x.2.row = r.row ∧ x.2.rank = r.rank))).map fun r => (t, r)

/-- The partials of a row that are in, in ascending rank order; none unless all k are in (R230, R233). -/
def rowReady (t : StepTag) (k row : Nat) (parts : List (StepTag × RowPartial)) : Option (List RowPartial) :=
  (List.range k).foldr (fun i acc => match acc, parts.find? (fun x => decide (x.1 = t ∧ x.2.row = row ∧ x.2.rank = i)) with
    | some l, some x => some (x.2 :: l)
    | _, _ => none) (some [])

/-- A RowPartial's values. -/
def partOf (r : RowPartial) : Part := { empty := r.empty, m := r.m, l := r.l, o := r.o, clamps := 0 }

/-- The merged record of a row (R231, R232). -/
def mergedRecord (recs : List RowPartial) (row layer rank : Nat) : RowPartial :=
  (mergeParts (recs.map partOf)).record row layer rank (recs.any (·.shadow)) true

/-- The results clamped in the merge of a row (R123). -/
def mergeClamps (recs : List RowPartial) : Nat := (mergeParts (recs.map partOf)).clamps

/-- The attention output of a merged row: o divided by L, or zeros (R231). -/
def attnOut (r : RowPartial) : List Fp32 := if r.empty then List.replicate 128 0 else r.o.map fun v => fpDiv v r.l

/-- The results clamped in the division by L (R123). -/
def attnOver (r : RowPartial) : Nat := if r.empty then 0 else (r.o.map fun v => b2n (fpDivOver v r.l)).sum

/-- Merged rows taken by the layer module: outputs formed, void rows counted; rows that a shadow list served show takeover in the step (R207, R227, R231). -/
def State.takeMerged (s : State) (t : StepTag) (recs : List RowPartial) : State :=
  let new := recs.filter fun r => !(s.attn.merged.any fun x => decide (x.1 = t ∧ x.2.row = r.row))
  let voids := (new.filter (·.empty)).length
  let s1 := ({ s with attn := { s.attn with
    merged := s.attn.merged ++ new.map (fun r => (t, r))
    outs := s.attn.outs ++ new.map fun r => (t, r.row, attnOut r) } } : State).countClamps t (new.map attnOver).sum
  let s2 := if new.any (·.shadow) then s1.stepSlow t slowTakeover else s1
  if voids = 0 then s2
  else (s2.setPrecT t fun p => { p with voidRows := p.voidRows + voids }).count fun c => { c with voidRows := sat64 c.voidRows voids }

/-- Whether this module has sent the layer module every row of a layer that it merges, or does with these (R243). -/
def State.allMerged (s : State) (t : StepTag) (r : LayerRec) (now : List Nat) : Bool :=
  s.attn.closed.contains t && (s.rowsOf t).all fun q => decide (s.mergeHolder r q.row ≠ s.machineId) || now.contains q.row || s.attn.sentRows.contains (t, q.row)

/-- Rows of a list for which this module, as merge holder, has all k partials: merged and sent to the layer module (R230, R233). -/
def State.mergeRows (s : State) (t : StepTag) (r : LayerRec) (rows : List Nat) : State :=
  let sets := rows.filterMap fun row => (rowReady t r.k row s.attn.parts).map fun l => (row, l)
  let done := sets.map fun e => mergedRecord e.2 e.1 t.layer (mergeRank r.k e.1)
  if done = [] then s
  else
    let s1 := ({ s with attn := { s.attn with
      sentRows := done.map (fun d => (t, d.row)) ++ s.attn.sentRows
      parts := s.attn.parts.filter fun x => !(decide (x.1 = t) && done.any fun d => d.row = x.2.row) } } : State).countClamps t (sets.map fun e => mergeClamps e.2).sum
    let owner := s.holder r.owner
    if owner = s.machineId then s1.takeMerged t done else s1.sendData t owner (s1.allMerged t r []) true (.merged done)

/-- The records of a row group that go to one merge holder. -/
def recordsFor (s : State) (r : LayerRec) (dest : Nat) (recs : List RowPartial) : List RowPartial :=
  recs.filter fun x => s.mergeHolder r x.row = dest

/-- Whether a row group's partials are the last that go to a merge holder: every other group with rows of that holder has gone (R243). -/
def State.lastPartials (s : State) (t : StepTag) (r : LayerRec) (groups runs group dest : Nat) : Bool :=
  (List.range groups).all fun i => decide (i = group) || (s.attn.units.any fun u => decide (u.tag = t ∧ u.group = i ∧ u.run = runs)) ||
    match s.rowGroup t r i with
    | some qs => !(qs.any fun q => s.mergeHolder r q.row = dest)
    | none => false

/-- MODULE_MERGE: a row group's units give one module partial per row, sent to each row's merge holder (R221, R229, R230). -/
def execModuleMerge (tag : StepTag) (group : Nat) (s : State) : Result :=
  .next (match s.layerT tag, s.latchOf tag with
  | some r, some l => match s.groupCount tag r, s.rowGroup tag r group with
    | some groups, some rows =>
      let runs := runCount groups (s.pagesServed tag r l).length
      let units := s.attn.units.filter fun u => decide (u.tag = tag ∧ u.group = group)
      if !s.usable tag || !decide (group < groups) || (units.any fun u => u.run = runs) || !((List.range runs).all fun i => units.any fun u => u.run = i) then s
      else
        let shadow := units.any (·.shadow)
        let parts := rows.map fun q => (q.row, modulePart units q)
        let recs := parts.flatMap fun e => rankRecords (s.ranksHeld r) e.2 e.1 tag.layer shadow
        let mark : Unit_ := { tag := tag, group := group, run := runs, rows := [], shadow := shadow }
        let s1 := ({ s with attn := { s.attn with
          units := mark :: s.attn.units.filter (fun u => !decide (u.tag = tag ∧ u.group = group))
          parts := addParts tag (recordsFor s r s.machineId recs) s.attn.parts } } : State).countClamps tag (parts.map (·.2.clamps)).sum
        let dests := ((rows.map fun q => s.mergeHolder r q.row).dedup).filter (· ≠ s.machineId)
        let s2 := dests.foldl (fun u d => u.sendData tag d (u.lastPartials tag r groups runs group d) true (.partialRows (recordsFor s r d recs))) s1
        s2.mergeRows tag r (rows.map (·.row))
    | _, _ => s
  | _, _ => s)

/-- PARTIAL: partials reach a merge holder, which merges each row whose k partials are in (R230, R233). -/
def execPartialRows (_source : Nat) (tag : StepTag) (recs : List RowPartial) (s : State) : Result :=
  .next (match s.layerT tag with
  | none => s
  | some r =>
    let x := s.arrive tag
    if !x.2 then x.1
    else
      let mine := recordsFor x.1 r x.1.machineId recs
      let s1 : State := { x.1 with attn := { x.1.attn with parts := addParts tag mine x.1.attn.parts } }
      s1.mergeRows tag r (mine.map (·.row)).dedup)

/-- MERGED: merged rows reach the layer module (R231). -/
def execMerged (tag : StepTag) (recs : List RowPartial) (s : State) : Result :=
  .next (match s.layerT tag with
  | none => s
  | some r =>
    let x := s.arrive tag
    if !x.2 || !x.1.owns r then x.1 else x.1.takeMerged tag recs)

/-! ### Compaction (R225) -/

/-- The frames of a page for a step's layer: those its latch holds, else those of the lists as they stand. -/
def State.framesFor (s : State) (t : StepTag) (page : Nat) : List Nat :=
  match s.latchOf t with
  | some l => framesOf l page
  | none => match s.prickT t with
    | some p => [true, false].filterMap fun home => (s.frameRef t page home).map fun f => f.frame * frameSize p
    | none => []

/-- A slot copied on another module, written into the page's frames here (R225). -/
def State.writeCopy (s : State) (t : StepTag) (b h : Nat) (d : SlotData) : State :=
  { s with
    mem := (s.framesFor t (d.position / 16)).foldl (fun m f => writeSlot m b h f (d.position % 16) d) s.mem
    attn := { s.attn with compactDue := s.attn.compactDue.filter fun x => !decide (sameTag t x.1 = true ∧ x.1.layer = t.layer ∧ x.2 = d.position) } }

/-- COMPACT: a copy that another module sends is written once this module has applied the step's COMMIT, so that no source is overwritten before it is
copied; one that comes earlier waits (R225). -/
def execCompact (tag : StepTag) (slot : SlotData) (s : State) : Result :=
  .next (match s.prickT tag, s.layerT tag with
  | some p, some r =>
    if !slotFits (kvBits p) r.kvHeads slot then s
    else if s.stepOver tag then s.writeCopy tag (kvBits p) r.kvHeads slot
    else { s with attn := { s.attn with compactWait := s.attn.compactWait ++ [(tag, slot)] } }
  | _, _ => s)

end Sys2Proof.Machine
end

