-- ==== Sys2Proof/Machine/Sequences.lean ====
section
/-! DEFINITION. Sequences and their commands (R20 to R46, R61 to R68, R209, R214, R217). -/

namespace Sys2Proof.Machine

/-! ### The table of sequences -/

/-- The host's open sequence of a motif and id on this head. -/
def State.findSeq (s : State) (motif id : Nat) : Option Seq :=
  s.seqs.open_.find? fun q => decide (q.motif = motif ∧ q.id = id ∧ q.companion = none)

/-- The companion that a draft motif keeps for a main sequence (R37). -/
def State.findCompanion (s : State) (draft main id : Nat) : Option Seq :=
  s.seqs.open_.find? fun q => decide (q.motif = draft ∧ q.id = id ∧ q.companion = some main)

/-- Two names of one sequence. -/
def seqIs (a b : Seq) : Bool := decide (a.motif = b.motif ∧ a.id = b.id ∧ a.companion = b.companion)

/-- Replaces a sequence by its new value. -/
def State.putSeq (s : State) (q : Seq) : State :=
  { s with seqs := { s.seqs with open_ := mapFirst (seqIs q) (fun _ => q) s.seqs.open_ } }

/-- Adds a sequence. -/
def State.addSeq (s : State) (q : Seq) : State := { s with seqs := { s.seqs with open_ := s.seqs.open_ ++ [q] } }

/-- Host sequences open on this head: companions do not count (R23, R37). -/
def State.openCount (s : State) : Nat := (s.seqs.open_.filter fun q => q.companion.isNone).length

/-- Open sequences of a motif and those that name it as their draft, its companions included (R20, R37). How many sequences headed on other modules name it
as their draft no message tells: a free value where the configuration has other members (log 16). -/
def State.usersOf (s : State) (motif : Nat) : Nat :=
  (s.seqs.open_.filter fun q => q.companion.isNone && decide (q.motif = motif ∨ q.draft = some motif)).length +
    (if s.cfg.cur.members.any (fun m => m.machineId ≠ s.machineId) then Config.remote motif 0 s.boxes.consumed 31 0 % (15 * Config.maxSeqs + 1) else 0)

/-- The tag of a sequence's steps, for finding them. -/
def seqTag (q : Seq) : StepTag :=
  { step := 0, seq := q.id, motif := q.motif, gen := 0, layer := 0, lineage := 0, companion := q.companion }

/-- Whether a step of a sequence is in flight. -/
def State.seqBusy (s : State) (q : Seq) : Bool := !(s.seqInFlight (seqTag q)).isEmpty

/-- The state code of R79. -/
def SeqState.code : SeqState → Nat
  | .opened => 0
  | .appending => 1
  | .generating => 2
  | .closing => 3

/-- KV length (R24). -/
def Seq.kv (q : Seq) : Nat := q.tokens.length - 1

/-- A sequence just opened (R22, R28). -/
def Seq.start (motif id seed : Nat) (hostPages : Bool) (draft companion : Option Nat) (sampling : Sampling) : Seq :=
  { motif := motif, id := id, companion := companion, state := .opened, tokens := [], seed := seed, hostPages := hostPages, draft := draft,
    sampling := sampling, nextStep := 1, append := none, gen := none, nextTree := none, closeBox := none }

/-- The companion of a sequence: it takes the main sequence's committed tokens (R37). Its pages are the firmware's; it draws nothing. -/
def companionOf (q : Seq) (draft : Nat) : Seq :=
  { Seq.start draft q.id q.seed false none (some q.motif) q.sampling with tokens := q.tokens }

/-! ### Step 5 of R62 -/

/-- Whether a motif's mirror is wanted here and not present (R471). -/
def MotifEntry.mirrorAwaited (e : MotifEntry) : Bool := decide (e.tiles ≠ 0 ∧ e.mirrorState ≠ 2)

/-- Whether a first load of a motif is in progress here as a command, from its consumption on (R278). -/
def State.loadConsumed (s : State) (motif : Nat) : Bool :=
  s.boxes.box.any fun e => activeCmd e.2 opMotifLoad &&
    match e.2.cur with | some c => decide (entryMotif c.entry = motif) && !bit (field c.entry 0x09 1) 0 | none => false

/-- Whether a READY motif is STALE on another module of its placement (R285): no message tells the head, so it is a free value (log 16). -/
def State.staleElsewhere (s : State) (p : Pricking) (motif : Nat) : Bool :=
  (s.motifModules p).any (· ≠ s.machineId) && decide (Config.remote motif (s.motif motif).gen.toNat s.boxes.consumed 32 0 % 2 = 1)

/-- What the motif of a sequence command makes of it: `none` while its first load goes on or its mirror is awaited, a refusal, or its pricking (R21, R27, R62, R278, R285, R471). -/
def State.seqMotif (s : State) (motif : Nat) : Option (Except (Nat × Nat) Pricking) :=
  let e := s.motif motif
  if e.state = 1 ∨ (e.state ≠ 2 ∧ s.loadConsumed motif) then none
  else if e.state ≠ 2 then some (.error (stNoMotif, 0))
  else match s.prickNow motif with
    | none => some (.error (stNoMotif, 0))
    | some p =>
      if !s.headOf p then some (.error (stNotHead, s.holder p.head))
      else if s.staleElsewhere p motif then some (.error (stNoMotif, 0))
      else if e.mirrorAwaited then none
      else some (.ok p)

/-- Runs a sequence command on its motif: it waits for a first load, is turned away, or has its effect. On a vacated module it waits for its
`ST_PEER_GONE` (R70). -/
def State.onMotif (s : State) (m motif : Nat) (f : Pricking → State) : State :=
  if s.take.vacatedTo.isSome then s
  else match s.seqMotif motif with
  | none => s
  | some (.error e) => s.failCmd m e.1 e.2
  | some (.ok p) => f p

/-- Whether a mailbox's `SEQ_APPEND` fetches its buffer. -/
def fetching (c : Cmd) : Bool := decide (entryOp c.entry = opSeqAppend ∧ c.xfer ≠ .none) && !c.begun

/-- Whether a sequence command waits for one of the same sequence that was consumed before it and has not begun (R52). A close ends an append that fetches its
buffer, and waits for none (R68). -/
def State.seqWaits (s : State) (m : Nat) : Bool :=
  match (s.box m).cur with
  | none => false
  | some c =>
    let before := s.boxes.box.filterMap fun e => if e.1 ≠ m && namesSeq e.2 (entryMotif c.entry) (entrySeq c.entry) then
      e.2.cur.filter fun d => !d.begun && decide (d.order < c.order) else none
    before ≠ [] && !(decide (entryOp c.entry = opSeqClose) && before.any fetching)

/-- Runs a sequence command, in the order of consumption among those of its sequence (R52). -/
def seqCommand (m op : Nat) (s : State) (f : State → State) : Result :=
  command m op s fun t => onlyIf (!t.seqWaits m) t (f t)

/-- Whether a `SEQ_CLOSE` of a sequence has been consumed: no step of it starts any more (R68). -/
def State.closeConsumed (s : State) (motif seq : Nat) : Bool :=
  s.boxes.box.any fun e => namesSeq e.2 motif seq && decide (e.2.opcode = opSeqClose)

/-- Whether no further step of a sequence starts: its close has been consumed, or a step of it has ended uncovered, so that its command ends once the layer is
known (R68, R211). -/
def State.barred (s : State) (motif seq : Nat) : Bool :=
  s.closeConsumed motif seq || s.seqs.short.any fun x => decide (x.1 = motif ∧ x.2.1 = seq)

/-- Runs a sequence command on its sequence. -/
def State.onSeq (s : State) (m : Nat) (f : Pricking → Seq → State) : State :=
  s.onMotif m (entryMotif (s.entryOf m)) fun p =>
    match s.findSeq (entryMotif (s.entryOf m)) (entrySeq (s.entryOf m)) with
    | none => s.failCmd m stNoSequence 0
    | some q => f p q

/-! ### Losses beyond the recovery promise (R207, R269, R295) -/

/-- Whether the group spare cannot stand in for a lost peer: there is none, or it is out, lost, or serves for another. -/
def State.spareTaken (s : State) (peer : Nat) : Bool :=
  match s.spareId with
  | none => true
  | some sp => decide (sp = peer) || s.fabric.missing.contains sp || s.take.spareOut || (match s.take.spareServes with | some p => decide (p ≠ peer) | none => false)

/-- Whether a module is lost and no other can stand in for it. -/
def State.lostForGood (s : State) (id : Nat) : Bool :=
  (s.fabric.missing.contains id && decide (groupOf id = groupOf s.machineId ∧ s.holder id = id) && s.spareTaken id) || s.take.farLost.contains id

/-- Whether a page of a sequence has lost both its home and its shadow, or its only copy (R207): the first page of each rank is the first to hold a position. -/
def State.pagesLost (s : State) (p : Pricking) (q : Seq) : Bool :=
  p.layers.any fun r => (List.range r.k).any fun i =>
    s.rankLost r i && (decide (r.k < 2) || s.rankLost r (shadowRank r.k i)) && decide (16 * i + 1 < q.tokens.length)

/-- Whether a sequence needs a module, or a page, that is lost for good: its commands complete with `ST_PEER_GONE` (R207, R269, R295). -/
def State.beyond (s : State) (p : Pricking) (q : Seq) : Bool := (s.motifModules p).any s.lostForGood || s.pagesLost p q

/-- Runs a sequence command that needs its motif's modules and the sequence's pages. -/
def State.onPages (s : State) (m : Nat) (f : Pricking → Seq → State) : State :=
  s.onSeq m fun p q => if s.beyond p q then s.failCmd m stPeerGone 0xFFFFFFFF else f p q

/-! ### Opening and closing -/

/-- The refusals of R23, in its order; `none` for a draft motif that is still loading. Whether a draft motif that this module does not hold is resident
on another member with the vocabulary digest no message tells it: a free value (log 16). -/
def openRefusal (s : State) (p : Pricking) (motif id : Nat) (draft : Option Nat) : Option (Option (Nat × Nat)) :=
  if (s.findSeq motif id).isSome then some (some (stSeqExists, 0))
  else
    let full := if Config.maxSeqs ≤ s.openCount then some (some (stNoSeq, 0)) else some none
    match draft with
    | none => full
    | some d =>
      let e := s.motif d
      if e.state = 1 ∨ (e.state ≠ 2 ∧ s.loadConsumed d) then none
      else if e.state = 0 ∧ s.cfg.cur.members.any (fun x => x.machineId ≠ s.machineId) ∧ Config.remote d p.vocabDigest s.boxes.consumed 30 0 % 2 = 1 then full
      else if e.state ≠ 2 ∨ e.vocabDigest ≠ p.vocabDigest then some (some (stVocabMismatch, d))
      else full

/-- The draft operand of `SEQ_OPEN`. -/
def draftOf (e : Bytes) : Option Nat := if field e 0x0A 1 = 0xFF then none else some (field e 0x0A 1)

/-- Whether a motif's placement and spreads span more than one group (R333). -/
def State.spansGroups (s : State) (p : Pricking) : Bool := decide (1 < ((s.motifModules p).map groupOf).dedup.length)

/-- SEQ_OPEN (R22, R23); one on a motif that spans groups waits for this module's TOPO_READY (R333). -/
def execSeqOpen (m : Nat) (s : State) : Result := seqCommand m opSeqOpen s fun t =>
  let e := t.entryOf m
  t.onMotif m (entryMotif e) fun p =>
    if t.fabric.reshape.isSome && t.spansGroups p then t else
    match openRefusal t p (entryMotif e) (entrySeq e) (draftOf e) with
    | none => t
    | some (some r) => t.failCmd m r.1 r.2
    | some none =>
      let q := Seq.start (entryMotif e) (entrySeq e) (field e 0x10 8) (decide (field e 0x09 1 = 1)) (draftOf e) none (samplingOf e 0x18)
      let t1 := t.addSeq q
      (match q.draft with | none => t1 | some d => t1.addSeq (companionOf q d)).okCmd m 0

/-- A sequence and its companion gone, with their frames, bindings, latches, slowdown causes and ended steps (R28, R73, R217). -/
def State.dropSeq (s : State) (q : Seq) : State :=
  let mine := fun (motif seq : Nat) (companion : Option Nat) =>
    decide (motif = q.motif ∧ seq = q.id ∧ companion = none) || decide (q.draft = some motif ∧ seq = q.id ∧ companion = some q.motif)
  { s with
    seqs := { s.seqs with
      open_ := s.seqs.open_.filter fun x => !mine x.motif x.id x.companion
      frames := s.seqs.frames.filter fun x => !mine x.motif x.seq x.companion
      bindings := s.seqs.bindings.filter fun x => !decide (x.motif = q.motif ∧ x.seq = q.id)
      slow := s.seqs.slow.filter fun x => !decide (x.1 = q.motif ∧ x.2.1 = q.id)
      short := s.seqs.short.filter fun x => !decide (x.1 = q.motif ∧ x.2.1 = q.id) }
    attn := { s.attn with latches := s.attn.latches.filter fun l => !mine l.tag.motif l.tag.seq l.tag.companion }
    steps := { s.steps with live := s.steps.live.filter fun r => !mine r.motif r.seq r.companion } }

/-- Ends the generation or append of a sequence: the command completes and the sequence is OPEN again, or stays CLOSING (R28, R44, R78). -/
def State.endWork (s : State) (q : Seq) (status detail : Nat) : State :=
  let q' : Seq := { q with state := if q.state = .closing then .closing else .opened, append := none, gen := none }
  let done := fun (u : State) (m progress : Nat) =>
    (({ u with seqs := { u.seqs with short := u.seqs.short.filter fun x => !decide (x.1 = q.motif ∧ x.2.1 = q.id) } } : State).putSeq q').complete
      m status detail progress q.tokens.length
  match q.gen, q.append with
  | some g, _ => done s g.mailbox g.delivered
  | none, some a => done s a.mailbox a.committed
  | none, none => s

/-- A closing sequence with no step in flight: its own command is cancelled, its pages are released, its id is free, `SEQ_CLOSE` completes
(R28, R68). -/
def State.finishClose (s : State) (q : Seq) : State :=
  if q.state = .closing ∧ ¬ s.seqBusy q then
    let s1 := (s.endWork q stCancelled 0).dropSeq q
    match q.closeBox with
    | some m => s1.okCmd m 0
    | none => s1
  else s

/-- The closing sequence of a motif and id ends its close once no step of it is in flight. -/
def State.closeIfDone (s : State) (motif seq : Nat) : State :=
  match s.findSeq motif seq with
  | some q => s.finishClose q
  | none => s

/-- Ends an append that still fetches its buffer when the close of its sequence is consumed: nothing of it is appended (R68). -/
def State.cancelFetch (s : State) (q : Seq) : State :=
  (s.boxes.box.filter fun e => namesSeq e.2 q.motif q.id && (e.2.cur.map fetching).getD false).foldl
    (fun u e => u.complete e.1 stCancelled 0 0 q.tokens.length) s

/-- Ends without replay a step that waits for its replay when its sequence closes (R30, R261). -/
def State.closeRecalled (s : State) (r : StepRec) : State :=
  match r.replay with
  | none => s
  | some x =>
    let t := r.tag x.1 x.2.1
    let s1 := s.setStep t fun r => { r with replay := none, noReplay := some x.1 }
    let body : RecallBody := { x.2.2 with noReplay := true, layer := x.1 }
    match s.prickT t with
    | none => s1
    | some p => if s1.tailOf p then s1 else s1.send (s1.msg (s1.holder p.tail) (some t) (.recall body))

/-- SEQ_CLOSE (R28, R30, R68). -/
def execSeqClose (m : Nat) (s : State) : Result := seqCommand m opSeqClose s fun t =>
  t.onSeq m fun _ q =>
    if q.state = .closing then
      -- the command's own close goes on; another close of the same sequence is refused
      if q.closeBox = some m then t else t.failCmd m stSeqBusy q.state.code
    else
      let q' : Seq := { q with state := .closing, closeBox := some m }
      let t1 := ((t.putSeq q').setCmd m fun c => { c with begun := true }).cancelFetch q
      ((t.seqInFlight (seqTag q)).foldl (fun u r => u.closeRecalled r) t1).finishClose q'

/-! ### SEQ_APPEND -/

/-- The token ids in an append's buffer (R66). -/
def tokensOf (data : Bytes) : List Nat := (List.range (data.length / 4)).map fun i => field data (4 * i) 4

/-- The first id at or above the vocabulary size, as its index. -/
def firstBeyond (vocab : Nat) (ids : List Nat) : Option Nat := (List.range ids.length).find? fun i => decide (vocab ≤ ids.getD i 0)

/-- An append accepted (R28, R32): the first token of an empty sequence becomes its pending token without a step. -/
def State.beginAppend (s : State) (m : Nat) (q : Seq) (ids : List Nat) : State :=
  let first := decide (q.tokens = [])
  let rest := if first then ids.tail else ids
  let q' : Seq := { q with
    tokens := if first then ids.take 1 else q.tokens
    state := .appending
    append := some { mailbox := m, tokens := rest, target := rest.length, started := 0, committed := 0 } }
  let s1 := (((s.putSeq q').setCmd m fun c => { c with begun := true }).setTarget m rest.length).headSync 0 m (s.entryOf m) ids
  if rest = [] then s1.endWork q' stOk 0 else s1

/-- SEQ_APPEND (R25, R27, R32, R63, R66). -/
def execSeqAppend (m : Nat) (s : State) : Result := seqCommand m opSeqAppend s fun t =>
  match (t.box m).cur with
  | none => t
  | some c =>
    if c.begun then t
    else t.onPages m fun p q =>
      if c.xfer = .none then t.readBuffer m (bufLen c.entry)
      else if c.xfer = .readFailed then t.failCmd m stFetchFail t.machineId
      else if c.xfer = .readDone then
        let ids := tokensOf c.data
        match firstBeyond p.vocabSize ids with
        | some i => t.failCmd m stBadParam (4 * i)
        | none =>
          if q.state ≠ .opened then t.failCmd m stSeqBusy q.state.code
          else if Config.maxTokens < q.tokens.length + ids.length then t.failCmd m stSeqFull 0
          else t.beginAppend m q ids
      else t

/-! ### SEQ_GENERATE and its cancel -/

/-- Step 6 of R62 for a `SEQ_GENERATE`: a tree needs a draft motif, and stop ids lie below the vocabulary size (R36, R66). -/
def generateBad (p : Pricking) (q : Seq) (e : Bytes) : Option Nat :=
  if 0 < field e 0x0A 1 ∧ q.draft = none then some 0x0A
  else (firstBeyond p.vocabSize (stopsOf e)).map fun i => 0x28 + 3 * i

/-- A generation accepted (R28, R41, R44). -/
def State.beginGenerate (s : State) (m : Nat) (q : Seq) (e : Bytes) : State :=
  let q' : Seq := { q with
    state := .generating
    nextTree := none
    sampling := if bit (field e 0x09 1) 0 then samplingOf e 0x14 else q.sampling
    gen := some { mailbox := m, count := field e 0x10 4, delivered := 0, stops := stopsOf e, branches := branchesOf e, cancelled := false } }
  (((s.discardTree (seqTag q)).putSeq q').setCmd m fun c => { c with begun := true }).setTarget m (field e 0x10 4)

/-- Whether the generate command in progress on a mailbox has begun its effect. -/
def begunOn (s : State) (m : Nat) : Bool := match (s.box m).cur with | some c => c.begun | none => false

/-- SEQ_GENERATE with a non-zero count (R25, R27, R29, R44). -/
def execSeqGenerate (m : Nat) (s : State) : Result := seqCommand m opSeqGenerate s fun t =>
  let e := t.entryOf m
  if field e 0x10 4 = 0 ∨ begunOn t m then t
  else t.onPages m fun p q =>
    match generateBad p q e with
    | some i => t.failCmd m stBadParam i
    | none =>
      if q.state ≠ .opened then t.failCmd m stSeqBusy q.state.code
      else if q.tokens = [] then t.failCmd m stSeqEmpty 0
      else if Config.maxTokens ≤ q.tokens.length then t.complete m stSeqFull 0 0 q.tokens.length
      else t.beginGenerate m q e

/-- CANCEL: a `SEQ_GENERATE` with count 0 (R46). Where the generating sequence has no step in flight, so no commit to come, the model ends its command at once
(DESIGN CHOICE, log 88). -/
def execCancel (m : Nat) (s : State) : Result := seqCommand m opSeqGenerate s fun t =>
  let e := t.entryOf m
  if field e 0x10 4 ≠ 0 then t
  else t.onSeq m fun p q =>
    match generateBad p q e with
    | some i => t.failCmd m stBadParam i
    | none => match q.state, q.gen with
      | .opened, _ => t.complete m stOk 0 0 q.tokens.length
      | .generating, some g =>
        let t1 := (t.putSeq { q with gen := some { g with cancelled := true } }).complete m stOk 0 0 q.tokens.length
        -- with no step in flight there is no commit to wait for
        if t1.seqBusy q then t1 else t1.endWork { q with gen := some { g with cancelled := true } } stCancelled 0
      | st, _ => t.failCmd m stSeqBusy st.code

/-! ### SEQ_FORK -/

/-- The frames of a sequence and its companion, lowest layer first. -/
def State.framesOfSeq (s : State) (q : Seq) : List FrameRef :=
  (s.seqs.frames.filter fun f =>
    (!q.hostPages && decide (f.motif = q.motif ∧ f.seq = q.id ∧ f.companion = none)) ||
    decide (q.draft = some f.motif ∧ f.seq = q.id ∧ f.companion = some q.motif)).mergeSort fun a b => decide (a.layer ≤ b.layer)

/-- The committed tokens a fork takes: those its source had when the fork was consumed (R31). -/
def State.forkTokens (s : State) (m : Nat) (q : Seq) : List Nat :=
  match (s.box m).cur with
  | some c => q.tokens.take c.tokensThen
  | none => q.tokens

/-- SEQ_FORK (R31, R217, R218). It shares and copies the frames of this module: how the other modules of the spread hear of a fork, or of the close of a
sequence, the spec does not say, and no message goes to them (DESIGN CHOICE, log 70). -/
def execSeqFork (m : Nat) (s : State) : Result := seqCommand m opSeqFork s fun t =>
  let e := t.entryOf m
  let newId := field e 0x10 3
  t.onPages m fun _ q =>
    if q.state = .closing then t.failCmd m stSeqBusy q.state.code
    else if (t.findSeq q.motif newId).isSome then t.failCmd m stSeqExists 0
    else if Config.maxSeqs ≤ t.openCount then t.failCmd m stNoSeq 0
    else match copyFrames newId ((t.forkTokens m q).length - 1) (t.framesOfSeq q) t with
      | .error layer => t.failCmd m stNoPages layer
      | .ok t1 =>
        let q' : Seq := { Seq.start q.motif newId (field e 0x18 8) q.hostPages q.draft none q.sampling with tokens := t.forkTokens m q }
        let t2 := t1.addSeq q'
        (match q'.draft with | none => t2 | some d => t2.addSeq (companionOf q' d)).okCmd m 0

/-! ### PAGES_BIND -/

/-- Step 6 of R62 for `PAGES_BIND` (R209): the first field out of range. -/
def bindBad (s : State) (p : Pricking) (q : Seq) (e : Bytes) : Option Nat :=
  let first := field e 0x10 2
  let count := field e 0x12 2
  if !q.hostPages then some 0x0C
  else if p.layers.length ≤ first then some 0x10
  else if p.layers.length < first + count then some 0x12
  else if !s.inHostArea (field e 0x18 8) (32 * count) then some 0x18
  else none

/-- Whether a bound table covers a layer of another binding. -/
def Binding.overlaps (a b : Binding) : Bool :=
  decide (a.motif = b.motif ∧ a.seq = b.seq ∧ a.firstLayer < b.firstLayer + b.layerCount ∧ b.firstLayer < a.firstLayer + a.layerCount)

/-- Whether a binding's layers all lie in another's. -/
def Binding.inside (x b : Binding) : Bool :=
  decide (x.motif = b.motif ∧ x.seq = b.seq ∧ b.firstLayer ≤ x.firstLayer ∧ x.firstLayer + x.layerCount ≤ b.firstLayer + b.layerCount)

/-- Whether a `PAGES_BIND` may complete: none of the steps that had latched a descriptor of its layers when it was consumed remains uncommitted (R214). That the
table is latched-ready on the other modules of the spread no message tells (DESIGN CHOICE, log 51). -/
def State.bindReady (s : State) (b : Binding) (steps : List Nat) : Bool :=
  !(s.steps.live.any fun r => decide (r.motif = b.motif ∧ r.seq = b.seq ∧ r.companion = none) && !r.ended && steps.contains r.step)

/-- The `PAGES_BIND` commands that no earlier step holds back complete (R214). -/
def State.finishBinds (s : State) : State :=
  let ready := fun (b : Nat × Binding × List Nat) => s.bindReady b.2.1 b.2.2
  (s.seqs.binds.filter ready).foldl (fun u b => u.okCmd b.1 0)
    { s with seqs := { s.seqs with binds := s.seqs.binds.filter fun b => !ready b } }

/-- The steps that had latched a descriptor of a `PAGES_BIND`'s layers when it was consumed. -/
def State.latchedThen (s : State) (m : Nat) : List Nat := match (s.box m).cur with | some c => c.latchedThen | none => []

/-- PAGES_BIND (R209, R214). -/
def execPagesBind (m : Nat) (s : State) : Result := seqCommand m opPagesBind s fun t =>
  let e := t.entryOf m
  if begunOn t m then t
  else t.onSeq m fun p q =>
    match bindBad t p q e with
    | some i => t.failCmd m stBadParam i
    | none =>
      if q.state = .closing then t.failCmd m stSeqBusy q.state.code
      else
        let b : Binding := { motif := q.motif, seq := q.id, firstLayer := field e 0x10 2, layerCount := field e 0x12 2, descOffset := field e 0x18 8 }
        let again := t.seqs.bindings.any fun x => x.overlaps b
        let t1 : State := { t with seqs := { t.seqs with bindings := b :: t.seqs.bindings.filter fun x => !x.inside b } }
        if again && !t.bindReady b (t.latchedThen m) then
          { t1 with seqs := { t1.seqs with binds := (m, b, t.latchedThen m) :: t1.seqs.binds } }.setCmd m fun c => { c with begun := true }
        else t1.okCmd m 0

end Sys2Proof.Machine
end

