-- ==== Sys2Proof/Machine/Sampler.lean ====
section
/-! DEFINITION. Speculation trees and the sampler (R36 to R45). -/

namespace Sys2Proof.Machine

/-! ### Trees (R36, R37, R40) -/

/-- The depth of a node, by its chain of parents. -/
def depthOf (nodes : List TreeNode) : Nat → Nat → Nat
  | 0, _ => 0
  | f + 1, x => if x = 0 then 0 else match nodes[x]? with
    | none => 0
    | some n => 1 + depthOf nodes f n.parent

/-- A node's depth in its tree. -/
def nodeLevel (nodes : List TreeNode) (x : Nat) : Nat := depthOf nodes nodes.length x

/-- The largest depth in a tree. -/
def treeDepth (nodes : List TreeNode) : Nat := (List.range nodes.length).foldl (fun m x => max m (nodeLevel nodes x)) 0

/-- Whether every node but node 0 names a parent before it. -/
def treeOk (nodes : List TreeNode) : Bool :=
  decide (nodes ≠ [] ∧ nodes.length ≤ 64) && (List.range nodes.length).all fun x => x = 0 || decide ((nodes.getD x default).parent < x)

/-- A shape cut to the depth that the length limit leaves a tree of n committed tokens: with all its tokens accepted, one per depth and one more, the token
length is at most 2^24 (R25, R40). -/
def depthRoom (n : Nat) (bs : List Nat) : List Nat := bs.take (Config.maxTokens - n - 1)

/-- A shape narrowed to a width: the deepest depths go first, then the last branch count is lowered (R40). -/
def narrowShape (limit : Nat) : Nat → List Nat → List Nat
  | 0, _ => []
  | f + 1, bs =>
    if treeWidth bs ≤ limit then bs
    else match bs with
      | [] => []
      | [b] => if b ≤ 1 then [] else narrowShape limit f [b - 1]
      | _ => narrowShape limit f bs.dropLast

/-- The rank of a node among its siblings. -/
def siblingRank (nodes : List TreeNode) (x : Nat) : Nat :=
  ((List.range x).filter fun y => y ≠ 0 && decide ((nodes.getD y default).parent = (nodes.getD x default).parent)).length

/-- The nodes of a tree that a narrowed shape keeps, as old numbers in rising order. -/
def keptNodes (nodes : List TreeNode) (bs : List Nat) : List Nat :=
  (List.range nodes.length).foldl (fun kept x =>
    if x = 0 then [0]
    else
      let d := nodeLevel nodes x
      if kept.contains (nodes.getD x default).parent ∧ d ≤ bs.length ∧ siblingRank nodes x < bs.getD (d - 1) 0 then kept ++ [x] else kept) []

/-- A tree cut to a narrowed shape, its nodes numbered anew. -/
def narrowTree (nodes : List TreeNode) (bs : List Nat) : List TreeNode :=
  let kept := keptNodes nodes bs
  kept.map fun x => { token := (nodes.getD x default).token, parent := kept.idxOf (nodes.getD x default).parent }

/-- The n most probable tokens of a node's logits, in descending order, ties by lower id (R37). -/
def topTokens (n : Nat) (logits : List Fp32) : List Nat :=
  (((logits.mapIdx fun i v => (i, fpInt v)).mergeSort fun a b => decide (b.2 ≤ a.2)).take n).map (·.1)

/-- A tree with the children of its last depth added: `bd` for each node of that depth, from the draft motif's logits (R37). -/
def growTree (nodes : List TreeNode) (bd : Nat) (logits : List (List Fp32)) : List TreeNode :=
  let d := treeDepth nodes
  let last := (List.range nodes.length).filter fun x => nodeLevel nodes x = d
  nodes ++ (List.zip last logits).flatMap fun x => (topTokens bd x.2).map fun t => { token := t, parent := x.1 }

/-! ### The sampler (R41 to R43) -/

/-- x of the draw of R43 for a seed and position; u is x / 2^32. -/
def drawOf (seed position : Nat) : Nat := ofLE (shake256 4 (leBytes 8 seed ++ leBytes 4 position ++ zeros 4))

/-- Running sums in FP32. -/
def runningSums : Fp32 → List Fp32 → List Fp32
  | _, [] => []
  | acc, p :: t => fpAdd acc p :: runningSums (fpAdd acc p) t

/-- Greedy decoding: the largest logit, the lower id on a tie. -/
def greedy (logits : List Fp32) : Nat := (topTokens 1 logits).headD 0

/-- The kept candidates in descending order of z with their z (R42 step 2). -/
def candidates (temp k : Nat) (logits : List Fp32) : List (Nat × Fp32) :=
  (((logits.mapIdx fun i v => (i, fpDiv v (fpRound false temp 256))).mergeSort fun a b => decide (fpInt b.2 ≤ fpInt a.2)).take k)

/-- The token sampled for one position (R42). -/
def sample (set : Sampling) (logits : List Fp32) (x : Nat) : Nat :=
  if set.temp = 0 then greedy logits
  else
    let kept := candidates set.temp set.topK logits
    match kept with
    | [] => 0
    | z1 :: _ =>
      let es := kept.map fun z => fpExpNeg (fpSub z.2 z1.2)
      let total := match es with | [] => (0 : Fp32) | e :: t => t.foldl fpAdd e
      let ps := es.map fun e => fpDiv e total
      let cs := match ps with | [] => [] | p :: t => p :: runningSums p t
      let m := ((List.range cs.length).find? fun j => decide (((set.topP + 1) * 2 ^ 149 : Nat) ≤ fpInt (cs.getD j 0) * 65536)).getD (cs.length - 1)
      let mass := cs.getD m 0
      let j := ((List.range (m + 1)).find? fun j => decide (x * fpInt mass ≤ fpInt (cs.getD j 0) * (2 ^ 32 : Nat))).getD m
      (kept.getD j (0, 0)).1

/-- A child of a node that holds a token. -/
def childWith (nodes : List TreeNode) (x token : Nat) : Option Nat :=
  (List.range nodes.length).find? fun c => c ≠ 0 && decide ((nodes.getD c default).parent = x ∧ (nodes.getD c default).token = token)

/-- Verification of a tree from node x on (R38): the nodes reached after x, and the tokens accepted. -/
def verify (nodes : List TreeNode) (t : Nat → Nat) : Nat → Nat → List Nat × List Nat
  | 0, x => ([], [t x])
  | f + 1, x => match childWith nodes x (t x) with
    | none => ([], [t x])
    | some c => (c :: (verify nodes t f c).1, t x :: (verify nodes t f c).2)

/-- The tokens delivered of those accepted: up to the count's last token or the first stop token (R45). -/
def deliverTokens (room : Nat) (stops accepted : List Nat) : List Nat :=
  let cut := accepted.take room
  match (List.range cut.length).find? fun i => stops.contains (cut.getD i 0) with
  | some i => cut.take (i + 1)
  | none => cut

end Sys2Proof.Machine
end

