-- ==== Sys2Proof/Machine/Commit.lean ====
section
/-! DEFINITION. A step's way through the module: start, residual rows, checks, commit, recall, replay (R33 to R40, R235 to R262). -/

namespace Sys2Proof.Machine

/-! ### Retained rows (R239) -/

/-- Bytes of a residual row at I8B (R122, R244). -/
def rowBytes (p : Pricking) : Nat := p.width + p.width / 32

/-- The width a step takes room for: its own, or, where this module does not know it, a free value (log 16). -/
def roomWidth (t : StepTag) (width : Nat) : Nat := if width ≠ 0 then width else 1 + Config.remote t.motif t.seq t.step 13 0 % 4096

/-- Bytes of the rows a module retains for a step: input rows of each of its layers, output rows of those whose next layer is elsewhere. -/
def State.stepBytes (s : State) (p : Pricking) (w : Nat) : Nat :=
  let own := s.ownLayers p
  w * rowBytes p * (own.length + (own.filter fun l => match layerOf p (l + 1) with | some nx => !s.owns nx | none => false).length)

/-- Bytes of the staging store that the steps begun here and not ended take. -/
def State.retained (s : State) : Nat :=
  (s.inFlight.map fun r => match s.prickT (r.tag 0 0) with
    | some p => if r.inputs = [] then 0 else s.stepBytes p (roomWidth (r.tag 0 0) r.width)
    | none => 0).sum

/-- Whether the rows of a step of `w` positions fit beside those retained. -/
def State.roomForStep (s : State) (p : Pricking) (w : Nat) : Bool := decide (s.retained + s.stepBytes p w ≤ Config.retainedBytes)

/-- Rows retained as input of a layer; the layer's format is latched and its window counts the positions (R140, R145, R239), those that enter anew in a replay
too (DESIGN CHOICE, log 93). -/
def State.enterLayer (s : State) (t : StepTag) (first : Nat) (rows : List Bytes) : State :=
  match s.stepOf t with
  | none => s
  | some r =>
    if r.inputs.any fun x => decide (x.layer = t.layer ∧ x.lineage = t.lineage ∧ x.first = first) then s
    else
      ((s.setStep t fun r => { r with inputs := r.inputs ++ [{ layer := t.layer, lineage := t.lineage, first := first, rows := rows }] }).latchFormat t).setPrecT
        t fun p => { p with positions := p.positions + rows.length }

/-! ### Step starts (R33 to R37, R40, R238) -/

/-- The level that sets W_max and the chunk of a step of a motif (R403). -/
def State.stepLevel (s : State) (motif : Nat) : Nat := max s.level (Tab.get 0 s.steps.commitLevel motif)

/-- Whether steps of a motif may start on this module as its head. -/
def State.mayStart (s : State) (motif : Nat) : Option Pricking :=
  match s.seqMotif motif with
  | some (.ok p) => if s.start.powerGood ∧ ¬ s.start.safe ∧ ¬ s.fw.holdSteps ∧ s.take.vacatedTo = none then some p else none
  | _ => none

/-- Starts a step of a sequence on its head: the step takes the next number and the generation in force, and its tokens' embedding rows
enter layer 0 (R34, R235). -/
def State.startStep (s : State) (p : Pricking) (q : Seq) (n : Nat) (prefill : Bool) (nodes : List TreeNode) (slow : BitVec 16) : State :=
  let gen := (s.motif q.motif).gen.toNat
  let t : StepTag := { step := q.nextStep, seq := q.id, motif := q.motif, gen := gen, layer := 0, lineage := 0, companion := q.companion }
  let r : StepRec := { s.freshStep t with prefill := prefill, n := n, width := nodes.length, nodes := nodes, slow := slow }
  let s1 : State := { s.putSeq { q with nextStep := q.nextStep + 1 } with steps := { s.steps with live := s.steps.live ++ [r] } }
  let values := match (s.motif q.motif).shardFor gen with
    | some sh => nodes.map fun (x : TreeNode) => embeddingRow p sh x.token
    | none => []
  (if (s.ownLayers p).contains 0 then (s1.countQuant t (Quant.sum (values.map (rowQuant 8)))).enterLayer t 0 (values.map (requantRow 8)) else s1).noteThrottle t false

/-- Whether a step of an append has left the arrays of its first layer on the head: its output rows of that layer are all forwarded (R35). -/
def leftFirstLayer (r : StepRec) : Bool :=
  decide (r.width ≤ ((r.outputs.filter fun x => x.layer = 0).map (·.rows.length)).sum)

/-- The tokens of the next positions of an append as a chain of nodes, each with the one before as its parent (R223). -/
def chainNodes (tokens : List Nat) : List TreeNode := tokens.mapIdx fun i t => { token := t, parent := i - 1 }

/-- PREFILL_STEP_START (R32, R33, R35, R238). -/
def execPrefillStepStart (motif seq : Nat) (s : State) : Result :=
  need (decide (motif < 16)) .noSuchMotif
    (match s.mayStart motif, s.findSeq motif seq with
    | some p, some q => match q.state, q.append with
      | .appending, some a =>
        let off := a.started - a.committed
        let w := min (min (ladderChunk (s.stepLevel motif)) 4096) (a.target - a.started)
        let inputs := ((q.tokens.getLast?.toList ++ a.tokens).drop off).take w
        let ready := decide (a.started < a.target) && (s.seqInFlight (seqTag q)).all leftFirstLayer && s.roomForStep p w && !s.barred motif seq
        onlyIf ready s
          (s.startStep p { q with append := some { a with started := a.started + w } } (q.tokens.length + off) true (chainNodes inputs) 0)
      | _, _ => s
    | _, _ => s)

/-- Whether the page lists that this module knows of take the slots of a sequence up to a position (R40, R211, R216). -/
def State.slotsCover (s : State) (p : Pricking) (q : Seq) (last : Nat) : Bool :=
  let size := frameSize p
  let tag := fun layer => { seqTag q with gen := (s.motif q.motif).gen.toNat, step := q.nextStep, layer := layer }
  let pages := List.range (last / 16 + 1)
  let needs := (p.layers.map fun r => (r, pages.filter (s.homeHere r), pages.filter (s.shadowHere r))).filter fun x => x.2.1 ≠ [] || x.2.2 ≠ []
  if q.hostPages then
    needs.all fun x => match s.descriptorAt (tag x.1.layer) with
      | none => false
      | some off =>
        decide ((s.hostFrames (readDescriptor s.mem off) x.1.k size x.2.1).length = x.2.1.length ∧
                (s.hostFrames (readDescriptor s.mem (off + 16)) x.1.k size x.2.2).length = x.2.2.length)
  else
    (needs.foldl (fun (u : Option State) x => u.bind fun v =>
      (allocate (tag x.1.layer) size true x.2.1 v).bind (allocate (tag x.1.layer) size false x.2.2)) (some s)).isSome

/-- The widest tree, up to a width, whose slots the page lists take; one node where none does, since a step has its node 0 (R40). What room the lists on other
spread modules have no message tells: a free value (log 16). -/
def State.slotWidth (s : State) (p : Pricking) (q : Seq) (w : Nat) : Nat :=
  let elsewhere := p.layers.any fun r => (s.spreadIds r).any (· ≠ s.machineId)
  let w1 := if elsewhere then min w (1 + Config.remote q.motif q.id q.nextStep 36 0 % 64) else w
  (((List.range w1).map fun i => w1 - i).find? fun v => s.slotsCover p q (q.tokens.length + v - 2)).getD 1

/-- The tree of the next generation step and whether it was narrowed, under throttling, near the length limit or where tentative slots are short; none while
it waits for the draft motif (R25, R36, R37, R40). -/
def nextNodes (s : State) (p : Pricking) (q : Seq) (g : GenInfo) : Option (List TreeNode × Bool) :=
  let pending := q.tokens.getLastD 0
  let n := q.tokens.length
  let widest := min (ladderWmax (s.stepLevel q.motif)) (Config.maxTokens - n + 1)
  let shape := narrowShape (s.slotWidth p q (min widest (treeWidth g.branches))) 128 (depthRoom n g.branches)
  let cut := decide (shape ≠ g.branches)
  if shape = [] then some ([{ token := pending, parent := 0 }], cut)
  else match q.nextTree with
    | some nodes => if (nodes.headD default).token = pending then some (narrowTree nodes shape, cut) else none
    | none => none

/-- GENERATION_STEP_START (R33, R34, R40, R75, R238). -/
def execGenerationStepStart (motif seq : Nat) (s : State) : Result :=
  need (decide (motif < 16)) .noSuchMotif
    (match s.mayStart motif, s.findSeq motif seq with
    | some p, some q => match q.state, q.gen with
      | .generating, some g =>
        if s.seqBusy q || s.barred motif seq then s
        else if freeSlots (s.box g.mailbox) < 64 then s.markSlow motif seq slowRing
        else match nextNodes s p q g with
          | none => s
          | some (nodes, cut) =>
            onlyIf (s.roomForStep p nodes.length) s
              (s.startStep p { q with nextTree := none } q.tokens.length false nodes (if cut then slowBit slowNarrowed else 0))
      | _, _ => s
    | _, _ => s)

/-- Gives a main sequence the tree for its next step. -/
def State.giveTree (s : State) (q : Seq) (nodes : List TreeNode) : State := s.putSeq { q with nextTree := some nodes }

/-- TREE: the draft motif's tail delivers a tree to the main sequence's head (R37, R244). -/
def execTree (tag : StepTag) (nodes : List TreeNode) (s : State) : Result :=
  .next (match tag.companion.bind fun main => s.findSeq main tag.seq with
  | none => s
  | some q => onlyIf (treeOk nodes && decide (q.draft = some tag.motif)) s (s.giveTree q nodes))

/-! ### Residual rows (R235, R239, R244) -/

/-- The BAD_SCALE record of a row read by a vector unit; which of the 128 reads it the spec does not say (free value, log 3). -/
def State.badRow (s : State) (t : StepTag) : State :=
  s.draw.2.event { cls := 10, code := 3, op := 7, kind := kVector, index := s.draw.1 % 128, tag := some t, epoch := 0, detail := [] }

/-- Whether a residual row has a block with scale 255 (R120). -/
def rowBad (p : Pricking) (row : Bytes) : Bool := badScale 8 (p.width / 32) row

/-- Whether rows are the last of a step: where the width is not known, a free value (log 16). -/
def lastOfRows (r : StepRec) (t : StepTag) (first n : Nat) : Bool :=
  if r.width = 0 then decide (Config.remote t.motif t.seq t.step 11 first % 2 = 1) else decide (r.width ≤ first + n)

/-- The ACT messages of rows, at most 62 in each, as first row and rows (R244). -/
def actPieces (first : Nat) (rows : List Bytes) : List (Nat × List Bytes) :=
  (List.range ((rows.length + 61) / 62)).map fun i => (first + 62 * i, (rows.drop (62 * i)).take 62)

/-- Sends residual rows to a layer module; LAST stands on the last message of a step's rows (R243, R244). -/
def State.sendRows (s : State) (r : StepRec) (t : StepTag) (dest first : Nat) (rows : List Bytes) : State :=
  (actPieces first rows).foldl (fun u x =>
    u.sendData t dest (decide (first + rows.length ≤ x.1 + x.2.length) && lastOfRows r t first rows.length) false (.act x.1 x.2)) s

/-- Output rows of an own layer: retained, and forwarded to the next layer's module or entering it here (R235, R239). -/
def State.leaveLayer (s : State) (p : Pricking) (t : StepTag) (first : Nat) (rows : List Bytes) : State :=
  match s.stepOf t with
  | none => s
  | some r =>
    if r.outputs.any fun x => decide (x.layer = t.layer ∧ x.lineage = t.lineage ∧ x.first = first) then s
    else
      let s1 := s.setStep t fun r => { r with outputs := r.outputs ++ [{ layer := t.layer, lineage := t.lineage, first := first, rows := rows }] }
      match layerOf p (t.layer + 1) with
      | none => s1
      | some nx =>
        if s1.owns nx then s1.enterLayer { t with layer := t.layer + 1 } first rows
        else s1.sendRows r t (s1.holder nx.owner) first rows

/-- Residual rows of the layer before, taken as input of an own layer (R258, R259). -/
def State.takeRows (s : State) (p : Pricking) (tag : StepTag) (firstRow : Nat) (rows : List Bytes) : State :=
  let x := s.arrive tag
  if !x.2 then x.1
  else
    let s1 := if rows.any (rowBad p) then x.1.badRow tag else x.1
    match s1.stepOf tag with
    | none => s1
    | some r => s1.enterLayer { tag with layer := tag.layer + 1, lineage := lineMax tag.lineage (floorAt r (tag.layer + 1)) } firstRow rows

/-- Whether rows may enter now: their step has begun here, or there is room for it (R239). -/
def State.mayEnter (s : State) (p : Pricking) (tag : StepTag) : Bool :=
  match s.stepOf tag with
  | some r => !r.inputs.isEmpty || s.roomForStep p (roomWidth tag r.width)
  | none => s.roomForStep p (roomWidth tag 0)

/-- Rows that find no room wait, and those that wait enter once there is room (R239). -/
def State.offerRows (s : State) (tag : StepTag) (firstRow : Nat) (rows : List Bytes) : State :=
  match s.prickT tag with
  | none => s
  | some p =>
    if s.stepOver tag then s
    else if s.mayEnter p tag then s.takeRows p tag firstRow rows
    else { s with steps := { s.steps with actWait := s.steps.actWait ++ [(tag, firstRow, rows)] } }

/-- The rows that wait are offered again, in the order they came. -/
def State.admitRows (s : State) : State :=
  s.steps.actWait.foldl (fun u x => u.offerRows x.1 x.2.1 x.2.2) { s with steps := { s.steps with actWait := [] } }

/-- An own layer's output rows, requantised to I8B with one exponent per block, the elements clamped counted; rows of another module stand as they come
(R131, R138, R244). -/
def execAct (tag : StepTag) (firstRow : Nat) (x : ActRows) (s : State) : Result :=
  .next (match s.prickT tag with
  | none => s
  | some p =>
    if (s.ownLayers p).contains tag.layer then
      onlyIf (s.usable tag && x.out.all fun v => v.length = p.width) s
        ((s.countQuant tag (Quant.sum (x.out.map (rowQuant 8)))).leaveLayer p tag firstRow (x.out.map (requantRow 8)))
    else if !(x.rows.all fun r => r.length = rowBytes p) || !(s.ownLayers p).contains (tag.layer + 1) then s
    else s.offerRows tag firstRow x.rows)

/-! ### Checks (R251, R252) -/

/-- The first layer of the run of own layers that ends at a layer. -/
def segFirst (own : List Nat) : Nat → Nat
  | 0 => 0
  | l + 1 => if own.contains l then segFirst own l else l + 1

/-- The CHECK that covers the layers before a layer at a sufficient lineage: at least the floor of the layer before (R251; log 23). -/
def checkBefore (r : StepRec) (first : Nat) : Option CheckBody :=
  if first = 0 then some { modules := 0, through := 0, replays := 0, tambourTiles := 0, slow := 0, level := 0 }
  else (r.checks.find? fun c => decide (c.2.through + 1 = first ∧ (floorAt r (first - 1)).toNat ≤ c.1.toNat)).map (·.2)

/-- Whether a layer's work of a step is done here: output rows complete, merged rows in (R251). -/
def State.layerDone (s : State) (r : StepRec) (l : Nat) : Bool :=
  let t := r.tag l (floorAt r l)
  decide (r.width ≠ 0 ∧ r.width ≤ ((r.outputs.filter fun x => decide (x.layer = l ∧ x.lineage = t.lineage)).map (·.rows.length)).sum) &&
  s.attn.closed.contains t && (s.rowsOf t).all fun q => s.attn.merged.any fun x => decide (x.1 = t ∧ x.2.row = q.row)

/-- Whether an array output of a step's layers is still without its report (R106, R251). -/
def State.unreportedIn (s : State) (r : StepRec) (first last : Nat) : Bool :=
  s.arrays.addr.any fun a => a.2.outs.any fun o => !o.reported && sameStep o.vec.tag r &&
    decide (first ≤ o.vec.tag.layer ∧ o.vec.tag.layer ≤ last ∧ o.vec.tag.lineage = floorAt r o.vec.tag.layer)

/-- Whether the layers `first` to `last` of a step satisfy R251 here. -/
def State.layersDone (s : State) (r : StepRec) (first last : Nat) : Bool :=
  r.replay.isNone && r.noReplay.isNone && !s.unreportedIn r first last &&
  (List.range (last + 1 - first)).all fun i => s.layerDone r (first + i)

/-- The tiles the tambour served for a step here (R252). -/
def servedTiles (r : StepRec) : Nat := (r.served.map (·.1)).dedup.length

/-- What this module's CHECKs of a step through the layers before one have told of it: its replays and tambour tiles then; none where it has sent none (R252). -/
def toldBefore (r : StepRec) (first : Nat) : Option (Nat × Nat) :=
  ((r.checkTold.filter fun e => e.1 < first).map (·.2)).foldl (fun m e => match m with
    | some x => some (max x.1 e.1, max x.2 e.2)
    | none => some e) none

/-- The CHECK through a layer (R252): a module that has told its figures with an earlier run of its layers adds what has come since, and is counted once. -/
def State.checkBody (s : State) (r : StepRec) (first through : Nat) (c : CheckBody) : CheckBody :=
  let told := toldBefore r first
  { modules := if told.isSome then c.modules else c.modules + 1
    through := through
    replays := c.replays + (r.replays - (told.getD (0, 0)).1)
    tambourTiles := satTo 16 (c.tambourTiles + (servedTiles r - (told.getD (0, 0)).2))
    slow := c.slow ||| r.slow
    level := max c.level s.level }

/-- CHECK: the verdict of the layers before (R251, R258, R259). -/
def execCheck (tag : StepTag) (c : CheckBody) (s : State) : Result :=
  .next (match s.prickT tag with
  | none => s
  | some p =>
    if !(s.ownLayers p).contains (c.through + 1) then s
    else
      let x := s.arrive tag
      if !x.2 then x.1
      else x.1.setStep tag fun r => { r with checks := (tag.lineage, c) :: r.checks.filter fun y => decide (y.2.through ≠ c.through ∨ tag.lineage.toNat < y.1.toNat) })

/-- CHECK_SEND: the verdict through the last of a run of own layers goes to the next layer module (R251, R252). -/
def execCheckSend (tag : StepTag) (s : State) : Result :=
  .next (match s.prickT tag, s.stepOf tag with
  | some p, some r =>
    let own := s.ownLayers p
    let first := segFirst own tag.layer
    let lam := floorAt r tag.layer
    match layerOf p (tag.layer + 1), checkBefore r first with
    | some nx, some c =>
      if r.ended || !own.contains tag.layer || s.owns nx || r.checkSent.contains (tag.layer, lam) || !s.layersDone r first tag.layer || s.start.safe then s
      else
        let body := s.checkBody r first tag.layer c
        (s.setStep tag fun r => { r with
          checkSent := (tag.layer, lam) :: r.checkSent
          checkTold := (tag.layer, r.replays, servedTiles r) :: r.checkTold.filter fun e => e.1 ≠ tag.layer }).sendData (r.tag tag.layer lam) (s.holder nx.owner) true false (.check body)
    | _, _ => s
  | _, _ => s)

/-! ### Commit (R38, R42 to R47, R225, R253, R254) -/

/-- The logits of a row: the columns of the output projection below the vocabulary size, all blocks in (R474). -/
def State.logitsOf (s : State) (p : Pricking) (t : StepTag) (matrix row : Nat) : Option (List Fp32) :=
  let blocks := (List.range ((p.vocabSize + 511) / 512)).map fun b =>
    s.data.outs.find? fun o => decide (o.tag = t ∧ o.matrix = matrix ∧ o.outputBlock = b ∧ o.row = row)
  if blocks.all Option.isSome then some ((blocks.flatMap fun o => match o with | some x => x.values | none => []).take p.vocabSize) else none

/-- What the sampler must know of a sequence: on its head from the sequence, elsewhere free values (log 16). -/
structure SamplerView where
  seed : Nat
  sampling : Sampling
  room : Nat
  stops : List Nat
  nodes : List TreeNode
  cancelled : Bool
  deriving DecidableEq, Repr

/-- The sampler's view of a step. -/
def State.samplerView (s : State) (r : StepRec) : SamplerView :=
  let rem := Config.remote r.motif r.seq r.step
  match s.seqOf (r.tag 0 0) with
  | some q => { seed := q.seed, sampling := q.sampling, nodes := r.nodes
                room := match q.gen with | some g => g.count - g.delivered | none => 0
                stops := match q.gen with | some g => g.stops | none => []
                cancelled := match q.gen with | some g => g.cancelled | none => true }
  | none => { seed := rem 0 0 % 2 ^ 64, sampling := { temp := rem 1 0 % 4097, topK := rem 2 0 % 256 + 1, topP := rem 3 0 % 65536 }
              room := rem 4 0 % (2 ^ 24 - 1) + 1, stops := (List.range (rem 5 0 % 9)).map fun i => rem 5 (i + 1) % 2 ^ 24
              nodes := (List.range r.width).map fun x => { token := rem 9 x % 2 ^ 24, parent := rem 10 x % max x 1 }, cancelled := false }

/-- The verdict of the sampler over a step: accepted nodes and delivered tokens; none while logits are missing (R38, R45). -/
def State.verdict (s : State) (p : Pricking) (r : StepRec) (t : StepTag) : Option (List Nat × List Nat) :=
  match s.outputMatrix t with
  | none => none
  | some om =>
    let v := s.samplerView r
    let rows := (List.range v.nodes.length).map fun x => s.logitsOf p t om x
    if !(rows.all Option.isSome) then none
    else
      let token := fun x => sample v.sampling ((rows.getD x none).getD []) (drawOf v.seed (r.n + nodeLevel v.nodes x))
      let w := verify v.nodes token v.nodes.length 0
      some (w.1, deliverTokens v.room v.stops w.2)

/-- Whether the step depends on one that ended uncommitted here: its token length lies beyond what that step left (R238, R261). -/
def State.dependsOnEnded (s : State) (r : StepRec) : Bool :=
  s.steps.live.any fun e => decide (e.motif = r.motif ∧ e.seq = r.seq ∧ e.companion = r.companion ∧ e.step < r.step ∧ e.after < r.n) && e.ended && e.uncommitted

/-- The token length that a step which ends uncommitted leaves: the sequence's own on its head; elsewhere the one the step found, or what the last commit left,
or, where this module has seen neither, a free value (log 16). -/
def State.lengthBefore (s : State) (r : StepRec) : Nat :=
  match s.seqOf (r.tag 0 0) with
  | some q => q.tokens.length
  | none =>
    if r.n ≠ 0 then r.n
    else match s.steps.live.find? fun e => sameSeq (r.tag 0 0) e && e.ended && decide (e.step < r.step) with
      | some e => e.after
      | none => Config.remote r.motif r.seq r.step 14 0 % (2 ^ 24 + 1)

/-- The COMMIT of a step that ends uncommitted (R261). -/
def State.uncommittedBody (s : State) (r : StepRec) : CommitBody :=
  { time := s.now, tokenLength := s.lengthBefore r, delivered := 0, endFlag := false,
    prefill := r.prefill, uncommitted := true, slow := r.slow, path := [], tokens := [], level := s.level }

/-- The COMMIT of a step with the sampler's verdict (R253). -/
def State.commitBody (s : State) (r : StepRec) (c : CheckBody) (path tokens : List Nat) : CommitBody :=
  let v := s.samplerView r
  let len := if r.prefill then r.n + r.width else r.n + tokens.length
  { time := s.now, tokenLength := len, delivered := if r.prefill then 0 else tokens.length
    endFlag := !r.prefill && (decide (v.room ≤ tokens.length ∨ Config.maxTokens ≤ len) || v.cancelled || tokens.any v.stops.contains)
    prefill := r.prefill, uncommitted := false, slow := c.slow ||| r.slow, path := path, tokens := tokens, level := max c.level s.level }

/-- The group spare of a head in this group, which follows its commits (R296). -/
def State.headSpare (s : State) (p : Pricking) : List Nat := if groupOf p.head = groupOf s.machineId then s.spareId.toList else []

/-- Sends a COMMIT: RELAY to each module of this group that holds part of the motif, and to the lowest such slot of each other group (R254). -/
def State.sendCommit (s : State) (p : Pricking) (t : StepTag) (c : CommitBody) : State :=
  let all := ((s.motifModules p) ++ s.headSpare p).dedup.filter (· ≠ s.machineId)
  let mine := all.filter fun d => groupOf d = groupOf s.machineId
  let heads := ((all.filter fun d => groupOf d ≠ groupOf s.machineId).map groupOf).dedup.filterMap fun g => (all.filter fun d => groupOf d = g).min?
  (mine ++ heads).foldl (fun u d => u.send { u.msg d (some t) (.commit c) with relay := true }) s

/-- Forwards a relayed COMMIT to the other modules of this group that hold part of the motif (R254). -/
def State.relayCommit (s : State) (p : Pricking) (t : StepTag) (c : CommitBody) : State :=
  s.sendAll (((s.motifModules p) ++ s.headSpare p).dedup.filter fun d => decide (d ≠ s.machineId ∧ groupOf d = groupOf s.machineId)) (some t) (.commit c)

/-- The compaction's moves: source and destination slot with the node, for the delivered depths whose node is not there already (R225). -/
def moves (c : CommitBody) : List (Nat × Nat × Nat) :=
  let kv := c.tokenLength - c.delivered - 1
  (List.range (c.delivered - 1)).filterMap fun i =>
    let x := c.path.getD i 0
    if x = i + 1 then none else some (kv + x, kv + i + 1, x)

/-- Whether this module is the one that sends the copies of a page: its home, or, where the home's rank is lost, its shadow. R225 names both as copiers and
R244 both as senders; one copy is enough (DESIGN CHOICE, log 69). -/
def State.sendsCopies (s : State) (r : LayerRec) (page : Nat) : Bool :=
  s.homeHere r page || (s.rankLost r (homeRank r.k page) && s.shadowHere r page)

/-- One move on one layer (R225): every frame of the destination page here takes the slot, and holders of the destination that lack the source are to get a
copy; a destination here whose source is elsewhere waits for one. With the state, what is to be sent: receiver and slot. -/
def State.moveSlot (s : State) (t : StepTag) (p : Pricking) (r : LayerRec) (mv : Nat × Nat × Nat) : State × List (Nat × SlotData) :=
  match s.framesFor t (mv.1 / 16) with
  | [] =>
    (if (s.framesFor t (mv.2.1 / 16)).isEmpty then s
     else { s with attn := { s.attn with compactDue := (t, mv.2.1) :: s.attn.compactDue } }, [])
  | f :: _ =>
    let d := readSlot s.mem (kvBits p) r.kvHeads f (mv.1 % 16) mv.2.1 mv.2.2
    ({ s with mem := (s.framesFor t (mv.2.1 / 16)).foldl (fun m g => writeSlot m (kvBits p) r.kvHeads g (mv.2.1 % 16) d) s.mem },
     if s.sendsCopies r (mv.1 / 16) then
       ((s.pageHolders r (mv.2.1 / 16)).filter fun h => decide (h ≠ s.machineId) && !(s.pageHolders r (mv.1 / 16)).contains h).map fun h => (h, d)
     else [])

/-- Sends the copies of a layer in order; LAST stands on the last to each receiver (R243). -/
def sendCopies (t : StepTag) : List (Nat × SlotData) → State → State
  | [], s => s
  | x :: rest, s => sendCopies t rest (s.send { s.msg x.1 (some t) (.compact x.2) with last := !(rest.any fun y => y.1 = x.1) })

/-- The moves of a layer, in ascending depth. -/
def State.compactLayer (s : State) (t : StepTag) (p : Pricking) (r : LayerRec) (mvs : List (Nat × Nat × Nat)) : State :=
  let x := mvs.foldl (fun (u : State × List (Nat × SlotData)) mv => ((u.1.moveSlot t p r mv).1, u.2 ++ (u.1.moveSlot t p r mv).2)) (s, [])
  sendCopies t x.2 x.1

/-- The copies from other modules that came before this module's own COMMIT are written now. -/
def State.takeWaiting (s : State) (t : StepTag) : State :=
  (s.attn.compactWait.filter fun x => sameTag t x.1).foldl (fun u x =>
    match u.prickT x.1, u.layerT x.1 with
    | some p, some r => u.writeCopy x.1 (kvBits p) r.kvHeads x.2
    | _, _ => u) { s with attn := { s.attn with compactWait := s.attn.compactWait.filter fun x => !sameTag t x.1 } }

/-- The compaction of a committed step on every layer whose pages lie here (R225). -/
def State.compactAll (s : State) (t : StepTag) (p : Pricking) (c : CommitBody) : State :=
  ((p.layers.filter fun r => s.ranksHeld r ≠ []).foldl (fun u r => u.compactLayer { t with layer := r.layer } p r (moves c)) s).takeWaiting t

/-- The fields of a TOKEN record (R77). -/
def tokenFields (r : StepRec) (position token index last : Nat) (stop : Bool) : List (Nat × Nat × Nat) :=
  [(0x18, 4, position), (0x1C, 4, token), (0x20, 8, r.step), (0x28, 2, r.gen), (0x2A, 1, index), (0x2B, 1, b2n (decide (index = last)) + 2 * b2n stop),
   (0x2C, 4, r.seq)]

/-- The mailbox with the TOKEN records of a commit (R50, R77). -/
def tokenRecords (m : Nat) (b : Mailbox) (r : StepRec) (c : CommitBody) (n : Nat) (stops : List Nat) : Mailbox :=
  (List.range c.delivered).foldl (fun b j =>
    putRecord m b 1 c.time (tokenFields r (n + j) (c.tokens.getD j 0) j (c.delivered - 1) (stops.contains (c.tokens.getD j 0)))) b

/-- How a generation stands after a commit: the first end condition of R44 that holds, with its detail. -/
def endCondition (g : GenInfo) (delivered : List Nat) (n : Nat) (closing : Bool) : Option (Nat × Nat) :=
  match delivered.find? g.stops.contains with
  | some t => some (stStopped, t)
  | none =>
    if g.count ≤ g.delivered then some (stOk, 0)
    else if Config.maxTokens ≤ n then some (stSeqFull, 0)
    else if g.cancelled ∨ closing then some (stCancelled, 0)
    else none

/-- The head's part of a generation commit: TOKEN records, progress, tokens, end (R44 to R46, R50, R72). -/
def State.headGenerate (s : State) (q : Seq) (g : GenInfo) (r : StepRec) (c : CommitBody) : State :=
  let toks := c.tokens.take c.delivered
  let g' := { g with delivered := g.delivered + c.delivered }
  let q' : Seq := { q with tokens := q.tokens ++ toks, gen := some g' }
  let s1 := s.setBox g.mailbox (tokenRecords g.mailbox (s.box g.mailbox) r c q.tokens.length g.stops)
  let s2 := ((s1.putSeq q').markSlows r.motif r.seq c.slow).setProgress g.mailbox g'.delivered
  match endCondition g' toks q'.tokens.length (decide (q.state = .closing)) with
  | some e => s2.endWork q' e.1 e.2
  | none => s2

/-- The head's part of a prefill commit (R32, R51). -/
def State.headPrefill (s : State) (q : Seq) (a : AppendInfo) (r : StepRec) (c : CommitBody) : State :=
  let w := if r.width = 0 then c.tokenLength - q.tokens.length else r.width
  let a' := { a with tokens := a.tokens.drop w, committed := a.committed + w }
  let q' : Seq := { q with tokens := q.tokens ++ a.tokens.take w, append := some a' }
  let s1 := ((s.putSeq q').markSlows r.motif r.seq c.slow).setProgress a.mailbox a'.committed
  if a'.target ≤ a'.committed then s1.endWork q' stOk 0 else s1

/-- The head's part of an uncommitted end: the command ends short of pages, with the layer that the step's recall names, or stays cancelled by its close; where
the RECALL has not come yet, the command ends with it (R211, R216). The steps that depended on this one end with COMMITs of their own (R261), and leave the count
of a switch then (R290). -/
def State.headUncommitted (s : State) (q : Seq) (r : StepRec) : State :=
  if q.state = .closing then s
  else match r.noReplay with
    | some f => s.endWork q (if q.hostPages then stPagesShort else stNoPages) f
    | none => { s with seqs := { s.seqs with short := (r.motif, r.seq, r.step) :: s.seqs.short } }

/-- The main sequence's companion advanced to its committed tokens; a tree begun from another pending token is dropped (R37). -/
def State.advanceCompanion (s : State) (motif seq : Nat) : State :=
  match s.findSeq motif seq with
  | none => s
  | some q =>
    let keep := fun (t : Option (List TreeNode)) => t.filter fun n => decide ((n.headD default).token = q.tokens.getLastD 0)
    let s1 := s.putSeq { q with nextTree := keep q.nextTree }
    match q.draft.bind fun d => s.findCompanion d motif seq with
    | none => s1
    | some c => s1.putSeq { c with tokens := q.tokens, nextTree := keep c.nextTree }

/-- On a vacated head, every command in progress that names a sequence ends with `ST_PEER_GONE` once no step of it is in flight (R70). -/
def State.vacateSeq (s : State) (motif seq : Nat) : State :=
  match s.take.vacatedTo with
  | none => s
  | some holder =>
    let busy := match s.findSeq motif seq with | some q => s.seqBusy q | none => false
    if busy then s
    else
      let s1 := match s.findSeq motif seq with
        | some q => (s.putSeq { q with closeBox := none }).endWork { q with closeBox := none } stPeerGone holder
        | none => s
      (s1.boxes.box.filter fun e => namesSeq e.2 motif seq).foldl (fun u e => u.failCmd e.1 stPeerGone holder)
        { s1 with seqs := { s1.seqs with binds := s1.seqs.binds.filter fun b => !decide (b.2.1.motif = motif ∧ b.2.1.seq = seq) } }

/-- What a commit or an uncommitted end does on the head (R254). -/
def State.headCommit (s : State) (r : StepRec) (c : CommitBody) : State :=
  let s1 : State := { s with steps := { s.steps with commitLevel := Tab.put 0 s.steps.commitLevel r.motif c.level } }
  if r.companion.isSome then s1
  else match s1.findSeq r.motif r.seq with
    | none => s1.finishBinds
    | some q0 =>
      let q : Seq := { q0 with nextStep := max q0.nextStep (r.step + 1) }
      let s2 := if c.uncommitted then s1.headUncommitted q r
        else match q.gen, q.append with
          | some g, _ => s1.headGenerate q g r c
          | none, some a => s1.headPrefill q a r c
          | none, none => s1.putSeq q
      (((s2.advanceCompanion r.motif r.seq).vacateSeq r.motif r.seq).finishBinds).closeIfDone r.motif r.seq

/-- The RECALL of a step that has ended uncommitted tells the head its layer: the command that waits for it ends short of pages (R211, R216). -/
def State.shortRecall (s : State) (t : StepTag) (body : RecallBody) : State :=
  if !body.noReplay || t.companion.isSome || !s.seqs.short.contains (t.motif, t.seq, t.step) then s
  else match s.findSeq t.motif t.seq with
    | none => s
    | some q => ((s.endWork q (if q.hostPages then stPagesShort else stNoPages) body.layer).vacateSeq t.motif t.seq).closeIfDone t.motif t.seq

/-- A COMMIT applied on this module (R254): compaction, release, mark; on the head, and on the group spare that holds the head's sequence
table (R296), its records and status; rows that waited for the room enter (R239). -/
def State.applyCommit (s : State) (t : StepTag) (c : CommitBody) : State :=
  let s0 := s.withStep t
  (match s0.stepOf t, s0.prickT t with
  | some r, some p =>
    if r.ended then s0
    else
      let s1 := if c.uncommitted ∨ c.prefill then s0 else s0.compactAll t p c
      let s2 := s1.endStep t c.tokenLength c.uncommitted
      if s2.headOf p || (decide (s2.role = 1) && (s2.findSeq r.motif r.seq).isSome) then s2.headCommit { r with prefill := c.prefill } c else s2
  | _, _ => s0.endStep t c.tokenLength c.uncommitted).admitRows

/-- Whether a step may commit after the one before it (R47): that one has ended here. A tail that has taken the role over, and has ended no step of the
sequence, knows none before the first that it has in flight. -/
def State.turnToCommit (s : State) (r : StepRec) : Bool :=
  let mine := s.steps.live.filter fun e => sameSeq (r.tag 0 0) e
  decide (r.step ≤ 1) || (mine.any fun e => e.ended && decide (e.step + 1 = r.step)) ||
    (!(mine.any fun e => e.ended || decide (e.step < r.step)) &&
      (s.take.roles.any (fun e => e.2 = s.machineId) || s.take.moves.any (fun mv => mv.holder = s.machineId)))

/-- A finished tree sent from the draft motif's tail to the main motif's head (R37, R244); where this module has no tables of the main motif, which member that is
no message tells: a free value (log 16). -/
def State.sendTree (s : State) (t : StepTag) (main : Nat) (nodes : List TreeNode) : State :=
  let others := (s.cfg.cur.members.map (·.machineId)).filter (· ≠ s.machineId)
  match s.prickNow main with
  | some pm => s.send (s.msg (s.holder pm.head) (some t) (.tree nodes))
  | none => match others[Config.remote t.motif t.seq t.step 12 2 % max 1 others.length]? with
    | some d => s.send (s.msg d (some t) (.tree nodes))
    | none => s

/-- How a companion step of a sequence headed elsewhere grows its tree: the children of each node, and whether this depth is the last. No message tells the draft
motif's modules the shape: free values (log 16). -/
def farShape (r : StepRec) : Nat × Bool :=
  (1 + Config.remote r.motif r.seq r.step 12 0 % 64, decide (Config.remote r.motif r.seq r.step 12 1 % 2 = 1))

/-- The end of a companion step on the tail of a draft motif that is headed elsewhere, when its logits are in: the step's nodes with their children, as the tree of
the main sequence where this depth is the last. Which nodes the step has no message tells the tail: free values (log 16). -/
def State.treeOut (s : State) (p : Pricking) (r : StepRec) (main : Nat) : State :=
  let last := p.layers.length - 1
  let t := r.tag last (floorAt r last)
  match s.outputMatrix t with
  | none => s
  | some om =>
    let nodes := (s.samplerView r).nodes
    let rows := (List.range nodes.length).map fun x => s.logitsOf p t om x
    if decide (r.width = 0) || s.headOf p || !(rows.all Option.isSome) then s
    else
      let grown := (nodes ++ (rows.mapIdx fun x (l : Option (List Fp32)) =>
        (topTokens (farShape r).1 (l.getD [])).map fun c => ({ token := c, parent := x } : TreeNode)).flatten).take 64
      let s1 := s.endStep t r.n false
      if !(farShape r).2 then s1
      else match s1.findSeq main r.seq with
        | some q => onlyIf (treeOk grown && decide (q.draft = some r.motif)) s1 (s1.giveTree q grown)
        | none => s1.sendTree t main grown

/-- COMMIT_DECISION: the tail commits a step, or ends it uncommitted (R47, R253, R261); a companion step ends with its tree's tokens (R37). -/
def execCommitDecision (tag : StepTag) (s : State) : Result :=
  .next (match s.prickT tag, s.stepOf tag with
  | some p, some r =>
    let last := p.layers.length - 1
    let lam := floorAt r last
    let t := r.tag last lam
    if !s.tailOf p || r.ended || s.start.safe then s
    else match r.companion with
    | some main => s.treeOut p r main
    | none =>
    if !s.turnToCommit r then s
    else if r.noReplay.isSome || s.dependsOnEnded r then
      let c := s.uncommittedBody r
      (s.sendCommit p t c).applyCommit t c
    else
      let first := segFirst (s.ownLayers p) last
      match checkBefore r first with
      | none => s
      | some chk =>
        if !s.layersDone r first last || decide (lam ≠ r.maxLineage) then s
        else if r.prefill then
          let c := s.commitBody r chk [] []
          (s.sendCommit p t c).applyCommit t c
        else match s.verdict p r t with
          | none => s
          | some v =>
            let c := s.commitBody r chk v.1 v.2
            (s.sendCommit p t c).applyCommit t c
  | _, _ => s)

/-! ### Companion steps (R34, R37, R255) -/

/-- What a sequence's next tree grows from: the token length and the pending token, as committed, or, with a generation step in flight whose verdict the tail has,
as the verdict will leave them (R37, R255). Where the tail is another module, whether it has a verdict, and which, no message tells: free values (log 16). -/
def State.draftBase (s : State) (q : Seq) : Option (Nat × Nat) :=
  match s.seqInFlight (seqTag q) with
  | [] => some (q.tokens.length, q.tokens.getLastD 0)
  | [r] =>
    if r.prefill || r.replay.isSome || r.noReplay.isSome then none
    else match s.prickT (r.tag 0 0) with
      | none => none
      | some p =>
        let last := p.layers.length - 1
        let rem := Config.remote r.motif r.seq r.step 35
        if s.tailOf p then
          (s.verdict p r (r.tag last (floorAt r last))).map fun v => (q.tokens.length + v.2.length, (q.tokens ++ v.2).getLastD 0)
        else if rem 0 % 2 = 1 then some (q.tokens.length + 1 + rem 1 % (treeDepth r.nodes + 1), rem 2 % max 1 p.vocabSize)
        else none
  | _ => none

/-- The nodes of the deepest depth of a tree. -/
def deepest (nodes : List TreeNode) : List TreeNode :=
  (nodes.mapIdx fun x n => (x, n)).filterMap fun e => if nodeLevel nodes e.1 = treeDepth nodes then some e.2 else none

/-- The start of a companion step, on the draft motif's head: a step of the companion over the nodes of its tree's deepest depth, with the draft motif's
generation in force (R34, R37). The tree begins with the pending token. -/
def State.startCompanion (s : State) (c : Seq) (n pending : Nat) : State :=
  match s.mayStart c.motif with
  | none => s
  | some p =>
    let nodes := c.nextTree.getD [{ token := pending, parent := 0 }]
    let width := (deepest nodes).length
    onlyIf (s.roomForStep p width) s (s.startStep p { c with nextTree := some nodes } n false (deepest nodes) 0)

/-- The logits of a companion step: those the draft motif's tail has here, else those it reports. -/
def State.draftLogits (s : State) (p : Pricking) (r : StepRec) (reported : List (List Fp32)) : Option (List (List Fp32)) :=
  let last := p.layers.length - 1
  let t := r.tag last (floorAt r last)
  if s.tailOf p then
    match s.outputMatrix t with
    | none => none
    | some om =>
      let rows := (List.range r.width).map fun x => s.logitsOf p t om x
      if rows.all Option.isSome then some (rows.map fun l => l.getD []) else none
  else if reported.length = r.width ∧ reported.all (fun l => l.length = p.vocabSize) then some reported else none

/-- The end of a companion step: the tree gains a depth, and goes to the main sequence once it is as deep as its shape; a tree discarded meanwhile gains
none (R37, R255). No COMMIT ends a companion step (DESIGN CHOICE, log 73). -/
def State.endCompanion (s : State) (q c : Seq) (r : StepRec) (logits : List (List Fp32)) : State :=
  let s1 := s.endStep (r.tag 0 0) r.n false
  match c.nextTree, q.gen with
  | some nodes, some g =>
    let d := treeDepth nodes
    let grown := growTree nodes (g.branches.getD d 0) logits
    if g.branches.length ≤ d + 1 then (s1.putSeq { c with nextTree := none }).giveTree q grown else s1.putSeq { c with nextTree := some grown }
  | _, _ => s1

/-- The same on the head of a draft motif whose main sequence is headed elsewhere; the tree goes there from the tail (R37, R244). -/
def State.endFarCompanion (s : State) (p : Pricking) (c : Seq) (r : StepRec) (main : Nat) (logits : List (List Fp32)) : State :=
  let s1 := s.endStep (r.tag 0 0) r.n false
  match c.nextTree with
  | none => s1
  | some nodes =>
    let grown := (growTree nodes (farShape r).1 logits).take 64
    if (farShape r).2 || decide (64 ≤ grown.length) then
      let s2 := s1.putSeq { c with nextTree := none }
      if s2.tailOf p then s2.sendTree (r.tag 0 0) main grown else s2
    else s1.putSeq { c with nextTree := some grown }

/-- The draft motif headed here that keeps a companion for a main sequence headed elsewhere: one that keeps it already, else which of them the sequence names, if
any, no message tells: a free value (R37; log 16). -/
def State.draftHere (s : State) (main seq : Nat) : Option Nat :=
  let headed := (List.range 16).filter fun d => decide (d ≠ main) && match s.seqMotif d with | some (.ok _) => true | _ => false
  match headed.find? fun d => (s.findCompanion d main seq).isSome with
  | some d => some d
  | none => headed[Config.remote main seq 0 33 0 % (headed.length + 1)]?

/-- Whether this module is the head of a motif, as far as its tables tell. -/
def State.headsMotif (s : State) (motif : Nat) : Bool := match s.prickNow motif with | some p => s.headOf p | none => false

/-- The companion kept for a main sequence headed elsewhere (R37). -/
def farCompanion (draft main seq : Nat) : Seq :=
  Seq.start draft seq 0 false none (some main) { temp := 0, topK := 1, topP := 0xFFFF }

/-- The next companion step for a main sequence headed elsewhere: one in flight ends when its logits are in, else one starts; what the tree grows from no message
tells: free values (R37; log 16). -/
def State.farStep (s : State) (main seq draft : Nat) (logits : List (List Fp32)) : State :=
  let s1 := if (s.findCompanion draft main seq).isSome then s else s.addSeq (farCompanion draft main seq)
  match s1.findCompanion draft main seq with
  | none => s1
  | some c => match s1.seqInFlight (seqTag c) with
    | r :: _ => match s1.prickT (r.tag 0 0) with
      | none => s1
      | some p => match s1.draftLogits p r logits with
        | some l => s1.endFarCompanion p c r main l
        | none => s1
    | [] =>
      let rem := Config.remote main seq c.nextStep 34
      s1.startCompanion c (1 + rem 0 % Config.maxTokens) (rem 1 % 2 ^ 24)

/-- COMPANION_STEP: the draft motif runs the next companion step of a tree: one that is not in flight starts, one that is ends when its logits are in (R34, R37,
R255). -/
def execCompanionStep (main seq : Nat) (logits : List (List Fp32)) (s : State) : Result :=
  need (decide (main < 16)) .noSuchMotif
    (match s.findSeq main seq with
    | none =>
      if s.headsMotif main then s
      else match s.draftHere main seq with
        | none => s
        | some d => s.farStep main seq d logits
    | some q => match q.draft.bind fun d => s.findCompanion d main seq with
      | none => s
      | some c => match s.seqInFlight (seqTag c) with
        | r :: _ => match s.prickT (r.tag 0 0) with
          | none => s
          | some p => match s.draftLogits p r logits with
            | some l => s.endCompanion q c r l
            | none => s
        | [] => match q.gen, q.nextTree, s.draftBase q with
          | some g, none, some b => if g.branches = [] then s else s.startCompanion c b.1 b.2
          | _, _, _ => s)

/-- COMMIT (R254, R370). -/
def execCommit (tag : StepTag) (relay : Bool) (c : CommitBody) (s : State) : Result :=
  .next (match s.prickT tag with
  | none => s
  | some p =>
    if s.stepOver tag then s
    else (if relay then s.relayCommit p tag c else s).applyCommit tag c)

/-! ### Recall and replay (R256 to R262) -/

/-- RECALL_RAISE: a cause found in data of an uncommitted step raises a recall (R256, R257); a flagged array is served by the tambour for
the step from then on (R260). -/
def execRecallRaise (tag : StepTag) (cause layer array : Nat) (s : State) : Result :=
  .next (match s.stepOf tag with
  | none => s
  | some r =>
    if r.ended ∨ cause = 0 ∨ 6 < cause then s
    else
      let named := decide ((cause = 1 ∨ cause = 2) ∧ array < Config.arrays)
      let s1 := if named then s.setStep tag fun r => { r with flagged := (layer, array) :: r.flagged } else s
      s1.raiseRecall tag cause layer (if named then array else 0xFFFF) (if named then kArray else kModule) (if named then array else 0))

/-- Retained output rows of a layer sent again, at a new lineage, to the module that now holds the next layer (R239, R261). -/
def State.resend (s : State) (p : Pricking) (t : StepTag) (f : Nat) (lam : Lineage) : State :=
  match s.stepOf t, layerOf p f with
  | some r, some nx => (r.outputs.filter fun x => x.layer + 1 = f).foldl (fun u x => u.sendRows r (r.tag x.layer lam) (u.holder nx.owner) x.first x.rows) s
  | _, _ => s

/-- The layers of a pricking that belong to a machine, rising. -/
def layersOf (p : Pricking) (machine : Nat) : List Nat := (p.layers.filter fun r => r.owner = machine).map (·.layer)

/-- Whether this module holds a layer of a pricking. -/
def State.ownsLayer (s : State) (p : Pricking) (l : Nat) : Bool := (s.ownLayers p).contains l

/-- The upstream module's rows for the lost layers of the steps in flight, but one, go to the module that takes them over, at a new lineage (R261, R295). For a
step the new holder has not heard of, this module forms the lineage as the holder would (DEDUCED, log 30). -/
def State.feedTakeover (s : State) (machine holder : Nat) (but : StepRec → Bool) : State :=
  (s.inFlight.filter fun r => !but r).foldl (fun u r =>
    match (u.motif r.motif).prickFor r.gen with
    | none => u
    | some p => match layersOf p machine with
      | [] => u
      | f :: _ =>
        if f = 0 ∨ !u.ownsLayer p (f - 1) then u
        else
          let lam := raiseLineage r.maxLineage f
          let body : RecallBody := { cause := 4, noReplay := false, layer := f, array := 0xFFFF, origin := holder, time := u.now }
          (u.takeRecall (r.tag f lam) lam f body).resend p (r.tag f lam) f lam) s

/-- A peer-loss recall tells who has taken over its first layer, also to a module of another group, which hears no heartbeat of the lost module (R244, R261): the
rows of the other steps in flight go there too. -/
def State.learnLoss (s : State) (tag : StepTag) (r : RecallBody) : State :=
  match ((s.motif tag.motif).prickFor tag.gen).bind fun p => layerOf p r.layer with
  | none => s
  | some l =>
    if r.cause ≠ 4 ∨ l.owner = r.origin ∨ s.holder l.owner = r.origin ∨ r.origin = s.machineId then s
    else
      ({ s with take := { s.take with roles := (l.owner, r.origin) :: s.take.roles.filter fun x => x.1 ≠ l.owner } } : State).feedTakeover l.owner r.origin
        (sameStep tag)

/-- RECALL (R258); for a peer loss, the layer module before the recalled layer sends its retained rows again (R261). -/
def execRecall (tag : StepTag) (r : RecallBody) (s : State) : Result :=
  .next (if s.stepOver tag then s.shortRecall tag r
  else
    let s0 := (s.withStep tag).setStep tag fun x => { x with maxLineage := lineMax x.maxLineage tag.lineage }
    let s1 := (s0.takeRecall tag tag.lineage r.layer r).learnLoss tag r
    match s1.prickT tag with
    | none => s1
    | some p =>
      if r.cause = 4 ∧ 0 < r.layer ∧ (s1.ownLayers p).contains (r.layer - 1) then s1.resend p tag r.layer tag.lineage else s1)

/-- The flagged arrays of a step's layer. -/
def flaggedIn' (r : StepRec) (layer : Nat) : List Nat := (r.flagged.filter fun e => e.1 = layer).map (·.2)

/-- What a replay keeps of its first layer (R260 item 3): nothing unless the cause named arrays. -/
def State.keepOf (s : State) (r : StepRec) (f cause : Nat) : Keep :=
  let arrays := flaggedIn' r f
  if !(decide (cause = 1 ∨ cause = 2)) || arrays.isEmpty || allTambour r f then Keep.nothing
  else
    { attn := arrays.all s.afterAttention
      blocks := some (arrays.filterMap fun a => (s.held a).map fun h => (h.tile.matrix, h.tile.outputBlock))
      motif := r.motif
      layer := f }

/-- Whether an array output of layer f is kept by a replay. -/
def State.keepOut (s : State) (k : Keep) (array : Nat) (_o : ArrayOut) : Bool :=
  match s.held array with
  | some h => k.block h.tile.matrix h.tile.outputBlock
  | none => false

/-- Whether a vector of layer f at a superseded lineage is still without its report (R260 item 1). -/
def State.replayWaits (s : State) (r : StepRec) (f : Nat) (lam : Lineage) : Bool :=
  s.arrays.addr.any fun a => a.2.outs.any fun o => !o.reported && sameStep o.vec.tag r &&
    decide (o.vec.tag.layer = f ∧ o.vec.tag.lineage.toNat < lam.toNat)

/-- Modules that still hold attention data of layer f which the replay does not keep after all (R260 item 3). -/
def attnHolders (r : StepRec) (f : Nat) (lam : Lineage) : List Nat :=
  ((r.sentTo.filter fun e => decide (e.layer = f ∧ e.lineage.toNat < lam.toNat) && e.attn).map (·.dest)).dedup

/-- REPLAY: once the superseded blocks of layer f have reported, what R260 keeps takes the new lineage, the rest is discarded, and layer f
runs again from its retained input, whose positions the window has already counted (DESIGN CHOICE, log 93). -/
def execReplay (tag : StepTag) (s : State) : Result :=
  .next (match s.stepOf tag with
  | none => s
  | some r => match r.replay with
    | none => s
    | some (f, lam, body) =>
      if r.ended || s.start.safe || s.replayWaits r f lam then s
      else
        let keep := s.keepOf r f body.cause
        let t := r.tag f lam
        let s1 := if keep.attn then s else s.sendAll ((attnHolders r f lam).filter (· ≠ s.machineId)) (some t) (.recall body)
        let s2 := s1.sweepAll t f lam keep (s1.keepOut keep)
        (({ s2 with mem := { s2.mem with flaggedStaging := unflagged t s2.mem.flaggedStaging } } : State).setStep t fun r => { r with
          replay := none, replays := r.replays + 1, slow := r.slow ||| slowBit slowReplay ||| (if allTambour r f then slowBit slowTambour else 0)
          inputs := r.inputs.map fun x => if x.layer = f then { x with lineage := lam } else x
          sentTo := if keep.attn then r.sentTo else r.sentTo.filter fun e => !(decide (e.layer = f ∧ e.lineage.toNat < lam.toNat) && e.attn) }).count
          fun c => { c with replays := sat64 c.replays 1 })

end Sys2Proof.Machine
end

