-- ==== Sys2Proof/Machine/Retire.lean ====
section
/-! DEFINITION. Which tile an array is to hold, programming an array, and the retirement and remapping of physical arrays (R113 to R118, R155, R158, R171, R275, R384). -/

namespace Sys2Proof.Machine

/-! ### Which tile an array is to hold (R18, R114, R283) -/

/-- A tile as an array holds it: with its layer's gain tap, cell format and range retry. -/
def heldOf (p : Pricking) (motif gen : Nat) (t : Tile) : Held :=
  match layerOf p t.layer with
  | some r => { motif := motif, gen := gen, gain := r.gainTap, w3 := r.w3, retry := r.retry, tile := t }
  | none => { motif := motif, gen := gen, gain := 0, w3 := false, retry := false, tile := t }

/-- The tile of a copy that an addressable array is to hold. -/
def copyTile (motif gen a : Nat) : Option Pricking → Option Shard → Option Held
  | some p, some sh => (sh.tiles.find? fun t => t.array = a).map (heldOf p motif gen)
  | _, _ => none

/-- The tile that an addressable array is to hold, from the mirrors of the resident copies. -/
def State.tileFor (s : State) (a : Nat) : Option Held :=
  s.motifs.table.findSome? fun e =>
    match copyTile e.1 e.2.gen1 a e.2.prick e.2.mirror with
    | some h => some h
    | none => copyTile e.1 e.2.gen2 a e.2.prick2 e.2.mirror2

/-- Whether an addressable array holds no tile of a resident motif and maps to a working physical array (R114, R283). -/
def State.unowned (s : State) (a : Nat) : Bool :=
  (s.workOf a).isSome && (s.tileFor a).isNone && (match s.held a with | some h => !s.heldLive h | none => true)

/-! ### Programming (R155, R158, R173, R275) -/

/-- The offset trims after a change of gain tap (R155). -/
def rescale (gOld gNew : Nat) (c : CoefSet) : CoefSet :=
  if gOld = 0 ∨ gNew = 0 ∨ gOld = gNew then c
  else { c with offsets := c.offsets.foldl (fun t e => Tab.put 0 t e.1 (clampI (-64) 63 (roundDivEven (e.2 * gOld) gNew))) [] }

/-- A physical array that enters confirmation from its set in force, needing `n` in-band windows (R173). -/
def PhysArray.confirm (p : PhysArray) (n now : Nat) : PhysArray :=
  { p with calState := 2, needed := n, streak := 0, windows := 0, stats := Stats.init, windowStart := now }

/-- A physical array programmed with a tile, or with its calibration pattern (R155, R158, R275). The rescaled set that this puts in force is no commit: epoch and
commit time stay (DESIGN CHOICE, log 95). -/
def State.program (s : State) (ph : Nat) (h : Option Held) : State :=
  let p := s.phys ph
  let s1 := s.setPhys ph { p with cells := h }
  let g := gainOf s1 ph
  let p1 : PhysArray := { p with
    cells := h, coef := rescale p.gainTap g p.coef, gainTap := g, programmed := s.now, restored := false, defaulted := false, progSet := none,
    progFrom := (false, false), shadow := none, shadowHost := false, far := [], outTrims := [], levels := [], spread := [], cellWrong := false, topUp := false, writing := false }
  s1.setPhys ph (p1.confirm 2 s.now)

/-- An addressable array whose physical array has just been programmed (R395: its counts start again). -/
def ArrayState.programmed (a : ArrayState) : ArrayState :=
  { a with
    service := .out, due := none, suspects := 0, auditFaults := 0, lastSuspect := none, suspectRefresh := none, faultRefresh := none,
    forced := false, onTambour := false, outForService := false, spare := none, refreshing := false, dueSuspect := false, dueFault := false, retire := none }

/-- A physical array that begins warm-up (R172). -/
def PhysArray.warm (p : PhysArray) (now : Nat) : PhysArray :=
  { p with calState := 1, windows := 0, streak := 0, stats := Stats.init, windowStart := now }

/-- A host set in force at once, with the next state of R178. -/
def State.hostCommit (s : State) (ph outcome : Nat) (c : CoefSet) : State :=
  let p := (s.phys ph).commit c (gainOf s ph) s.now
  s.setPhys ph (
    if outcome = 1 then { p with restored := true, defaulted := false }.confirm 4 s.now
    else if outcome = 2 then { p with restored := false, defaulted := true }.warm s.now
    else p)

/-- Whether an array carries no live traffic: it is FREE or OUT (R179). -/
def State.carriesNone (s : State) (a : Nat) : Bool := decide ((s.array a).service = .free ∨ (s.array a).service = .out)

/-- A host set that waits at an array without live traffic comes into force (R179). -/
def State.takeHost (s : State) (a : Nat) : State :=
  match (s.array a).hostSet with
  | some (c, outcome, _) => if s.carriesNone a then (s.hostCommit (s.physOf a) outcome c).setArray a { s.array a with hostSet := none } else s
  | none => s

/-- A physical array as warm-up finds it: uncalibrated and never warmed up, it begins where it may (R160, R174). -/
def State.warmed (s : State) (ph : Nat) : PhysArray :=
  let p := s.phys ph
  match s.indexOf ph with
  | some a => if p.calState = 0 ∧ p.windows = 0 ∧ s.mayWarm a then p.warm s.now else p
  | none => p

/-- The table of the first `n` values of a function, in canonical form. -/
def Tab.tabulate {α : Type} [DecidableEq α] (d : α) (n : Nat) (f : Nat → α) : Tab α :=
  ((List.range n).map fun i => (i, f i)).filter fun e => decide (e.2 ≠ d)

/-- Every array that may take part begins warm-up (R174, R191). -/
def State.startArrays (s : State) : State :=
  { s with arrays := { s.arrays with phys := Tab.tabulate PhysArray.init Config.physArrays s.warmed } }

/-! ### Retirement (R117, R118, R384) -/

/-- The difference of two numbers. -/
def absDiff (a b : Nat) : Nat := (a - b) + (b - a)

/-- Réseau hops between two physical arrays: grid steps (DEDUCED, log 24). -/
def hops (p q : Nat) : Nat := absDiff (gridRow p) (gridRow q) + absDiff (gridCol p) (gridCol q)

/-- The 512 arrays of the spare rows. -/
def spareArrays : List Nat := ((List.range 256).map fun c => 64 * 256 + c) ++ (List.range 256).map fun c => 129 * 256 + c

/-- Whether a spare is free: mapped by no index, not retired, not promised to one. -/
def State.spareFree (s : State) (p : Nat) : Bool :=
  (s.indexOf p).isNone && !s.arrays.retired.contains p && !(s.arrays.addr.any fun e => e.2.spare = some p)

/-- The order of choice of R117 as a number: same column first, then hops, then row, then column. -/
def spareKey (old p : Nat) : Nat :=
  ((b2n (decide (gridCol p ≠ gridCol old)) * 1000 + hops old p) * 1000 + gridRow p) * 1000 + gridCol p

/-- The spare that R117 chooses for a retired array. -/
def State.chooseSpare (s : State) (old : Nat) : Option Nat :=
  (spareArrays.filter s.spareFree).foldl (fun best p => match best with
    | none => some p
    | some q => if spareKey old p < spareKey old q then some p else best) none

/-- Retires the physical array of an index: record, selvage, and a spare to program, or the tambour for good (R117, R118, R384, R389). The index maps to it until
the spare replaces it (R5). A host set that waits at the array goes with it (DESIGN CHOICE, log 98). -/
def State.retireArray (s : State) (a reason : Nat) : State :=
  match s.workOf a with
  | none => s
  | some p =>
    let new := s.chooseSpare p
    let place := match new with | some q => [BitVec.ofNat 8 (gridRow q), BitVec.ofNat 8 (gridCol q)] | none => [0xFF, 0xFF]
    let s1 := s.event { cls := 15, code := 1, op := 0, kind := kArray, index := a, tag := none, epoch := (s.phys p).epoch,
                        detail := [BitVec.ofNat 8 (gridRow p), BitVec.ofNat 8 (gridCol p)] ++ place ++ leBytes 1 reason }
    let s2 : State := { s1.setPhys p { s1.phys p with topUp := false } with arrays := { (s1.setPhys p { s1.phys p with topUp := false }).arrays with
      retired := p :: s1.arrays.retired } }
    s2.setArray a { s2.array a with
      service := .out, spare := new, onTambour := new.isNone, due := none, retire := none, refreshing := false, hostSet := none, dueSuspect := false,
      dueFault := false, outForService := false }

/-- The spare of an index, programmed, takes the index over: its array is confirmed and then serves (R117, R275). -/
def State.takeSpare (s : State) (a p : Nat) : State :=
  let s1 : State := { s with arrays := { s.arrays with remap := Tab.put (homePhys a) s.arrays.remap a p } }
  let s2 := s1.program p (s.tileFor a)
  s2.setArray a (s2.array a).programmed

/-- Takes an array out of service: it drains first (R115); the flag says whether it is drained. -/
def State.drain (s : State) (a : Nat) : State × Bool :=
  let x := s.array a
  if x.outs = [] then (s, true)
  else if x.service = .serving then (s.setArray a { x with service := .draining }, false)
  else (s, false)

/-- An array back from being out: SERVING when it holds a tile of a resident copy and its calibration tracks, FREE when it holds none
(R114, R116, R161). -/
def State.giveBack (s : State) (a : Nat) : State :=
  match s.workOf a with
  | none => s
  | some p =>
    let live := match s.held a with | some h => s.heldLive h | none => false
    if !live then (s.setArray a { s.array a with service := .free, outForService := false }).takeHost a
    else if (s.phys p).calState = 3 then s.setArray a { s.array a with service := .serving, outForService := false }
    else s

end Sys2Proof.Machine
end

