-- ==== Sys2Proof/Machine/Prickings.lean ====
section
/-! DEFINITION. Prickings and shards as bytes: header, layer table, shard table and tile records, and the checks of a load (R136, R200, R270 to R273, R476). -/

namespace Sys2Proof.Machine

/-! ### Reading the tables (R270 to R272) -/

/-- Whether a region's header identifies a TG2-0810 pricking (R17, R270): the offset of the first of magic, format and target that differs. -/
def headerAlien (b : Bytes) : Option Nat :=
  if field b 0x00 4 ≠ 0x4B525051 then some 0x00
  else if field b 0x04 2 ≠ 1 then some 0x04
  else if field b 0x06 2 ≠ 0x0810 then some 0x06
  else none

def headerLayers (b : Bytes) : Nat := field b 0x1E 2
def headerShards (b : Bytes) : Nat := field b 0x26 2
def shardTableAt (b : Bytes) : Nat := field b 0x28 8
def layerTableAt (b : Bytes) : Nat := field b 0x30 8

/-- Bytes of the region up to the end of both tables, more than the header alone. -/
def tablesEnd (b : Bytes) : Nat := max 65 (max (layerTableAt b + 64 * headerLayers b) (shardTableAt b + 64 * headerShards b))

/-- A layer record at an offset (R271). -/
def readLayer (b : Bytes) (o : Nat) : LayerRec :=
  { layer := field b o 2, headDim := field b (o + 0x02) 2, pairing := field b (o + 0x04) 1, gainTap := field b (o + 0x0E) 1
    retry := bit (field b (o + 0x0F) 1) 0, w3 := bit (field b (o + 0x0F) 1) 1, fallback := bit (field b (o + 0x0F) 1) 2
    baseFormat := field b (o + 0x10) 1, k := field b (o + 0x11) 1, owner := field b (o + 0x12) 2, qHeads := field b (o + 0x14) 2
    kvHeads := field b (o + 0x16) 1, returnWindows := field b (o + 0x17) 1, fbWindow := field b (o + 0x18) 4, ovrLimit := field b (o + 0x1C) 4
    nsatLimit := field b (o + 0x20) 4, zeroedLimit := field b (o + 0x24) 4, attnMode := field b (o + 0x28) 1, window := field b (o + 0x29) 3
    lambda := BitVec.ofNat 32 (field b (o + 0x2C) 4), spread := (List.range 16).map fun r => field b (o + 0x30) 8 / 16 ^ r % 16
    headSeed := field b (o + 0x38) 8 }

/-- A shard table entry at an offset (R272). -/
def readShardEntry (b : Bytes) (o : Nat) : ShardEntry :=
  { offset := field b o 8, length := field b (o + 0x08) 8, machineId := field b (o + 0x10) 2, tiles := field b (o + 0x14) 4
    vectorLen := field b (o + 0x18) 8, digest := (b.drop (o + 0x20)).take 32 }

/-- The bytes of a table. -/
def tableBytes (b : Bytes) (at_ n : Nat) : Bytes := (b.drop at_).take (64 * n)

/-- The header and both tables of a region, read (R270 to R272, R284). -/
def readPricking (b : Bytes) : Pricking :=
  { vocabDigest := field b 0x10 8, vocabSize := field b 0x18 4, width := field b 0x1C 2, head := field b 0x20 2, tail := field b 0x22 2
    kvI8 := decide (field b 0x24 1 = 1), frameKib := field b 0x25 1
    layers := (List.range (headerLayers b)).map fun i => readLayer b (layerTableAt b + 64 * i)
    shards := (List.range (headerShards b)).map fun i => readShardEntry b (shardTableAt b + 64 * i)
    digest := shake256 32 (b.take 64 ++ tableBytes b (layerTableAt b) (headerLayers b) ++ tableBytes b (shardTableAt b) (headerShards b)) }

/-! ### Checking the tables (R200, R270 to R273, R476) -/

/-- Offsets at which checks fail: of each pair the offset where the condition holds. -/
def failsAt (l : List (Bool × Nat)) : List Nat := (l.filter (·.1)).map (·.2)

/-- Bytes from `lo` to below `hi` that are not 0. -/
def dirty (b : Bytes) (lo hi : Nat) : List Nat := (firstNonZero b lo hi).toList

/-- Header fields out of range, and reserved bytes that are not 0; `len` is the region's length. -/
def headerBad (b : Bytes) (len : Nat) : List Nat :=
  dirty b 0x08 0x10 ++ dirty b 0x38 0x40 ++ failsAt
    [(decide (field b 0x18 4 = 0 ∨ 16777216 < field b 0x18 4), 0x18),
     (decide (field b 0x1C 2 = 0 ∨ field b 0x1C 2 % 1024 ≠ 0), 0x1C),
     (decide (headerLayers b = 0 ∨ 4096 < headerLayers b), 0x1E),
     (decide (1 < field b 0x24 1), 0x24),
     (decide (field b 0x25 1 < 4 ∨ 64 < field b 0x25 1), 0x25),
     (decide (headerShards b = 0 ∨ 4096 < headerShards b), 0x26),
     (decide (shardTableAt b % 64 ≠ 0 ∨ len < shardTableAt b + 64 * headerShards b), 0x28),
     (decide (layerTableAt b % 64 ≠ 0 ∨ len < layerTableAt b + 64 * headerLayers b), 0x30)]

/-- Spread nibbles at ranks k and above that are not 0, by their byte (R476). -/
def spreadDirty (r : LayerRec) (o : Nat) : List Nat :=
  (((List.range 16).filter fun i => decide (r.k ≤ i ∧ r.spread.getD i 0 ≠ 0)).map fun i => o + 0x30 + i / 2).take 1

/-- What is wrong with the layer record of layer `i` at offset `o`. -/
def layerBad (b : Bytes) (i o : Nat) : List Nat :=
  let r := readLayer b o
  dirty b (o + 0x05) (o + 0x0E) ++ spreadDirty r o ++ failsAt
    [(decide (r.layer ≠ i), o), (decide (r.headDim ≠ 128), o + 0x02), (decide (1 < r.pairing), o + 0x04),
     (!([2, 4, 8, 16, 32, 64].contains r.gainTap), o + 0x0E), (decide (7 < field b (o + 0x0F) 1), o + 0x0F),
     (decide (2 < r.baseFormat), o + 0x10), (decide (r.k = 0 ∨ 16 < r.k), o + 0x11),
     (decide (r.qHeads = 0 ∨ r.kvHeads = 0 ∨ r.qHeads % r.kvHeads ≠ 0), o + 0x14),
     (decide (r.kvHeads = 0 ∨ 64 < r.kvHeads ∨ field b 0x25 1 * 1024 < pagePayload (if field b 0x24 1 = 1 then 8 else 4) r.kvHeads), o + 0x16),
     (decide (r.returnWindows = 0), o + 0x17), (decide (r.fbWindow < 256 ∨ 65536 < r.fbWindow), o + 0x18),
     (decide (16777216 < r.ovrLimit), o + 0x1C), (decide (16777216 < r.nsatLimit), o + 0x20), (decide (16777216 < r.zeroedLimit), o + 0x24),
     (decide (2 < r.attnMode), o + 0x28), (decide (r.attnMode ≠ 2 ∧ r.window ≠ 0), o + 0x29)]

/-- Whether a machine id may hold a shard: a member that is no group spare; without members, the head alone (R273, R476). -/
def State.mayHold (s : State) (id : Nat) : Bool :=
  if s.cfg.cur.members = [] then decide (id = s.machineId)
  else s.cfg.cur.members.any fun m => decide (m.machineId = id ∧ m.role ≠ 1)

/-- What is wrong with the shard table entry at offset `o`; `earlier` are the machine ids before it. -/
def shardBad (s : State) (b : Bytes) (len : Nat) (earlier : List Nat) (o : Nat) : List Nat :=
  let e := readShardEntry b o
  dirty b (o + 0x12) (o + 0x14) ++ failsAt
    [(decide (e.offset % 4096 ≠ 0 ∨ len < e.offset + e.length), o), (decide (e.length ≠ e.tiles * 299008 + e.vectorLen), o + 0x08),
     (!s.mayHold e.machineId || earlier.contains e.machineId, o + 0x10), (decide (32768 < e.tiles), o + 0x14)]

/-- The region offset of the first thing wrong with a region's header and tables (R200, R271, R476). -/
def tablesBad (s : State) (b : Bytes) (len : Nat) : Option Nat :=
  let ids := (List.range (headerShards b)).map fun i => field b (shardTableAt b + 64 * i + 0x10) 2
  (headerBad b len ++ (List.range (headerLayers b)).flatMap (fun i => layerBad b i (layerTableAt b + 64 * i)) ++
    (List.range (headerShards b)).flatMap fun i => shardBad s b len (ids.take i) (shardTableAt b + 64 * i)).min?

/-! ### Shards (R83, R88, R103, R273) -/

/-- Bytes of a tile record. -/
def tileSize : Nat := 299008

/-- The signed nibble `n` of the bytes from `o` on, low nibble first. -/
def nibble (b : Bytes) (o n : Nat) : Int := signed 4 (field b (o + n / 2) 1 / 16 ^ (n % 2) % 16)

/-- The signed 16-bit value `j` of the bytes from `o` on. -/
def half16 (b : Bytes) (o j : Nat) : Int := signed 16 (field b (o + 2 * j) 2)

/-- The values of a grid of nibbles, `cols` to a row, that are not 0, with row and column. -/
def nibbleGrid (b : Bytes) (o cols first : Nat) : List (Nat × Nat × Int) :=
  (List.range 1024).flatMap fun i => (List.range cols).filterMap fun j =>
    let v := nibble b o (cols * i + j)
    if v = 0 then none else some (i, first + j, v)

/-- A tile record (R273). -/
def readTile (b : Bytes) : Tile :=
  { array := field b 0x00 2, named := field b 0x00 2, layer := field b 0x08 2, matrix := field b 0x0A 1, chainLen := field b 0x0B 1
    position := field b 0x0C 1, chain := field b 0x0D 1, outputBlock := field b 0x0E 2, inputSeed := field b 0x10 8
    weights := nibbleGrid b 0x40 512 0, picots := nibbleGrid b 0x40040 64 512
    colSums := (List.range 512).foldl (fun t j => Tab.put 0 t j (half16 b 0x48040 j)) []
    scales := (List.range 512).foldl (fun t j => Tab.put 0 t j (BitVec.ofNat 32 (field b (0x48440 + 4 * j) 4))) [] }

/-- A shard's bytes read as tile records and vector section (R273). -/
def readShard (b : Bytes) (tiles : Nat) : Shard :=
  { tiles := (List.range tiles).map fun i => readTile ((b.drop (tileSize * i)).take tileSize), vectors := b.drop (tileSize * tiles) }

/-- The value of a grid at a row and column. -/
def gridAt (g : List (Nat × Nat × Int)) (i j : Nat) : Int :=
  match g.find? fun w => decide (w.1 = i ∧ w.2.1 = j) with | some w => w.2.2 | none => 0

/-- The bytes of a grid of nibbles. -/
def gridBytes (g : List (Nat × Nat × Int)) (cols first : Nat) : Bytes :=
  (List.range 1024).flatMap fun i => (List.range (cols / 2)).map fun k =>
    BitVec.ofNat 8 (unsigned 4 (gridAt g i (first + 2 * k)) + 16 * unsigned 4 (gridAt g i (first + 2 * k + 1)))

/-- A tile record's bytes (R273). -/
def tileBytes (t : Tile) : Bytes :=
  layout 64 [(0x00, 2, t.named), (0x08, 2, t.layer), (0x0A, 1, t.matrix), (0x0B, 1, t.chainLen), (0x0C, 1, t.position), (0x0D, 1, t.chain),
    (0x0E, 2, t.outputBlock), (0x10, 8, t.inputSeed)] ++ gridBytes t.weights 512 0 ++ gridBytes t.picots 64 512 ++
    ((List.range 512).flatMap fun j => leBytes 2 (unsigned 16 (Tab.get 0 t.colSums j))) ++
    ((List.range 512).flatMap fun j => leBytes 4 (Tab.get 0 t.scales j).toNat) ++ zeros 960

/-- A shard's bytes. -/
def shardData (sh : Shard) : Bytes := sh.tiles.flatMap tileBytes ++ sh.vectors

/-- The cell value of a weight v (R83). -/
def cellOf (w3 : Bool) (v : Int) : Int := if w3 then 2 * v else v

/-- The offset in its record of the first weight that R273 does not allow: -8, or beyond ±3 for W3. -/
def weightBad (w3 : Bool) (t : Tile) : Option Nat :=
  (t.weights.find? fun w => decide (w.2.2 = -8 ∨ (w3 = true ∧ (w.2.2 < -3 ∨ 3 < w.2.2)))).map fun w => 0x40 + 256 * w.1 + w.2.1 / 2

/-- The cell values of a row's slice, summed (R103). -/
def sliceSum (w3 : Bool) (t : Tile) (i j : Nat) : Int :=
  sumI ((t.weights.filter fun w => decide (w.1 = i ∧ w.2.1 / 16 = j)).map fun w => cellOf w3 w.2.2)

/-- The offset in its record of the first picot digit that breaks R103. -/
def picotBad (w3 : Bool) (t : Tile) : Option Nat :=
  (List.range 1024).findSome? fun i => (List.range 64).findSome? fun p =>
    let d := sliceSum w3 t i (p / 2)
    if gridAt t.picots i (512 + p) = (if p % 2 = 0 then picotA d else picotB d) then none else some (0x40040 + 32 * i + p / 2)

/-- The offset in its record of the first column sum that differs from the weights (R88). -/
def sumBad (w3 : Bool) (t : Tile) : Option Nat :=
  ((List.range 512).find? fun j =>
    Tab.get 0 t.colSums j ≠ sumI ((t.weights.filter fun w => w.2.1 = j).map fun w => cellOf w3 w.2.2)).map fun j => 0x48040 + 2 * j

/-- The offset in its record of the first scale given away from chain position 0 (R273). -/
def scaleBad (t : Tile) : Option Nat := if t.position = 0 then none else (t.scales.head?).map fun e => 0x48440 + 4 * e.1

/-- What is wrong with a tile record, as offsets in it; `earlier` are the arrays named before it (R136, R273, R476). -/
def tileBad (p : Pricking) (earlier : List Nat) (b : Bytes) : List Nat :=
  let t := readTile b
  let w3 := match layerOf p t.layer with | some r => r.w3 | none => false
  dirty b 0x02 0x08 ++ dirty b 0x18 0x40 ++ dirty b 0x48C40 0x49000 ++ failsAt
    [(decide (32767 < t.named) || earlier.contains t.named, 0x00), ((layerOf p t.layer).isNone, 0x08),
     (decide (t.chainLen = 0 ∨ 16 < t.chainLen), 0x0B), (decide (t.chainLen ≤ t.position), 0x0C), (decide (31 < t.chain), 0x0D)] ++
    (weightBad w3 t).toList ++ (picotBad w3 t).toList ++ (sumBad w3 t).toList ++ (scaleBad t).toList

/-- The offset in a shard of the first thing wrong with its tile records. -/
def tilesBad (p : Pricking) (b : Bytes) (tiles : Nat) : Option Nat :=
  let rec_ := fun (i : Nat) => (b.drop (tileSize * i)).take tileSize
  let names := (List.range tiles).map fun i => field (rec_ i) 0 2
  (List.range tiles).findSome? fun i => ((tileBad p (names.take i) (rec_ i)).min?).map fun o => tileSize * i + o

end Sys2Proof.Machine
end

