-- ==== Sys2Proof/Machine/Loading.lean ====
section
/-! DEFINITION. Loading a motif: MOTIF_LOAD on the head, LOAD_ORDER, fetch, programming rounds, reports, completion, and the module's own RDMA transfers (R17 to R20, R63, R270 to R280, R286 to R288). -/

namespace Sys2Proof.Machine

/-! ### Loads in progress -/

/-- A load proper, not the programming that follows a switch or a takeover. -/
def LoadState.proper (l : LoadState) : Bool := l.order.isSome || l.mailbox.isSome

/-- The load of a motif in progress here. -/
def State.loadOf (s : State) (motif : Nat) : Option LoadState := s.motifs.loads.find? fun l => decide (l.motif = motif) && l.proper

/-- Without the load of a motif, or without its background programming. -/
def State.dropLoad (s : State) (l : LoadState) : State :=
  { s with motifs := { s.motifs with loads := s.motifs.loads.filter fun x => !(decide (x.motif = l.motif) && (x.proper == l.proper)) } }

/-- With a load in its new state. -/
def State.setLoad (s : State) (l : LoadState) : State :=
  { s.dropLoad l with motifs := { (s.dropLoad l).motifs with loads := l :: (s.dropLoad l).motifs.loads } }

/-- The generation of no copy: what cells left behind by a released copy carry. -/
def noGen : Nat := 65536

/-- A physical array whose tile belongs to no copy any more: its cells stay as they are, and it counts as free (R283, R285). -/
def disowned (x : PhysArray) : PhysArray := { x with cells := x.cells.map fun h => { h with gen := noGen } }

/-- A load just begun. -/
def LoadState.start (motif : Nat) (replace : Bool) (prior : MotifEntry) : LoadState :=
  { motif := motif, stale := decide (prior.state = 3), replace := replace, mailbox := none, prick := none, doneBy := [], mirrored := [], progress := [], prior := prior,
    phase := 0, want := 0, via := 0, waits := none, order := none, source := 0, fetched := [], fetchDone := false, shard := none, toProgram := [], inArrays := true,
    programmed := 0, reprogrammed := 0, remapped := 0 }

/-- A load that a head begins or orders: without REPLACE, on a module that holds the motif, it is one of a STALE motif, whose arrays are read and not built
(R286). -/
def LoadState.begin (motif : Nat) (replace : Bool) (prior : MotifEntry) : LoadState :=
  { LoadState.start motif replace prior with stale := !replace && decide (prior.state = 2 ∨ prior.state = 3) }

/-- Tiles of the shard that a load brings to this module. -/
def LoadState.tiles (l : LoadState) : Nat := match l.order with | some o => o.entry.tiles | none => 0

/-- The addressable arrays of a shard's tiles. -/
def shardArrays (sh : Shard) : List Nat := (sh.tiles.map (·.array)).filter (· ≠ noArray)

/-- Arrays returned to FREE, with the cells left behind belonging to no copy; those without a working physical array stay OUT (R114, R283). A host set that waits
there is taken at once (R179). -/
def State.freeArrays (s : State) (l : List Nat) : State :=
  l.foldl (fun u a => ((u.setPhys (u.physOf a) (disowned (u.phys (u.physOf a)))).setArray a { u.array a with service := if (u.workOf a).isSome then .free else .out, due := none, outForService := false }).takeHost a) s

/-- The second copy of a motif discarded here: its arrays are FREE, its mirror is gone (R277, R287). -/
def State.dropCopy (s : State) (motif : Nat) : State :=
  let e := s.motif motif
  (s.freeArrays (match e.mirror2 with | some sh => shardArrays sh | none => [])).setMotif motif
    { e with copy := 0, copyGen := 0, prick2 := none, mirror2 := none }

/-- Everything a load wrote here released, the motif table entry as before it (R277). -/
def State.releaseLoad (s : State) (l : LoadState) : State :=
  let s1 := s.dropLoad l
  if l.replace then s1.dropCopy l.motif
  else
    let s2 := if l.stale then s1 else s1.freeArrays (match l.shard with | some sh => shardArrays sh | none => [])
    s2.setMotif l.motif l.prior

/-- The report of a module's part of a load (R274, R299). -/
def LoadState.report (l : LoadState) (machine status detail : Nat) : LoadReport :=
  { machine := machine, motif := l.motif, status := status, detail := detail, programmed := l.programmed, reprogrammed := l.reprogrammed,
    remapped := l.remapped, shardArrays := l.tiles }

/-- The group spare of a group in the configuration in force. -/
def State.spareOf (s : State) (g : Nat) : Option Nat :=
  (s.cfg.cur.members.find? fun m => decide (groupOf m.machineId = g ∧ m.role = 1)).map (·.machineId)

/-- The groups of a placement. -/
def Pricking.groups (p : Pricking) : List Nat := (p.shards.map fun e => groupOf e.machineId).dedup

/-- The modules that take part in a load: those of the placement, as their roles stand, and the spares of their groups. -/
def State.loadParties (s : State) (p : Pricking) : List Nat :=
  ((p.shards.map fun e => s.holder e.machineId) ++ p.groups.filterMap s.spareOf).dedup

/-- With no load of a draft motif left in progress, the `SEQ_OPEN` commands that waited for it fail (R278). -/
def State.opensFail (s : State) (motif : Nat) : State :=
  if (s.motif motif).state ≠ 0 ∨ s.loadConsumed motif then s
  else (s.boxes.box.filter fun e => activeCmd e.2 opSeqOpen && (match e.2.cur with | some c => decide (draftOf c.entry = some motif) | none => false)).foldl
    (fun u e => u.failCmd e.1 stVocabMismatch motif) s

/-- A load that fails on this module: released, and reported or completed (R274, R277). The head tells the other modules of it with a LOAD_REPORT of its own,
since R277 has them release and names no message for it (DESIGN CHOICE, log 26). -/
def State.loadFailed (s : State) (l : LoadState) (status detail : Nat) : State :=
  let s1 := s.releaseLoad l
  match l.mailbox with
  | some m =>
    let others := match l.prick with | some p => (s.loadParties p).filter (· ≠ s.machineId) | none => []
    ((s1.sendAll others none (.loadReport (l.report s.machineId status detail))).failCmd m status detail).opensFail l.motif
  | none => s1.send (s1.msg l.source none (.loadReport (l.report s.machineId status detail)))

/-! ### Reports (R274, R277, R77) -/

/-- The head takes a report of progress: LOAD record, progress, and the modules that have all their tiles (R67, R75, R77). -/
def State.takeProgress (s : State) (l : LoadState) (m : Nat) (r : LoadReport) : State :=
  let whole := match l.prick with
    | some p => p.shards.any fun e => decide (s.holder e.machineId = r.machine ∧ e.tiles ≤ r.programmed)
    | none => false
  let l1 : LoadState := { l with progress := Tab.put 0 l.progress r.machine r.programmed,
                                 doneBy := if whole then insertAsc r.machine l.doneBy else l.doneBy }
  ((s.setLoad l1).loadRecord m r).setProgress m ((l1.progress.map (·.2)).sum)

/-- This module reports that `n` of its tiles are programmed: to the head, or, on the head, to itself. -/
def State.reportLoad (s : State) (l : LoadState) (n : Nat) : State :=
  let r : LoadReport := { l.report s.machineId stOk 0 with programmed := n }
  match l.mailbox, s.loadOf l.motif with
  | some m, some cur => s.takeProgress cur m r
  | some _, none => s
  | none, _ => s.send (s.msg l.source none (.loadReport r))

/-- The head learns that a spare's group mirror holds one more shard of a load (R276, R288). -/
def State.noteMirrored (s : State) (motif spare : Nat) : State :=
  match s.loadOf motif with
  | some l => s.setLoad { l with mirrored := Tab.put 0 l.mirrored spare (Tab.get 0 l.mirrored spare + 1) }
  | none => s

/-- A group spare without what a failed load brought to its group mirror (R277). -/
def State.dropPending (s : State) (motif : Nat) : State :=
  let e := s.motif motif
  let second := decide (e.copy = 1 ∨ e.copy = 3 ∨ e.state ≠ 2)
  s.setMotif motif { e with
    groupMirror := e.groupMirror.filter (fun g => g.2.1 ≠ (e.gen + 1).toNat), arriving := [], copy := 0, copyGen := 0
    prick := if e.state = 2 then e.prick else none, prick2 := if second then none else e.prick2 }

/-- The last load of a motif that was completed here without the head's word (R276). -/
def State.doneLoad (s : State) (motif : Nat) : Option LoadState := s.motifs.doneLoads.find? fun l => l.motif = motif

/-- Without the account of a completed load. -/
def State.forgetLoad (s : State) (motif : Nat) : State :=
  { s with motifs := { s.motifs with doneLoads := s.motifs.doneLoads.filter fun l => l.motif ≠ motif } }

/-- The head tells of a failure after this module has completed its part: what the load wrote is released, unless a step has used it (R277). A spare, which gets no
LOAD_ORDER, cannot tell such a failure from that of a later load: a free value (log 26). -/
def State.undoLoad (s : State) (l : LoadState) : State :=
  let gen := if l.replace then (s.motif l.motif).copyGen.toNat else (s.motif l.motif).gen.toNat
  if s.steps.live.any fun r => decide (r.motif = l.motif ∧ r.gen = gen) then s
  else if s.role = 1 then
    (if s.draw.1 % 2 = 0 then s.draw.2
     else ((s.draw.2.forgetLoad l.motif).setMotif l.motif { l.prior with groupMirror := (s.motif l.motif).groupMirror }).dropPending l.motif)
  else (s.forgetLoad l.motif).releaseLoad l
/-- LOAD_REPORT: progress or the first failure a head learns of, from a module of the placement or a spare of its groups (R274, R277, R280); a module
or a spare that learns of a failure from the head releases what it wrote (log 26). A spare's report of success with no tile programmed says
that its group mirror holds a further shard (DESIGN CHOICE, log 74). -/
def execLoadReport (r : LoadReport) (s : State) : Result :=
  .next (match s.loadOf r.motif with
  | none =>
    if r.status = stOk then s
    else match s.doneLoad r.motif with
      | some l => s.undoLoad l
      | none => if s.role = 1 then s.dropPending r.motif else s
  | some l => match l.mailbox, l.prick with
    | none, _ => if r.status = stOk then s else s.releaseLoad l
    | some m, some p =>
      if !(s.loadParties p).contains r.machine then s
      else if r.status ≠ stOk then s.loadFailed l r.status r.detail
      else if decide (r.programmed = 0) && (p.groups.filterMap s.spareOf).contains r.machine then s.noteMirrored r.motif r.machine
      else if p.shards.any fun e => s.holder e.machineId = r.machine then s.takeProgress l m r
      else s
    | some _, none => s)

/-! ### Orders and fetches (R274, R280) -/

/-- Issues a read of the region of a load over the load queue pair; without one the fetch fails (R274, R343). While 16 are outstanding there it waits
for one of them to be answered (R341). -/
def State.fetch (s : State) (l : LoadState) (off len : Nat) : State :=
  match s.loadQp, l.order with
  | some qp, some o =>
    if len = 0 then s.setLoad { l with want := 0, waits := none, fetchDone := true }
    else if s.readRoom qp then (s.setLoad { l with want := len, via := qp, waits := none }).toHost (.readRequest qp 1 l.motif (o.regionAddr + off) o.rkey len)
    else s.setLoad { l with want := 0, waits := some (off, len) }
  | _, _ => s.loadFailed l stFetchFail s.machineId

/-- The motif table entry of a module that takes part in a load, once it knows the tables (R284, R287). -/
def loadingEntry (e : MotifEntry) (replace : Bool) (p : Pricking) : MotifEntry :=
  if replace then { e with copy := 1, copyGen := e.gen + 1, prick2 := some p, mirror2 := none }
  else { e with state := 1, prick := some p, mirror := none, vocabDigest := p.vocabDigest, prickDigest := p.digest }

/-- Whether a module is short of room for its shard (R277, R280): of mirror memory, or, for a first load, of free arrays. -/
def State.shortOfRoom (s : State) (l : LoadState) (e : ShardEntry) : Bool :=
  !(if l.stale then s.setMotif l.motif { s.motif l.motif with mirror := none } else s).roomFor e.length || (!l.replace && !l.stale && decide (((List.range Config.arrays).filter s.unowned).length < e.tiles))

/-- A module's part of a load begins: room is judged before anything is fetched (R274, R280), beside the second copy that a REPLACE discards (R287). The head
knows the tables; another module reads them first (DEDUCED, log 27). -/
def State.takeOrder (s0 : State) (l : LoadState) (o : LoadOrder) : State :=
  let s := (if l.replace && l.mailbox.isNone then s0.dropCopy l.motif else s0).forgetLoad l.motif
  let l1 : LoadState := { l with order := some o }
  if s.shortOfRoom l1 o.entry then (s.setLoad l1).loadFailed l1 stNoRoom s.machineId
  else if l1.prick.isSome then s.fetch { l1 with phase := 2 } o.entry.offset o.entry.length
  else s.fetch { l1 with phase := 0 } 0 64

/-- Sends a shard to a module in SHARD_COPY messages of up to 1 MiB (R279, R285, R299). -/
def State.copyShard (s : State) (dest motif gen : Nat) (data : Bytes) : State :=
  ((pieces 1048576 data).mapIdx fun i d => (i, d)).foldl (fun u c => u.send (u.msg dest none (.shardCopy motif gen (1048576 * c.1) c.2))) s

/-- Copies this module's shard to its group spare's group mirror (R274, R279). -/
def State.copyToSpare (s : State) (motif gen : Nat) (data : Bytes) : State :=
  match s.spareId with
  | some sp => if sp = s.machineId then s else s.copyShard sp motif gen data
  | none => s

/-- Whether an order brings what this module has already completed for another head: a spare goes on with the load of a lost head (R268, R297). -/
def LoadState.sameAs (l : LoadState) (source : Nat) (o : LoadOrder) : Bool :=
  decide (l.source ≠ source ∧ l.replace = o.replace) && match l.order with | some x => decide (x.entry.digest = o.entry.digest) | none => false

/-- A completed part of a load told to the head that goes on with it, and its shard to the group spare again (R268). -/
def State.tellAgain (s : State) (l : LoadState) (source : Nat) : State :=
  let e := s.motif l.motif
  let x := if l.replace then e.mirror2 else e.mirror
  (match x with
    | some sh => s.copyToSpare l.motif (if l.replace then e.gen2 else e.gen1) (shardData sh)
    | none => s).send (s.msg source none (.loadReport { l.report s.machineId stOk 0 with programmed := l.tiles }))

/-- LOAD_ORDER (R274). -/
def execLoadOrder (source : Nat) (o : LoadOrder) (s : State) : Result :=
  need (decide (o.motif < 16)) .noSuchMotif
    (if s.holder o.entry.machineId ≠ s.machineId then s
    else match (s.doneLoad o.motif).filter fun l => l.sameAs source o with
    | some l => s.tellAgain l source
    | none =>
      let s1 := match s.loadOf o.motif with | some l => if l.mailbox.isSome then s else s.releaseLoad l | none => s
      if (s1.loadOf o.motif).isSome then s1
      else s1.takeOrder { LoadState.begin o.motif o.replace (s1.motif o.motif) with source := source } o)

/-- What a fetch of a load has read (R274). -/
def State.fetched (s : State) (l : LoadState) (data : Bytes) : State :=
  if l.phase = 0 then s.fetch { l with phase := 1 } 0 (tablesEnd data)
  else if l.phase = 1 then
    let p := readPricking data
    match l.order with
    | some o => (s.setMotif l.motif (loadingEntry (s.motif l.motif) l.replace p)).fetch { l with phase := 2, prick := some p } o.entry.offset o.entry.length
    | none => s
  else s.setLoad { l with fetched := data, fetchDone := true, want := 0 }

/-- The answer to a command's own transfer (R63). -/
def State.cmdAnswered (s : State) (m qp : Nat) (ok : Bool) (data : Bytes) : State :=
  match (s.box m).cur with
  | none => s
  | some c =>
    if c.via ≠ qp then s
    else match c.xfer with
      | .reading =>
        if !ok then s.setCmd m fun c => { c with xfer := .readFailed }
        else if data.length ≠ c.want then s
        else s.setCmd m fun c => { c with xfer := .readDone, data := data }
      | .writing => if (s.box m).doneWait.isSome then s else if ok then s.okCmd m 0 else s.failCmd m stBufFail 0
      | _ => s

/-- The answer to a shard fetch's read (R274). -/
def State.fetchAnswered (s : State) (motif qp : Nat) (ok : Bool) (data : Bytes) : State :=
  match s.loadOf motif with
  | none => s
  | some l =>
    if l.via ≠ qp ∨ l.want = 0 ∨ l.fetchDone then s
    else if !ok then s.loadFailed l stFetchFail s.machineId
    else if data.length ≠ l.want then s
    else s.fetched l data

/-- Fetches that waited for room go on, as far as there is room (R341). -/
def State.fetchWaiting (s : State) : State :=
  s.motifs.loads.foldl (fun u l => match l.waits, u.loadOf l.motif with
    | some w, some l' => u.fetch l' w.1 w.2
    | _, _ => u) s

/-- RDMA_RESPONSE: a transfer of this module's own over a queue pair ends; over a broken one, or one that is gone, it has failed (R63, R344). An answer
ends the retries of the request (R341). -/
def execRdmaResponse (qp kind owner : Nat) (ok : Bool) (data : Bytes) (s : State) : Result :=
  let good := ok && s.qpOk qp
  let s1 := if good then s.setQp qp fun q => { q with retries := 0 } else s
  .next (if kind = 0 then s1.cmdAnswered owner qp good data else s1.fetchAnswered owner qp good data).fetchWaiting

/-! ### The shard (R83, R103, R273 to R276, R279, R288) -/

/-- The arrays that hold no tile of a resident motif, rising (R283, R288). -/
def State.unownedArrays (s : State) : List Nat := (List.range Config.arrays).filter s.unowned

/-- Tiles on arrays: each on the array it names where that is free, the others on the lowest left (R288; log 28). -/
def assignTiles (free : List Nat) : List Nat → List Tile → List Tile
  | _, [] => []
  | left, t :: rest =>
    if free.contains t.named then { t with array := t.named } :: assignTiles free left rest
    else match left with
      | a :: left' => { t with array := a } :: assignTiles free left' rest
      | [] => { t with array := noArray } :: assignTiles free [] rest

/-- A shard placed on free arrays; none where they are fewer than its tiles (R288). -/
def State.placeShard (s : State) (sh : Shard) : Option Shard :=
  let free := s.unownedArrays
  if free.length < sh.tiles.length then none
  else
    let names := sh.tiles.map (·.named)
    some { sh with tiles := assignTiles free (free.filter fun a => !names.contains a) sh.tiles }

/-- The array that holds a tile of a motif already, else the one it names. -/
def State.locate (s : State) (motif : Nat) (t : Tile) : Nat :=
  ((s.arrays.phys.findSome? fun e => match e.2.cells with
    | some h => if h.motif = motif ∧ h.tile.named = t.named ∧ s.heldLive h then s.indexOf e.1 else none
    | none => none).getD t.named)

/-- A shard whose tiles lie where the arrays hold them (R285, R286). -/
def State.locateShard (s : State) (motif : Nat) (sh : Shard) : Shard :=
  { sh with tiles := sh.tiles.map fun t => { t with array := s.locate motif t } }

/-- Arrays taken OUT to be programmed. -/
def State.outArrays (s : State) (l : List Nat) : State := l.foldl (fun u a => (u.setArray a { u.array a with service := .out, due := none }).takeHost a) s

/-- A module's whole shard accepted: mirror, arrays to program, copy to the spare (R274, R279, R288). -/
def State.acceptShard (s : State) (l : LoadState) (e : ShardEntry) (sh : Shard) (inArrays : Bool) : State :=
  let old := s.motif l.motif
  let entry : MotifEntry := if l.replace then { old with mirror2 := some sh }
    else { old with mirror := some sh, mirrorState := 2, shardDigest := e.digest, tiles := e.tiles }
  let gen := if l.replace then entry.gen2 else entry.gen1
  let arrays := (shardArrays sh).mergeSort fun a b => decide (a ≤ b)
  let l1 : LoadState := { l with shard := some sh, fetched := [], toProgram := arrays, inArrays := inArrays, programmed := if inArrays then 0 else e.tiles }
  let s1 := (((s.setMotif l.motif entry).outArrays arrays).setLoad l1).copyToSpare l.motif gen l.fetched
  if arrays = [] then s1.reportLoad l1 l1.programmed else s1

/-- SHARD_FETCH_END: the digest, then the tile records, then the arrays are judged (R273, R274, R276, R283, R288). -/
def execShardFetchEnd (motif : Nat) (s : State) : Result :=
  need (decide (motif < 16)) .noSuchMotif
    (match s.loadOf motif with
    | none => s
    | some l => match l.order, l.prick with
      | some o, some p =>
        if !l.fetchDone || l.shard.isSome then s
        else if shake256 32 l.fetched ≠ o.entry.digest then s.loadFailed l stDigest s.machineId
        else match tilesBad p l.fetched o.entry.tiles with
          | some x => s.loadFailed l stBadPricking (o.entry.offset + x)
          | none =>
            let sh := readShard l.fetched o.entry.tiles
            if l.stale then s.acceptShard l o.entry (s.locateShard motif sh) true
            else if l.replace then
              match s.placeShard sh with
              | some x => s.acceptShard l o.entry x true
              | none => s.acceptShard l o.entry { sh with tiles := sh.tiles.map fun t => { t with array := noArray } } false
            else if sh.tiles.all fun t => s.unowned t.named then s.acceptShard l o.entry sh true
            else s.loadFailed l stNoRoom s.machineId
      | _, _ => s)

/-! ### Programming (R275, R292, R293) -/

/-- The counts at which a module reports while its programmed tiles go from `n` to `n'`: one for each multiple of a sixteenth of the shard that is passed, and
one more at the end (R77, R274). -/
def reportCounts (tiles n n' : Nat) : List Nat :=
  (((List.range 16).filter fun k => decide (16 * n < (k + 1) * tiles ∧ (k + 1) * tiles ≤ 16 * n')).map fun k => ((k + 1) * tiles + 15) / 16) ++
    if n < tiles ∧ tiles ≤ n' then [tiles] else []

/-- An array of a round that verified: programmed with its tile and in confirmation (R275). -/
def State.programArray (s : State) (a : Nat) : State :=
  match s.workOf a with
  | none => s
  | some p => (s.program p (s.tileFor a)).setArray a ((s.program p (s.tileFor a)).array a).programmed

/-- Whether an array holds already, at an older generation, the tile that a stale motif's load gives it (R286). -/
def State.holdsTile (s : State) (a : Nat) : Bool :=
  match s.held a, s.tileFor a with
  | some x, some h => decide (x.motif = h.motif ∧ x.tile.named = h.tile.named)
  | _, _ => false

/-- An array of a stale motif verify-read against the mirror (R286): with rows rewritten it is confirmed again; else it serves as its calibration stands, and
begins warm-up where it has none. -/
def State.verifyArray (s : State) (a : Nat) (rewritten : Bool) : State :=
  match s.workOf a with
  | none => s
  | some p =>
    let s1 := s.setPhys p { s.phys p with cells := s.tileFor a }
    let s2 := s1.setPhys p (if rewritten then (s1.phys p).confirm 2 s.now else s1.warmed p)
    s2.giveBack a

/-- An array of a round whose cells did not verify after 16 passes, with its first failing row (R275, R384, R389). -/
def State.failArray (s : State) (a row : Nat) : State :=
  (s.event { cls := 1, code := 5, op := 6, kind := kArray, index := a, tag := none, epoch := (s.phys (s.physOf a)).epoch,
             detail := leBytes 2 row ++ leBytes 1 16 }).retireArray a 6

/-- A count of programmed tiles grows by `n`. Where one round passes several sixteenths at once, each gives its report with the count at which it is passed, and
the report at the end follows that of the last (DESIGN CHOICE, log 62). -/
def State.countTiles (s : State) (l : LoadState) (n : Nat) : State :=
  let l1 : LoadState := { l with programmed := min l.tiles (l.programmed + n) }
  if !l.proper then (if l1.toProgram = [] then s.dropLoad l1 else s.setLoad l1)
  else (reportCounts l.tiles l.programmed l1.programmed).foldl (fun u c => u.reportLoad l1 c) (s.setLoad l1)

/-- The first failing row of an array of a round that failed, none where it verified. -/
def failedRow (failed : List FailedArray) (a : Nat) : Option Nat := (failed.find? fun f => f.array = a).map (·.row)

/-- PROGRAMMING_ROUND_END: the lowest 4,096 arrays still to program verify or are retired (R275). -/
def execProgrammingRoundEnd (motif : Nat) (failed : List FailedArray) (multi : List Nat) (s : State) : Result :=
  need (decide (motif < 16)) .noSuchMotif
    (match s.motifs.loads.find? fun l => decide (l.motif = motif ∧ l.toProgram ≠ []) with
    | none => s
    | some l =>
      let round := l.toProgram.take 4096
      let s1 := round.foldl (fun u a => match failedRow failed a with
        | some row => u.failArray a row
        | none => if l.stale && u.holdsTile a then u.verifyArray a (multi.contains a) else u.programArray a) s
      let wait := round.filter fun a => (s1.array a).spare.isSome
      let l1 : LoadState := { l with
        toProgram := l.toProgram.drop 4096
        reprogrammed := l.reprogrammed + (round.filter multi.contains).length
        remapped := l.remapped + (round.filter fun a => (failedRow failed a).isSome && (s1.array a).spare.isSome).length }
      s1.countTiles l1 (round.length - wait.length))

/-- Whether the tile of an index waits for a mirror that is not here. -/
def State.awaitsMirror (s : State) (a : Nat) : Bool :=
  (match s.held a with | some h => s.heldLive h | none => false) && (s.tileFor a).isNone

/-- SPARE_PROGRAMMED: the spare holds the retired array's tile, from the mirror, and takes its index over (R117, R275). -/
def execSpareProgrammed (array : Nat) (s : State) : Result :=
  need (decide (array < Config.arrays)) .noSuchArray
    (match (s.array array).spare with
    | none => s
    | some p =>
      if s.awaitsMirror array then s else
      let s1 := s.takeSpare array p
      match s1.motifs.loads.find? fun l => l.proper && decide (l.programmed < l.tiles) && !l.toProgram.contains array &&
          (match l.shard with | some sh => (shardArrays sh).contains array | none => false) with
      | some l => s1.countTiles l 1
      | none => s1)

/-! ### Completion (R276, R278, R288) -/

/-- The precision and attention records of a motif begin again, those of one generation or of all (R146, R397). -/
def State.freshLayers (s : State) (motif : Nat) (gen : Option Nat) : State :=
  { s with motifs := { s.motifs with layers := s.motifs.layers.filter fun e =>
    !(decide (e.1 % 65536 / 4096 = motif) && (match gen with | some g => decide (e.1 / 65536 = g % 65536) | none => true)) } }

/-- Whether the tiles a load brought serve: in arrays, or on the tambour for want of a spare (R276). -/
def State.shardServes (s : State) (sh : Shard) : Bool :=
  (shardArrays sh).all fun a => decide ((s.array a).service = .serving) || (s.array a).onTambour

/-- Whether the spare of a group has reported a copy of every other module's shard in its group mirror (R276, R288); a spare that is missing is not waited for. -/
def State.groupMirrored (s : State) (l : LoadState) (p : Pricking) (g : Nat) : Bool :=
  match s.spareOf g with
  | none => true
  | some sp => s.fabric.missing.contains sp ||
    decide ((p.shards.filter fun e => decide (groupOf e.machineId = g ∧ s.holder e.machineId ≠ sp)).length ≤ Tab.get 0 l.mirrored sp)

/-- Whether a load is complete on this module, and, on the head, reported so by every module of the placement and by the spares. -/
def State.loadWhole (s : State) (l : LoadState) : Bool :=
  (match l.order, l.shard with
    | some _, some sh => decide (l.toProgram = [] ∧ l.tiles ≤ l.programmed) && s.shardServes sh
    | some _, none => false
    | none, _ => true) &&
  (match l.mailbox, l.prick with
    | some _, some p => (p.shards.all fun e => l.doneBy.contains (s.holder e.machineId)) && p.groups.all (s.groupMirrored l p)
    | some _, none => false
    | none, _ => true)

/-- The motif table entry at the end of a load (R276, R284, R288). -/
def loadedEntry (l : LoadState) (e : MotifEntry) (now : Nat) : MotifEntry :=
  if l.replace then { e with copy := if l.inArrays then 2 else 3 }
  else { e with state := 2, gen := e.gen + 1, loadTime := now }

/-- The motif table entry of a group spare once the group mirror holds a load's shards. -/
def spareEntry (e : MotifEntry) (now : Nat) : MotifEntry :=
  if e.state = 2 then { e with copy := 3, copyGen := e.gen + 1 } else { e with state := 2, gen := e.gen + 1, loadTime := now, prick2 := none }

/-- Keeps the account of a load that is completed here. -/
def State.noteDone (s : State) (l : LoadState) : State :=
  { s.forgetLoad l.motif with motifs := { (s.forgetLoad l.motif).motifs with doneLoads := l :: (s.forgetLoad l.motif).motifs.doneLoads } }

/-- LOAD_COMPLETE (R146, R276, R288). -/
def execLoadComplete (motif : Nat) (s : State) : Result :=
  need (decide (motif < 16)) .noSuchMotif
    (match s.loadOf motif with
    | none =>
      onlyIf (decide (s.role = 1) && (s.motif motif).groupMirror.any fun g => decide (g.2.1 = ((s.motif motif).gen + 1).toNat)) s
        ((s.setMotif motif (spareEntry (s.motif motif) s.now)).noteDone (LoadState.start motif (decide ((s.motif motif).state = 2)) (s.motif motif)))
    | some l =>
      if !s.loadWhole l then s
      else
        let e := loadedEntry l (s.motif motif) s.now
        let s1 := (s.dropLoad l).setMotif motif e
        let s2 := s1.freshLayers motif (some (if l.replace then e.gen + 1 else e.gen).toNat)
        match l.mailbox with
        | some m => s2.okCmd m e.gen.toNat
        | none => s2.noteDone l)

/-! ### MOTIF_LOAD (R17, R274, R277, R286, R287) -/

/-- Whether a `MOTIF_LOAD` of the motif consumed earlier is still in progress (R277, R278). -/
def State.earlierLoad (s : State) (m motif order : Nat) : Bool :=
  s.boxes.box.any fun e => e.1 != m && (match e.2.cur with
    | some c => decide (entryOp c.entry = opMotifLoad ∧ entryMotif c.entry = motif ∧ c.order < order) && e.2.doneWait.isNone
    | none => false)

/-- The refusal that the motif's state gives a load (R277, R278, R286, R287): a motif STALE on any module of its placement may be loaded without REPLACE. -/
def State.loadRefusal (s : State) (m motif order : Nat) (replace : Bool) : Option (Nat × Nat) :=
  let e := s.motif motif
  if replace then
    if e.state = 1 then some (stMotifInUse, 0)
    else if e.state ≠ 2 then (if s.earlierLoad m motif order then some (stMotifInUse, 0) else some (stNoMotif, 0))
    else if (s.loadOf motif).isSome ∨ s.earlierLoad m motif order then some (stMotifInUse, s.usersOf motif)
    else none
  else if e.state = 0 ∨ e.state = 3 then (if s.earlierLoad m motif order then some (stMotifInUse, 0) else none)
  else if e.state = 1 then some (stMotifInUse, 0)
  else if (match e.prick with | some p => s.staleElsewhere p motif | none => false) && !s.earlierLoad m motif order then none
  else some (stMotifInUse, s.usersOf motif)

/-- Whether the load that a spare continues was complete when its head was lost: the copy it brings is here (R268, R297). -/
def State.loadDone (s : State) (motif : Nat) (replace : Bool) (p : Pricking) : Bool :=
  let e := s.motif motif
  if replace then decide (e.copy = 2 ∨ e.copy = 3) && (match e.prick2 with | some q => decide (q.digest = p.digest) | none => false)
  else decide (e.state = 2 ∧ e.prickDigest = p.digest)

/-- The header fields of a replacement that must match, in order, with their offsets (R287). -/
def headerDiffers (p q : Pricking) : List Nat :=
  failsAt [(decide (p.vocabDigest ≠ q.vocabDigest), 0x10), (decide (p.width ≠ q.width), 0x1C), (decide (p.layers.length ≠ q.layers.length), 0x1E),
    (decide (p.head ≠ q.head), 0x20), (decide (p.tail ≠ q.tail), 0x22), (p.kvI8 != q.kvI8, 0x24), (decide (p.frameKib ≠ q.frameKib), 0x25)]

/-- The layer fields of a replacement that must match (R287). -/
def layerDiffers (a b : LayerRec) (o : Nat) : List Nat :=
  failsAt [(decide (a.k ≠ b.k), o + 0x11), (decide (a.owner ≠ b.owner), o + 0x12), (decide (a.qHeads ≠ b.qHeads), o + 0x14),
    (decide (a.kvHeads ≠ b.kvHeads), o + 0x16), (decide (a.attnMode ≠ b.attnMode), o + 0x28), (decide (a.window ≠ b.window), o + 0x29),
    (decide (a.spread ≠ b.spread), o + 0x30)]

/-- The region offset of the first field in which a replacement differs from the resident pricking (R287). -/
def replaceDiffers (old new : Pricking) (layerTable : Nat) : Option Nat :=
  (headerDiffers old new ++ ((List.range new.layers.length).flatMap fun i => match old.layers[i]?, new.layers[i]? with
    | some a, some b => layerDiffers a b (layerTable + 64 * i)
    | _, _ => [])).min?

/-- What a load's tables are refused for, once they are well formed. -/
def State.tablesRefusal (s : State) (motif : Nat) (replace : Bool) (p : Pricking) (layerTable : Nat) : Option (Nat × Nat) :=
  let e := s.motif motif
  if replace then
    match e.prick with
    | some old => (replaceDiffers old p layerTable).map fun o => (stBadPricking, o)
    | none => none
  else if (e.state = 2 ∨ e.state = 3) ∧ e.prickDigest ≠ p.digest then some (stMotifInUse, s.usersOf motif)
  else none

/-- A load accepted by its head: the entry changes, every module of the placement gets its order, this one begins (R274). -/
def State.beginLoad (s : State) (m motif : Nat) (replace : Bool) (p : Pricking) (e : Bytes) : State :=
  let s0 := if replace then s.dropCopy motif else s
  let l : LoadState := { LoadState.begin motif replace (s0.motif motif) with mailbox := some m, prick := some p, source := s.machineId }
  let order := fun (x : ShardEntry) =>
    ({ motif := motif, replace := replace, regionAddr := bufAddr e, rkey := bufRkey e, regionLen := field e 0x20 8, entry := x } : LoadOrder)
  let s1 := (((s0.setMotif motif (loadingEntry (s0.motif motif) replace p)).setLoad l).setCmd m fun c => { c with begun := true }).setTarget m
    ((p.shards.map (·.tiles)).sum)
  let s2 := (p.shards.filter fun x => s.holder x.machineId ≠ s.machineId).foldl (fun u x => u.send (u.msg (s.holder x.machineId) none (.loadOrder (order x)))) s1
  match p.shards.find? fun x => s.holder x.machineId = s.machineId with
  | some x => s2.takeOrder l (order x)
  | none => s2

/-- A load command that fails before its load begins. -/
def State.loadTurned (s : State) (m motif status detail : Nat) : State := (s.failCmd m status detail).opensFail motif

/-- Reads `n` bytes of a load command's region over the load queue pair; without one the load fails, but a command that a spare continues waits until the host
has connected one there (R268, R274, R297). -/
def State.readTables (s : State) (m motif n : Nat) (c : Cmd) : State :=
  match s.loadQp with
  | some qp => s.startRead m qp (bufAddr c.entry) (bufRkey c.entry) n
  | none => if c.continued then s else s.loadTurned m motif stFetchFail s.machineId

/-- A load command on its way: header, tables, checks, start (R274). A spare that continues a lost head's load stands for the head that the header names
(R268, R297). -/
def State.loadCommand (s : State) (m : Nat) (replace : Bool) : State :=
  match (s.box m).cur with
  | none => s
  | some c =>
    let e := c.entry
    let motif := entryMotif e
    let fail := fun (status detail : Nat) => s.loadTurned m motif status detail
    if c.begun then s
    else if c.xfer = .none then (if field e 0x20 8 < 64 then fail stBadPricking 0 else s.readTables m motif 64 c)
    else if c.xfer = .readFailed then fail stFetchFail s.machineId
    else if c.xfer ≠ .readDone then s
    else match headerAlien c.data with
      | some o => fail stBadPricking o
      | none =>
        if s.holder (field c.data 0x20 2) ≠ s.machineId then fail stNotHead (field c.data 0x20 2)
        else match (if c.continued then none else s.loadRefusal m motif c.order replace) with
          | some r => fail r.1 r.2
          | none =>
            -- an old copy that steps still use is not discarded under them: the command waits for its release (log 28)
            if replace && decide ((s.motif motif).copy = 0) && (s.motif motif).prick2.isSome then s
            else if c.data.length = 64 then
              match (headerBad c.data (field e 0x20 8)).min? with
              | some o => fail stBadPricking o
              | none => s.readTables m motif (tablesEnd c.data) c
            else match tablesBad s c.data (field e 0x20 8) with
              | some o => fail stBadPricking o
              | none =>
                let p := readPricking c.data
                if c.continued && s.loadDone motif replace p then s.okCmd m (s.motif motif).gen.toNat
                else match ((if c.continued then s.loadRefusal m motif c.order replace else none).orElse fun _ => s.tablesRefusal motif replace p (layerTableAt c.data)) with
                | some r => fail r.1 r.2
                | none => if p.shards.any fun x => s.lostForGood x.machineId then fail stPeerGone 0xFFFFFFFF else s.beginLoad m motif replace p e

/-- MOTIF_LOAD without REPLACE (R274, R277, R286). -/
def execMotifLoad (m : Nat) (s : State) : Result := command m opMotifLoad s fun t =>
  onlyIf (!bit (field (t.entryOf m) 0x09 1) 0) t (t.loadCommand m false)

/-- MOTIF_LOAD with REPLACE (R287). -/
def execMotifLoadReplace (m : Nat) (s : State) : Result := command m opMotifLoad s fun t =>
  onlyIf (bit (field (t.entryOf m) 0x09 1) 0) t (t.loadCommand m true)

end Sys2Proof.Machine
end

