-- ==== Sys2Proof/Machine/Copies.lean ====
section
/-! DEFINITION. Switching to a second copy, dropping and querying motifs, and the copies of shards and pages between modules (R20, R284 to R293, R300). -/

namespace Sys2Proof.Machine

/-! ### Switch and release (R289 to R292) -/

/-- Steps of a generation of a motif in flight here. -/
def State.stepsOfGen (s : State) (motif gen : Nat) : Nat := (s.inFlight.filter fun r => decide (r.motif = motif ∧ r.gen = gen)).length

/-- A motif table entry at a switch: the second copy is in force, the first becomes the old copy (R284, R289). -/
def switchedEntry (e : MotifEntry) (self now : Nat) : MotifEntry :=
  let mine := e.prick2.bind fun p => p.shards.find? fun x => x.machineId = self
  { e with
    gen := e.gen + 1, copy := 0, copyGen := 0, prick := e.prick2, prick2 := e.prick, mirror := e.mirror2, mirror2 := e.mirror, loadTime := now
    prickDigest := match e.prick2 with | some p => p.digest | none => e.prickDigest
    shardDigest := match mine with | some x => x.digest | none => e.shardDigest
    tiles := match mine with | some x => x.tiles | none => e.tiles }

/-- This module's switch of a motif (R289): the new copy has records of its own, begun with its load (R146). -/
def State.switchMotif (s : State) (motif : Nat) : State := s.setMotif motif (switchedEntry (s.motif motif) s.machineId s.now)

/-- Whether a motif has a second copy ready (R284). -/
def MotifEntry.copyReady (e : MotifEntry) : Bool := decide (e.copy = 2 ∨ e.copy = 3)

/-- Whether an old copy waits for its release. -/
def MotifEntry.oldCopy (e : MotifEntry) : Bool := decide (e.state = 2 ∧ e.copy = 0) && e.prick2.isSome

/-- Runs a command on a resident motif's head (R274). -/
def State.onResident (s : State) (m motif : Nat) (f : Pricking → State) : State :=
  match s.prickNow motif with
  | none => s.failCmd m stNoMotif 0
  | some p => if (s.motif motif).state = 0 then s.failCmd m stNoMotif 0 else if s.headOf p then f p else s.failCmd m stNotHead (s.holder p.head)

/-- MOTIF_SWITCH (R274, R289, R290); one that needs a module lost for good completes with `ST_PEER_GONE` (R295). -/
def execMotifSwitch (m : Nat) (s : State) : Result := command m opMotifSwitch s fun t =>
  let motif := entryMotif (t.entryOf m)
  if begunOn t m then t
  else t.onResident m motif fun p0 =>
    let e := t.motif motif
    if !e.copyReady then t.failCmd m stNoCopy 0
    else if p0.shards.any fun x => t.lostForGood x.machineId then t.failCmd m stPeerGone 0xFFFFFFFF
    else
      let n := t.stepsOfGen motif e.gen.toNat
      let w : SwitchState := { motif := motif, mailbox := m, oldGen := e.gen, target := n }
      let t1 := ((t.switchMotif motif).setCmd m fun c => { c with begun := true }).setTarget m n
      let t2 : State := { t1 with motifs := { t1.motifs with switches := w :: t1.motifs.switches } }
      match e.prick2 with
      | some p => t2.sendAll ((p.shards.map fun x => t.holder (movedNow t.take.moves x.machineId)).filter (· ≠ t.machineId)) none
          (.switch motif (e.gen + 1).toNat)
      | none => t2

/-- SWITCH (R289). -/
def execSwitch (motif gen : Nat) (s : State) : Result :=
  need (decide (motif < 16)) .noSuchMotif
    (onlyIf ((s.motif motif).copyReady && decide (gen = ((s.motif motif).gen + 1).toNat)) s (s.switchMotif motif))

/-- Tiles without an array placed on free arrays, to be programmed round by round (R292). -/
def State.placeLate (s : State) (motif : Nat) : State :=
  let e := s.motif motif
  match e.mirror with
  | none => s
  | some sh =>
    if sh.tiles.all fun t => t.array ≠ noArray then s
    else
      let free := s.unownedArrays
      let names := sh.tiles.map (·.named)
      let sh' : Shard := { sh with tiles := assignTiles free (free.filter fun a => !names.contains a) sh.tiles }
      let arrays := (shardArrays sh').mergeSort fun a b => decide (a ≤ b)
      let l : LoadState := { LoadState.start motif false e with toProgram := arrays, shard := some sh' }
      ((s.setMotif motif { e with mirror := some sh' }).outArrays arrays).setLoad l

/-- The old copy of a motif released here: its arrays are FREE, its mirror is gone (R290, R292). -/
def State.releaseOld (s : State) (motif : Nat) : State :=
  let e := s.motif motif
  let s1 := s.freeArrays (match e.mirror2 with | some sh => shardArrays sh | none => [])
  ((s1.setMotif motif { e with prick2 := none, mirror2 := none, groupMirror := e.groupMirror.filter fun g => g.2.1 = e.gen.toNat }).freshLayers motif
    (some e.gen2)).placeLate motif

/-- Whether the head's count of old-generation steps is 0 (R290): its own count, or, on another module, which no message tells of it, a free value at this moment
(log 16), with no such step known here. -/
def State.oldStepsGone (s : State) (motif : Nat) (e : MotifEntry) : Bool :=
  decide (s.stepsOfGen motif e.gen2 = 0) &&
  ((match e.prick with | some p => s.headOf p | none => false) || decide (Config.remote motif e.gen2 s.now 44 0 % 2 = 1))

/-- OLD_COPY_RELEASE: no step of the old generation is in flight; the head's `MOTIF_SWITCH` completes (R290). A spare takes the group
mirror's new copy into force with it. -/
def execOldCopyRelease (motif : Nat) (s : State) : Result :=
  need (decide (motif < 16)) .noSuchMotif
    (let s0 := if s.role = 1 ∧ (s.motif motif).mirror = none ∧ (s.motif motif).copy = 3 then s.switchMotif motif else s
    let e := s0.motif motif
    if !e.oldCopy || !s0.oldStepsGone motif e then s
    else
      let s1 := s0.releaseOld motif
      match s1.motifs.switches.find? fun w => w.motif = motif with
      | none => s1
      | some w =>
        ({ s1 with motifs := { s1.motifs with switches := s1.motifs.switches.filter fun w => w.motif ≠ motif } } : State).okCmd w.mailbox e.gen.toNat)

/-! ### Drop and query (R20, R278, R284) -/

/-- Addressable arrays that hold tiles of a motif. -/
def State.arraysOf (s : State) (motif : Nat) : List Nat :=
  s.arrays.phys.filterMap fun e => match e.2.cells with
    | some h => if h.motif = motif ∧ s.heldLive h then s.indexOf e.1 else none
    | none => none

/-- A motif released here; its number keeps its generation (R20, R284). -/
def State.dropMotif (s : State) (motif : Nat) : State :=
  let e := s.motif motif
  let tiles := fun (x : Option Shard) => match x with | some sh => shardArrays sh | none => []
  let s1 := (s.freeArrays (s.arraysOf motif ++ tiles e.mirror ++ tiles e.mirror2).dedup).setMotif motif { MotifEntry.init with gen := e.gen }
  ({ s1 with motifs := { s1.motifs with loads := s1.motifs.loads.filter fun l => l.motif ≠ motif } } : State).freshLayers motif none

/-- Whether a `MOTIF_LOAD` with REPLACE of a motif is in progress here as a command, from its consumption on, on another mailbox (R278). -/
def State.replaceConsumed (s : State) (m motif : Nat) : Bool :=
  s.boxes.box.any fun e => e.1 != m && activeCmd e.2 opMotifLoad &&
    match e.2.cur with | some c => decide (entryMotif c.entry = motif) && bit (field c.entry 0x09 1) 0 | none => false

/-- MOTIF_DROP (R20, R67, R274, R278): a motif whose load is in progress counts as resident from the consumption of its MOTIF_LOAD on, and a second copy as being
built from that of its own; during a first load no sequence is open. -/
def execMotifDrop (m : Nat) (s : State) : Result := command m opMotifDrop s fun t =>
  let motif := entryMotif (t.entryOf m)
  if (t.motif motif).state ≠ 2 ∧ (t.loadConsumed motif ∨ (t.motif motif).state = 1) then t.failCmd m stMotifInUse 0
  else t.onResident m motif fun p =>
    let e := t.motif motif
    if e.copy = 1 ∨ t.replaceConsumed m motif ∨ 0 < t.usersOf motif then t.failCmd m stMotifInUse (t.usersOf motif)
    else if e.oldCopy then t
    else ((t.setTarget m ((p.shards.map (·.tiles)).sum)).dropMotif motif).okCmd m 0

/-- Tiles of a motif in SERVING arrays. -/
def State.tilesServing (s : State) (e : MotifEntry) : Nat :=
  match e.mirror with
  | some sh => (sh.tiles.filter fun t => decide ((s.array t.array).service = .serving)).length
  | none => 0

/-- Tiles of a motif that the tambour serves now. -/
def State.tilesOnTambour (s : State) (e : MotifEntry) : Nat :=
  match e.mirror with
  | some sh => if e.state = 2 then (sh.tiles.filter fun t => decide ((s.array t.array).service ≠ .serving)).length else 0
  | none => 0

/-- State of a spare's group mirror of a motif (R284): present once it holds the shard of every other module of the group. -/
def groupMirrorState (s : State) (e : MotifEntry) : Nat :=
  let wanted : List Nat := match e.prick with
    | some p => (p.shards.map fun (x : ShardEntry) => x.machineId).filter fun (id : Nat) => decide (groupOf id = groupOf s.machineId ∧ id ≠ s.machineId)
    | none => []
  let held : List Nat := (e.groupMirror.filter fun g => g.2.1 = e.gen.toNat).map (·.1)
  if s.role ≠ 1 ∨ (e.groupMirror = [] ∧ e.arriving = []) then 0 else if e.arriving = [] ∧ wanted.all held.contains then 2 else 1

/-- Steps of the old generation in flight, on the head; 0 elsewhere (R284). -/
def oldSteps (s : State) (motif : Nat) (e : MotifEntry) : Nat :=
  if e.oldCopy && (match e.prick with | some p => s.headOf p | none => false) then s.stepsOfGen motif e.gen2 else 0

/-- A motif table record (R284). -/
def motifRecord (s : State) (motif : Nat) : Bytes :=
  let e := s.motif motif
  overlay (overlay (layout 128 [(0x00, 1, e.state), (0x02, 1, e.copy), (0x04, 2, e.gen.toNat), (0x06, 2, e.copyGen.toNat), (0x08, 8, e.vocabDigest),
    (0x54, 4, e.tiles), (0x58, 8, e.loadTime), (0x60, 4, s.tilesServing e), (0x64, 4, s.tilesOnTambour e), (0x68, 2, e.servingFor.getD 0xFFFF),
    (0x6A, 1, e.mirrorState), (0x6B, 1, groupMirrorState s e), (0x6E, 2, oldSteps s motif e)])
    0x10 e.prickDigest) 0x30 e.shardDigest

/-- MOTIF_QUERY (R63, R284). -/
def execMotifQuery (m : Nat) (s : State) : Result := command m opMotifQuery s fun t =>
  if t.xferOf m ≠ .none then t
  else
    let n := entryMotif (t.entryOf m)
    t.deliver m (if n = 0xFF then (List.range 16).flatMap (motifRecord t) else motifRecord t n)

/-! ### Copies of shards (R279, R285, R300) -/

/-- The tables this module has of a motif generation. -/
def State.spareTables (s : State) (motif gen : Nat) : Pricking := ((s.motif motif).prickFor gen).getD (readPricking [])

/-- A module that hears of a motif generation by the copy of a shard has its tables from then on: no message brings them, so they are a free value at each first
hearing (log 25). -/
def State.learnTables (s : State) (motif gen : Nat) : State :=
  let e := s.motif motif
  if (e.prickFor gen).isSome then s
  else s.draw.2.setMotif motif { e with prick2 := some (readPricking (Config.spareTables motif gen s.draws)), copy := if e.state = 2 then 1 else e.copy }

/-- The shard table entry of a machine. -/
def shardOf (p : Pricking) (id : Nat) : Option ShardEntry := p.shards.find? fun x => x.machineId = id

/-- Which shard a SHARD_COPY brings: this module's own, restored, or a peer's for a spare's group mirror. -/
def State.copyTarget (s : State) (source motif gen : Nat) : Option ShardEntry :=
  let e := s.motif motif
  if e.mirrorState = 1 then (if gen = e.gen.toNat then e.prick else some (s.spareTables motif gen)).bind fun p => shardOf p s.machineId
  else if s.role = 1 then shardOf (s.spareTables motif gen) source
  else none

/-- A restored shard of this module in its mirror (R285); one of a newer generation brings that generation with it (R298). -/
def State.restoreShard (s : State) (motif gen : Nat) (x : ShardEntry) (sh : Shard) : State :=
  let e := s.motif motif
  let p := s.spareTables motif gen
  let e1 : MotifEntry := if gen = e.gen.toNat then e
    else { e with gen := BitVec.ofNat 16 gen, prick := some p, prick2 := none, copy := 0, vocabDigest := p.vocabDigest, prickDigest := p.digest, shardDigest := x.digest, tiles := x.tiles }
  let s1 := s.setMotif motif e1
  (s1.setMotif motif { e1 with mirror := some (s1.locateShard motif sh), mirrorState := 2, arriving := [], restoring := false }).startArrays

/-- A peer's shard in a spare's group mirror (R279), which the head learns of (R276, R288; log 74). -/
def State.mirrorShard (s : State) (source motif gen : Nat) (sh : Shard) : State :=
  let e := s.motif motif
  let p := s.spareTables motif gen
  let kept := e.groupMirror.filter fun g => decide (g.1 ≠ source ∨ g.2.1 ≠ gen)
  let s1 := s.setMotif motif { e with
    groupMirror := (source, gen, sh) :: kept
    arriving := e.arriving.filter fun a => a.1 ≠ source
    prick := if e.state = 2 ∧ e.gen.toNat ≠ gen then e.prick else some p
    prick2 := if e.state = 2 ∧ e.gen.toNat ≠ gen then some p else e.prick2
    vocabDigest := p.vocabDigest, prickDigest := if e.state = 2 ∧ e.gen.toNat ≠ gen then e.prickDigest else p.digest }
  if s1.holder p.head = s1.machineId then s1.noteMirrored motif s1.machineId
  else s1.send (s1.msg (s1.holder p.head) none (.loadReport ((LoadState.start motif false e).report s1.machineId stOk 0)))

/-- A whole shard that has passed its digest: own mirror, or group mirror. -/
def State.keepShard (s : State) (source motif gen : Nat) (x : ShardEntry) (data : Bytes) : State :=
  if (s.motif motif).mirrorState = 1 then s.restoreShard motif gen x (readShard data x.tiles)
  else s.mirrorShard source motif gen (readShard data x.tiles)

/-- A shard whose bytes are not those its digest names: none of them stay, and they are awaited from the first on (R300; log 79). Where this spare holds a shard of
that source for a generation not yet in force, the source is building another second copy: what the first brought goes, and the tables are heard of anew (R287). -/
def State.refuseShard (s : State) (source motif gen : Nat) (x : ShardEntry) : State :=
  let e := s.motif motif
  if decide (e.mirrorState ≠ 1 ∧ gen ≠ e.gen.toNat) && e.groupMirror.any (fun g => decide (g.1 = source ∧ g.2.1 = gen)) then s.dropPending motif
  else s.setMotif motif { e with arriving := (source, x.length, []) :: e.arriving.filter fun a => a.1 ≠ source }

/-- A piece of a shard that this module awaits: bytes arrive in order; the whole is checked against its digest before use (R279, R280, R285, R300). -/
def State.takePiece (s : State) (source motif gen offset : Nat) (data : Bytes) (x : ShardEntry) : State :=
  let e := s.motif motif
  let had := if offset = 0 then [] else match e.arriving.find? fun a => a.1 = source with | some a => a.2.2 | none => []
  let rest := e.arriving.filter fun a => a.1 ≠ source
  if had.length ≠ offset then s
  else if x.length < offset + data.length then s.refuseShard source motif gen x
  else if offset = 0 ∧ e.mirrorState ≠ 1 ∧ !(s.setMotif motif { e with arriving := rest }).roomFor x.length then
    s.send (s.msg (s.spareTables motif gen).head none (.loadReport { (LoadState.start motif false e).report s.machineId stNoRoom s.machineId with shardArrays := 0 }))
  else
    let all := had ++ data
    if all.length < x.length then s.setMotif motif { e with arriving := (source, x.length, all) :: rest }
    else if shake256 32 all = x.digest then s.keepShard source motif gen x all
    else s.refuseShard source motif gen x

/-- SHARD_COPY: a piece of this module's own shard, restored, or of a peer's for a spare's group mirror (R279, R280, R285). -/
def execShardCopy (source motif gen offset : Nat) (data : Bytes) (s : State) : Result :=
  need (decide (motif < 16)) .noSuchMotif
    (let s1 := if s.role = 1 ∨ (s.motif motif).mirrorState = 1 then s.learnTables motif gen else s
    match s1.copyTarget source motif gen with
    | none => s
    | some x => s1.takePiece source motif gen offset data x)

/-- MIRROR_RESTORE: a READY motif's mirror is restored from a source, or the motif is STALE here (R285). -/
def execMirrorRestore (motif : Nat) (source : Option Nat) (s : State) : Result :=
  need (decide (motif < 16)) .noSuchMotif
    (let e := s.motif motif
    if e.state ≠ 2 ∨ e.mirror.isSome ∨ e.mirrorState = 2 then s
    else match source with
      | none => s.setMotif motif { e with state := 3, mirrorState := 0, arriving := [] }
      | some src =>
        if s.role = 1 then onlyIf (s.groupPeers.contains src) s (s.setMotif motif { e with arriving := e.arriving.filter fun a => a.1 ≠ src })
        else onlyIf (decide (s.spareId = some src)) s (s.setMotif motif { e with mirrorState := 1, arriving := [], restoring := true }))

/-! ### Copies of pages (R204, R205, R293, R294, R298, R300) -/

/-- The rank whose pages a copy brings: that of the module this one stands for, else its own. -/
def State.copyRank (s : State) (e : MotifEntry) (r : LayerRec) : Option Nat :=
  let id := e.servingFor.getD (match s.take.spareServes with | some p => if s.role = 1 then p else s.machineId | none => s.machineId)
  (List.range r.k).find? fun i => rankHome r i = id

/-- The page with a local index in a rank's home list or shadow list (R204, R205). -/
def pageAt (k rank localIndex : Nat) (home : Bool) : Nat := localIndex * k + (if home then rank else (rank + k - k / 2) % k)

/-- The frame of a page that a copy fills: a list's, or a frame allocated for it. -/
def State.copyFrame (s : State) (t : StepTag) (p : Pricking) (k page : Nat) (home : Bool) : Option (State × Nat) :=
  if s.hostManaged t then
    (s.descriptorAt t).bind fun off =>
      (s.listFrame (readDescriptor s.mem (if home then off else off + 16)) (frameSize p) (page / k)).map fun f => (s, f)
  else
    (allocate t (frameSize p) home [page] s).bind fun s1 => (s1.frameRef t page home).map fun f => (s1, f.frame * frameSize p)

/-- The companion that a page copy of a sequence belongs to: PAGE_COPY names none, so it is the one companion of that motif and id, where no host sequence has
the id here (R37, R299; DEDUCED, log 31). -/
def State.copyCompanion (s : State) (motif seq : Nat) : Option Nat :=
  if (s.findSeq motif seq).isSome then none
  else (s.seqs.open_.find? fun q => decide (q.motif = motif ∧ q.id = seq)).bind (·.companion)

/-- A frame's payload that arrived whole fills the page's frame: its payload, no byte beyond (R201, R293, R294, R298). -/
def State.takePage (s : State) (seq motif layer localIndex : Nat) (home : Bool) (data : Bytes) : State :=
  let e := s.motif motif
  match e.prick.bind fun p => (layerOf p layer).map fun r => (p, r) with
  | none => s
  | some (p, r) => match s.copyRank e r with
    | none => s
    | some rank =>
      if frameSize p < data.length ∨ (r.k < 2 ∧ home = false) then s
      else
        let t : StepTag := { step := 0, seq := seq, motif := motif, gen := e.gen.toNat, layer := layer, lineage := 0, companion := s.copyCompanion motif seq }
        match s.copyFrame t p r.k (pageAt r.k rank localIndex home) home with
        | none => s
        | some (s1, f) => { s1 with mem := memWrite s1.mem f (data.take (pagePayload (kvBits p) r.kvHeads)) }

end Sys2Proof.Machine
end

