-- ==== Sys2Proof/Machine/Mailbox.lean ====
section
/-! DEFINITION. Consumption of entries, status words, DONE records, `IDENTIFY` and `TIME_READ` (R51, R52, R59 to R63, R70 to R80). -/

namespace Sys2Proof.Machine

/-- The machine id that a command turned away with `ST_PEER_GONE` names: the module that holds the role, or 0xFFFF_FFFF (R70, R405). -/
def peerGoneDetail (s : State) : Nat := s.take.vacatedTo.getD 0xFFFFFFFF

/-- Whether a consumed command of this opcode completes with `ST_PEER_GONE`: a motif or sequence command of a vacated module (R70), or any command the safe state does not serve (R405, R406; log 15). -/
def turnedAway (s : State) (op : Nat) : Bool :=
  (s.start.safe && !isSafeOp op) || (s.take.vacatedTo.isSome && isMotifOrSeqOp op)

/-- The checks of a consumed entry that do not depend on a named object (R62 steps 1 to 4), and the turning away of R70 and R405: status and detail of the first that fails. -/
def entryCheck (s : State) (b : Mailbox) (e : Bytes) : Option (Nat × Nat) :=
  let op := entryOp e
  if op ≠ opIdentify ∧ b.version.isNone then some (stNoVersion, 0)
  else if !opcodes.contains op || (s.start.rom && !isRomOp op) then some (stBadOpcode, op)
  else match firstReserved e op with
    | some i => some (stReserved, i)
    | none => match firstBad e op with
      | some i => some (stBadParam, i)
      | none => if turnedAway s op then some (stPeerGone, peerGoneDetail s) else none

/-- The sequence an entry names, if it is a sequence command's and the sequence is open here. -/
def State.namedSeq (s : State) (e : Bytes) : Option Seq :=
  if isSeqOp (entryOp e) then
    s.seqs.open_.find? fun q => decide (q.motif = entryMotif e ∧ q.id = entrySeq e ∧ q.companion = none)
  else none

/-- The command that consumption of the entry at a mailbox's index begins: its snapshot, and what it finds of the sequence it names (R31, R59, R214). -/
def State.newCmd (s : State) (b : Mailbox) : Cmd :=
  let e := entryBytes b b.consume
  let q := s.namedSeq e
  { entry := e, index := b.consume, qp := Tab.get 0 b.posted b.consume, order := s.boxes.consumed, xfer := .none, data := [], want := 0, via := 0, begun := false,
    tokensThen := (q.map (·.tokens.length)).getD 0, latchedThen := if entryOp e = opPagesBind then s.latchedNow e else [], continued := false }

/-- A mailbox right after it consumed the entry at its index: OWN is clear, the index has moved on, the word describes the command (R59, R71) with the
causes that have slowed its sequence (R73). -/
def consumeBox (b : Mailbox) (c : Cmd) (slows : List (Nat × Nat)) (now : Nat) : Mailbox :=
  touchBox { b with
    entries := Tab.put (zeros 64) b.entries b.consume (clearOwn c.entry)
    consume := (b.consume + 1) % 4096
    cur := some c
    opcode := entryOp c.entry, hostTag := entryTag c.entry, entryIdx := b.consume, firstRecord := b.records, target := 0, progress := 0,
    detail := 0, status := stPending, done := false, idle := false, slowAt := slows, cleared := some (b.consume, now) } now

/-- Whether the group has a free spare (R294). -/
def State.spareReady (s : State) : Bool :=
  match s.spareId with
  | some sp => decide (sp ≠ s.machineId) && s.take.spareServes.isNone && !s.take.spareOut && !s.fabric.missing.contains sp &&
      (List.range 32).any fun b => (s.bride b).carries && decide ((s.bride b).partnerId = sp)
  | none => false

/-- Whether the group has a free spare for this module (R436): a spare that is ready for it, or the spare it has been vacated to; a spare itself must
serve for no module. -/
def State.freeSpare (s : State) : Bool :=
  if s.role = 1 then s.take.spareServes.isNone
  else s.spareReady || (s.take.vacatedTo.isSome && decide (s.take.spareServes = some s.machineId))

/-- The refusals of R435, by the state at consumption (R437): on a layer module or a spare, outside the ROM state. -/
def updateRefusal (s : State) (op : Nat) : Option Nat :=
  let restart := decide (op = opFwActivate ∨ op = opFwRevert)
  if s.role = 2 ∨ s.start.rom ∨ !isUpdateOp op ∨ op = opConfigRead then none
  else if s.fw.lock.isSome then some stLocked
  else if restart ∧ !s.start.holdupL then some stHoldup
  else if restart ∧ !s.freeSpare then some stNoSpare
  else none

/-- Consumption of the entry of mailbox `m`, with its checks. -/
def consume (s : State) (m : Nat) : State :=
  let b := s.box m
  let e := entryBytes b b.consume
  let b' := consumeBox b (s.newCmd b) (s.slowsOf (entryMotif e) (entrySeq e)) s.now
  let t := { s.setBox m b' with
    boxes := { (s.setBox m b').boxes with
      noted := s.boxes.noted.tail, consumed := s.boxes.consumed + 1 } }
  let u := t.headSync 0 m e []
  match entryCheck s b e with
  | some (status, detail) => u.failCmd m status detail
  | none => match updateRefusal s (entryOp e) with
    | some status => u.refuseCmd m (entryOp e) status
    | none => u

/-- MAILBOX_CONSUME: the lowest mailbox that a scan found is consumed (R52, R59, R62). -/
def execMailboxConsume (m : Nat) (s : State) : Result :=
  need (decide (m < Config.mailboxes)) .noSuchMailbox
    (onlyIf (s.bobbinRuns && decide (s.boxes.noted.head? = some m) && consumable (s.box m)) s (consume s m))

/-- STATUS_WORD_UPDATE: at least every 10 ms while a command is in progress (R72). -/
def execStatusWordUpdate (m : Nat) (s : State) : Result :=
  need (decide (m < Config.mailboxes)) .noSuchMailbox (onlyIf (s.box m).cur.isSome s (s.update m id))

/-- DONE_RECORD_WRITE: a DONE record that waited for a free slot is written (R75). -/
def execDoneRecordWrite (m : Nat) (s : State) : Result :=
  need (decide (m < Config.mailboxes)) .noSuchMailbox (s.finish m)

/-- The highest version in both ranges, if there is one (R80). -/
def commonVersion (lo hi ifMin ifMax : Nat) : Option Nat :=
  if max lo ifMin ≤ min hi ifMax then some (min hi ifMax) else none

/-- The effect of `IDENTIFY` (R80). -/
def identify (s : State) (m : Nat) : State :=
  let e := s.entryOf m
  let slot := s.fw.runningSlot
  let v := commonVersion (field e 0x08 2) (field e 0x0A 2) slot.ifMin slot.ifMax
  let t := s.setBox m { s.box m with version := v }
  match v with
  | some v => t.okCmd m v
  | none => t.failCmd m stVersion slot.ifMax

/-- IDENTIFY (R80). -/
def execIdentify (m : Nat) (s : State) : Result := command m opIdentify s fun t => identify t m

/-- TIME_READ: module time is in the DONE record (R67, R78). -/
def execTimeRead (m : Nat) (s : State) : Result := command m opTimeRead s fun t => t.okCmd m t.now

end Sys2Proof.Machine
end

