-- ==== Sys2Proof/Machine/Takeover.lean ====
section
/-! DEFINITION. Standing in for a module: HEAD_SYNC, ROLE, planned and unplanned takeover, hand-back, and the heartbeats that tell a loss (R70, R261, R293 to R299). -/

namespace Sys2Proof.Machine

/-! ### HEAD_SYNC on the spare (R296, R297) -/

/-- The consumption on a head's mailbox that this spare holds, not yet known complete. -/
def State.synced (s : State) (m : Nat) : Option HeadSync := (s.take.synced.find? fun x => x.1 = m).map (·.2)

/-- Without the consumption held for a mailbox. -/
def State.unsync (s : State) (m : Nat) : State := { s with take := { s.take with synced := s.take.synced.filter fun x => x.1 ≠ m } }

/-- A mailbox as the head's stands after a consumption (R297). -/
def mirrorBox (b : Mailbox) (h : HeadSync) (now : Nat) : Mailbox :=
  touchBox { b with
    version := if h.version = 0 then none else some h.version
    consume := (h.entryIndex + 1) % 4096
    opcode := entryOp h.entry, hostTag := entryTag h.entry, entryIdx := h.entryIndex, firstRecord := h.firstRecord, records := h.firstRecord
    readCount := max b.readCount (min h.readCount h.firstRecord), target := 0, progress := 0, detail := 0, status := stPending, done := false, idle := false, slowAt := [] } now

/-- What a consumption on the head does to the spare's copy of its sequence table, and the progress target it sets: the head's checks repeated on the copy
(R67, R296; log 32). -/
def State.mirrorBegin (s : State) (m : Nat) (h : HeadSync) : State :=
  let e := h.entry
  let op := entryOp e
  match s.findSeq (entryMotif e) (entrySeq e) with
  | none => s
  | some q =>
    if op = opSeqAppend ∧ q.state = .opened ∧ h.tokens ≠ [] then
      let first := decide (q.tokens = [])
      let rest := if first then h.tokens.tail else h.tokens
      let a : AppendInfo := { mailbox := m, tokens := rest, target := rest.length, started := 0, committed := 0 }
      (s.putSeq { q with tokens := if first then h.tokens.take 1 else q.tokens, state := .appending, append := some a }).setTarget m rest.length
    else if op = opSeqGenerate ∧ field e 0x10 4 = 0 then
      match q.gen with
      | some g => s.putSeq { q with gen := some { g with cancelled := true } }
      | none => s
    else if op = opSeqGenerate ∧ q.state = .opened ∧ q.tokens ≠ [] then
      let g : GenInfo := { mailbox := m, count := field e 0x10 4, delivered := 0, stops := stopsOf e, branches := branchesOf e, cancelled := false }
      (s.putSeq { q with state := .generating, gen := some g, sampling := if bit (field e 0x09 1) 0 then samplingOf e 0x14 else q.sampling }).setTarget m (field e 0x10 4)
    else if op = opSeqClose ∧ q.state ≠ .closing then s.putSeq { q with state := .closing, closeBox := some m }
    else s

/-- A descriptor table bound on the head, on the spare's copy (R209, R296). -/
def State.mirrorBind (s : State) (q : Seq) (e : Bytes) : State :=
  let b : Binding := { motif := q.motif, seq := q.id, firstLayer := field e 0x10 2, layerCount := field e 0x12 2, descOffset := field e 0x18 8 }
  match s.prickNow q.motif with
  | some p => if bindBad s p q e = none then { s with seqs := { s.seqs with bindings := b :: s.seqs.bindings.filter fun x => !x.inside b } } else s
  | none => s

/-- Whether a `SEQ_OPEN` completed on the head opened its sequence: the checks of R62 and R23 repeated on the copy. -/
def State.opened (s : State) (e : Bytes) : Bool :=
  (firstReserved e opSeqOpen).isNone && (firstBad e opSeqOpen).isNone &&
    match s.prickNow (entryMotif e) with
    | some p => decide (openRefusal s p (entryMotif e) (entrySeq e) (draftOf e) = some none)
    | none => false

/-- What a completed command leaves on the spare's copy of the sequence table: the head's checks repeated on the copy; whether a fork found the frames it needed no
message tells (R22, R28, R31, R209, R217, R296; free value, log 3). -/
def State.mirrorEffect (s : State) (m : Nat) (e : Bytes) : State :=
  let op := entryOp e
  let motif := entryMotif e
  let add := fun (q : Seq) => (match q.draft with | none => s.addSeq q | some d => (s.addSeq q).addSeq (companionOf q d))
  match s.findSeq motif (entrySeq e) with
  | none =>
    if op = opSeqOpen ∧ s.opened e then
      add (Seq.start motif (entrySeq e) (field e 0x10 8) (decide (field e 0x09 1 = 1)) (draftOf e) none (samplingOf e 0x18))
    else s
  | some q =>
    if op = opSeqFork ∧ q.state ≠ .closing ∧ (s.findSeq motif (field e 0x10 3)).isNone ∧ s.openCount < Config.maxSeqs ∧
        ((q.hostPages = true ∧ q.draft = none) ∨ Config.draw (s.draws + 1) % 2 = 1) then
      add { Seq.start motif (field e 0x10 3) (field e 0x18 8) q.hostPages q.draft none q.sampling with tokens := q.tokens }
    else if op = opSeqClose ∧ q.closeBox = some m then s.dropSeq q
    else if op = opPagesBind then s.mirrorBind q e
    else s

/-- A completion on the head: the spare's copy of the command is done. Its status is in no field of HEAD_SYNC: a free value (log 3). -/
def State.mirrorDone (s : State) (m : Nat) (h : HeadSync) : State :=
  let s1 := (s.unsync m).mirrorEffect m h.entry
  match s1.seqs.open_.find? fun q => (match q.gen with | some g => g.mailbox = m | none => false) || (match q.append with | some a => a.mailbox = m | none => false) with
  | some q => s1.draw.2.endWork q (s1.draw.1 % 65536) 0
  | none =>
    if isSeqOp (entryOp h.entry) && (s1.box m).done then s1
    else s1.draw.2.complete m (s1.draw.1 % 65536) 0 (s1.box m).progress 0

/-- HEAD_SYNC (R296). The negotiated version and the ring index of the entry come beside the message: its layout has no field for them (DESIGN CHOICE, log 99). -/
def execHeadSync (h : HeadSync) (s : State) : Result :=
  need (decide (h.mailbox < Config.mailboxes)) .noSuchMailbox
    (if s.role ≠ 1 then s
    else if h.kind = 0 then
      let s1 := if h.tokens = [] then s.setBox h.mailbox (mirrorBox (s.box h.mailbox) h s.now) else s
      ({ s1.unsync h.mailbox with take := { (s1.unsync h.mailbox).take with synced := (h.mailbox, h) :: (s1.unsync h.mailbox).take.synced } } : State).mirrorBegin h.mailbox h
    else if h.kind = 1 then
      let b := s.box h.mailbox
      let s1 := s.setBox h.mailbox { b with version := if h.version = 0 then b.version else some h.version }
      match s1.synced h.mailbox with
      | some x => s1.mirrorDone h.mailbox x
      | none => s1
    else
      let b0 := s.box h.mailbox
      -- LOAD records that the host has read were written by the head
      let b : Mailbox := if b0.opcode = opMotifLoad ∧ b0.done = false then { b0 with records := max b0.records h.readCount } else b0
      s.setBox h.mailbox { b with readCount := keepCount b.readCount b.records h.readCount })

/-! ### ROLE (R294, R298, R299) -/

/-- The next step numbers of the sequences with steps in flight here: earlier steps stay where they are (R294). -/
def State.handoverNumbers (s : State) : List (Nat × Nat × Option Nat × Nat) :=
  s.inFlight.map fun r => (r.motif, r.seq, r.companion, r.step + 1)

/-- Planned moves with a new one in front; a move back that no step looks behind ends the account of its machine. -/
def addMove (mv : Move) (moves : List Move) : List Move :=
  if mv.machine = mv.holder ∧ mv.before = [] then moves.filter fun x => x.machine ≠ mv.machine else mv :: moves

/-- Who has a machine's roles from now on, as this module knows it. Of a lost machine the first ROLE says who stands in for it, and a second that the stand-in holds
its pages and serves them too: the steps that start from then on are placed there (R293, R294, R298, R299; log 31). -/
def State.moveRole (s : State) (machine holder : Nat) (lost : Bool) : State :=
  let n := s.handoverNumbers
  let t := s.take
  if holder = machine then
    let moves := match t.roles.find? fun x => x.1 = machine with
      | some x => { machine := machine, holder := x.2, before := [] } :: t.moves
      | none => t.moves
    { s with
      take := { t with roles := t.roles.filter fun x => x.1 ≠ machine, moves := addMove { machine := machine, holder := machine, before := n } moves
                       farLost := t.farLost.filter (· ≠ machine) }
      fabric := { s.fabric with missing := s.fabric.missing.filter (· ≠ machine) } }
  else if lost = true ∧ s.holder machine ≠ holder then
    { s with take := { t with roles := (machine, holder) :: t.roles.filter fun x => x.1 ≠ machine } }
  else if movedNow t.moves machine = holder then s
  else { s with take := { t with moves := { machine := machine, holder := holder, before := n } :: t.moves } }

/-- The sequences that commands in progress name. -/
def State.namedSeqs (s : State) : List (Nat × Nat) :=
  (s.boxes.box.filterMap fun e => e.2.cur.bind fun c => if namesSeq e.2 (entryMotif c.entry) (entrySeq c.entry) then some (entryMotif c.entry, entrySeq c.entry) else none).dedup

/-- Sequence commands that wait for no step end with `ST_PEER_GONE` on a vacated head (R70). -/
def State.vacateIdle (s : State) : State := s.namedSeqs.foldl (fun u x => u.vacateSeq x.1 x.2) s

/-- The vacated module learns that the spare serves: first from the group mirror, then from its own arrays (R70, R294). -/
def State.vacate (s : State) (holder : Nat) : State :=
  if s.take.vacatedTo = some holder then
    let s1 : State := { s with take := { s.take with progress := 2 } }
    match s.take.mailbox with
    | some m => s1.setProgress m 1
    | none => s1
  else
    let s1 := ({ s.moveRole s.machineId holder false with take := { (s.moveRole s.machineId holder false).take with vacatedTo := some holder, progress := 1 } } : State).vacateIdle
    match s.take.mailbox with
    | some m => s1.setProgress m 1
    | none => s1

/-- The returning module has its roles back; its layers begin their records again (R146, R298). -/
def State.returnHome (s : State) : State :=
  let t := s.motifs.table.foldl (fun u e => u.freshLayers e.1 none) (s.moveRole s.machineId s.machineId false)
  let u : State := { t with
    take := { t.take with vacatedTo := none, backBox := none, progress := 0, spareServes := none }
    time := { t.time with withdrawn := false } }
  match s.take.backBox with
  | some m => u.complete m stOk 0 2 0
  | none => u

/-- What a ROLE changes in what this module knows of its group's spare. -/
def State.noteSpare (s : State) (machine holder : Nat) : State :=
  if groupOf machine ≠ groupOf s.machineId then s
  else { s with take := { s.take with spareServes := if holder = machine then none else some machine } }

/-! ### The spare's part (R293 to R295, R298) -/

/-- The spare takes a peer's shard of a motif from its group mirror: the tambour serves it, and its own arrays are programmed with it (R146, R293). -/
def State.adopt (s : State) (motif peer : Nat) (sh : Shard) : State :=
  let e := s.motif motif
  let free := s.unownedArrays
  let names := sh.tiles.map (·.named)
  let sh' : Shard := { sh with tiles := assignTiles free (free.filter fun a => !names.contains a) sh.tiles }
  let second := (e.groupMirror.find? fun g => decide (g.1 = peer ∧ g.2.1 = e.gen2 ∧ g.2.1 ≠ e.gen.toNat)).map fun g =>
    ({ g.2.2 with tiles := g.2.2.tiles.map fun t => { t with array := noArray } } : Shard)
  let x := e.prick.bind fun p => shardOf p peer
  let arrays := (shardArrays sh').mergeSort fun a b => decide (a ≤ b)
  let e' : MotifEntry := { e with
    mirror := some sh', mirror2 := second, mirrorState := 2, servingFor := some peer, tiles := sh.tiles.length
    shardDigest := match x with | some x => x.digest | none => e.shardDigest }
  (((s.setMotif motif e').freshLayers motif none).outArrays arrays).setLoad { LoadState.start motif false e with toProgram := arrays, shard := some sh' }

/-- The reason byte of a ROLE: 0 for a planned takeover, 1 for a loss, 2 for a return, from the byte that the free value gives (log 31). -/
def roleReason (why : Nat) : Nat := (Config.roleReason + why) % 256

/-- The ROLE message about a machine's layers in a pricking. -/
def roleMsg (machine holder why : Nat) (p : Option Pricking) : RoleMsg :=
  let ls := match p with | some p => layersOf p machine | none => []
  { machine := machine, holder := holder, firstLayer := ls.headD 0xFFFF, lastLayer := ls.getLastD 0xFFFF, reason := roleReason why }

/-- Announces who has a machine's roles, to every module of the motifs concerned and to the machine, one ROLE to each (R299). -/
def State.announce (s : State) (machine holder why : Nat) : State :=
  let ps := s.motifs.table.filterMap fun e => if e.2.servingFor = some machine then e.2.prick else none
  s.sendAll ((machine :: ps.flatMap s.motifModules).dedup.filter (· ≠ s.machineId)) none (.role (roleMsg machine holder why ps.head?))

/-- Why a peer's roles are with the spare: 1 a loss, 0 a planned takeover. -/
def State.whyServed (s : State) (peer : Nat) : Nat := b2n (s.fabric.missing.contains peer)

/-- The steps known here show that a takeover affects them (R293). -/
def State.slowAll (s : State) : State :=
  { s with steps := { s.steps with live := s.steps.live.map fun r => { r with slow := r.slow ||| slowBit slowTakeover } } }

/-- The spare begins to serve for a peer, from its group mirror (R293 to R295). -/
def State.serveFor (s : State) (peer : Nat) : State :=
  let s1 := s.motifs.table.foldl (fun u e => match e.2.groupMirror.find? fun g => decide (g.1 = peer ∧ g.2.1 = e.2.gen.toNat) with
    | some g => u.adopt e.1 peer g.2.2
    | none => u) s.slowAll
  let s2 := s1.moveRole peer s.machineId (s.fabric.missing.contains peer)
  ({ s2 with take := { s2.take with spareServes := some peer, progress := 1 } } : State).announce peer s.machineId (s.whyServed peer)

/-- Whether the spare serves every tile it took over from its own arrays. -/
def State.adoptedServe (s : State) (peer : Nat) : Bool :=
  s.motifs.table.all fun e => decide (e.2.servingFor ≠ some peer) ||
    (match e.2.mirror with | some sh => s.shardServes sh | none => true) && !(s.motifs.loads.any fun l => decide (l.motif = e.1 ∧ l.toProgram ≠ []))

/-- Whether the copies of a lost peer's pages have all come: none waits to be fetched again, and of the others no message says which is the last: a free value at
this moment (R293; log 31). -/
def State.pagesCame (s : State) (peer : Nat) : Bool :=
  !s.fabric.missing.contains peer || (s.take.refetch.isEmpty && decide (Config.remote peer 0 s.now 42 0 % 2 = 1))

/-- Once the spare serves from its own arrays, and of a lost peer holds the pages, it says so, and serves those pages too from then on (R293, R294). -/
def State.announceArrays (s : State) : State :=
  match s.take.spareServes with
  | some peer =>
    if s.role = 1 ∧ s.take.progress = 1 ∧ s.adoptedServe peer ∧ s.pagesCame peer then
      (({ s with take := { s.take with progress := 2 } } : State).announce peer s.machineId (s.whyServed peer)).moveRole peer s.machineId (s.fabric.missing.contains peer)
    else s
  | none => s

/-- A page's frame as it goes to another module: as a home or shadow copy (R293, R294, R298). A copy that reads a flagged block fails and is made again later
(R300, R374). -/
def State.sendPage (s : State) (p : Pricking) (r : LayerRec) (x : PageSend) : State :=
  match s.flaggedIn x.frame (pagePayload (kvBits p) r.kvHeads) with
  | [] => s.send (s.msg x.dest none (.pageCopy x.seq r.layer (x.page / r.k) x.home (memRead s.mem x.frame (pagePayload (kvBits p) r.kvHeads))))
  | b :: _ => ({ s with take := { s.take with unsent := x :: s.take.unsent } } : State).evWord kStack (stackOf (64 * b)) (64 * b) 1 none

/-- The page copies that failed on a flagged block are read again (R374, R300). -/
def State.sendWaiting (s : State) : State :=
  s.take.unsent.foldl (fun u x => match (u.motif x.motif).prick with
    | some p => match layerOf p x.layer with
      | some r => u.sendPage p r x
      | none => u
    | none => u) { s with take := { s.take with unsent := [] } }

/-- The frames that a sequence's table names for a layer, sent: for each rank held here those of its home list and its shadow list (R204, R205, R209). -/
def State.sendTable (s : State) (dest : Nat) (as : LayerRec → Nat → Bool → Option Bool) (p : Pricking) (r : LayerRec) (motif seq off : Nat) : State :=
  [true, false].foldl (fun u list =>
    let d := readDescriptor u.mem (if list then off else off + 16)
    (u.ranksHeld r).foldl (fun u rank =>
      (List.range d.length).foldl (fun u j => match as r (pageAt r.k rank j list) list, u.listFrame d (frameSize p) j with
        | some home, some f => u.sendPage p r { dest := dest, motif := motif, seq := seq, layer := r.layer, page := pageAt r.k rank j list, frame := f, home := home }
        | _, _ => u) u) u) s

/-- The host-managed sequences headed elsewhere that steps here have told of, by a tag of each. -/
def State.farTags (s : State) : List StepTag :=
  ((s.steps.live.filter fun r => r.companion.isNone).map fun r => r.tag 0 0).filter fun t => (s.seqOf t).isNone && s.hostManaged t

/-- The frames here sent to another module: every firmware-managed frame, those of companions among them, and those that the tables of host-managed sequences name. `as` says, for a
rank's page and the list it lies in here, as which copy it goes, if it does. -/
def State.sendFrames (s : State) (dest : Nat) (as : LayerRec → Nat → Bool → Option Bool) : State :=
  let s1 := s.seqs.frames.foldl (fun u f => match (u.motif f.motif).prick with
    | none => u
    | some p => match layerOf p f.layer with
      | none => u
      | some r => match as r f.page f.home with
        | some home => u.sendPage p r { dest := dest, motif := f.motif, seq := f.seq, layer := f.layer, page := f.page, frame := f.frame * frameSize p, home := home }
        | none => u) s
  let s2 := s1.seqs.bindings.foldl (fun u b => match (u.motif b.motif).prick with
    | none => u
    | some p => (List.range b.layerCount).foldl (fun u i => match layerOf p (b.firstLayer + i) with
      | none => u
      | some r => u.sendTable dest as p r b.motif b.seq (b.descOffset + 32 * i)) u) s1
  s2.farTags.foldl (fun u t => match (u.motif t.motif).prick with
    | none => u
    | some p => p.layers.foldl (fun u r => match u.remoteDescriptor { t with layer := r.layer } with
      | some off => u.sendTable dest as p r t.motif t.seq off
      | none => u) u) s2

/-- Every page goes as the copy it is (R294). -/
def allPages (_ : LayerRec) (_ : Nat) (home : Bool) : Option Bool := some home

/-- Which pages a lost machine held: a page whose home it was goes from its shadow holder, as home copy, and a page whose shadow it was from its home, as shadow
copy (R205, R293). -/
def lostPages (machine : Nat) (r : LayerRec) (page : Nat) (home : Bool) : Option Bool :=
  if r.k < 2 then none
  else if !home && decide (rankHome r (homeRank r.k page) = machine) then some true
  else if home && decide (rankHome r (shadowRank r.k page) = machine) then some false
  else none

/-- The pages of a machine's own rank, each as the copy it is (R298). -/
def rankPages (machine : Nat) (r : LayerRec) (page : Nat) (home : Bool) : Option Bool :=
  if home then (if rankHome r (homeRank r.k page) = machine then some true else none)
  else if 2 ≤ r.k ∧ rankHome r (shadowRank r.k page) = machine then some false
  else none

/-- Whether a lost peer is the head of a motif this spare has tables of. -/
def State.peerIsHead (s : State) (peer : Nat) : Bool := s.motifs.table.any fun e => match e.2.prick with | some p => decide (p.head = peer) | none => false

/-- The spare gives a peer's pages and roles back; steps in flight stay with it, and with a head role given back its sequence commands end as R70 says (R294,
R298). -/
def State.giveRolesBack (s : State) (peer : Nat) : State :=
  let s1 := ((s.sendFrames peer (rankPages peer)).announce peer peer 2).moveRole peer peer false
  let s2 : State := { s1 with take := { s1.take with progress := 3 } }
  if s.peerIsHead peer then ({ s2 with take := { s2.take with vacatedTo := some peer } } : State).vacateIdle else s2

/-- Whether a frame here holds a page of another machine's rank. -/
def State.frameOf (s : State) (machine : Nat) (f : FrameRef) : Bool :=
  match (s.motif f.motif).prick.bind fun p => layerOf p f.layer with
  | some r => (rankPages machine r f.page f.home).isSome
  | none => false

/-- Once the last step in flight of a peer's layers has ended here, the spare's arrays return to FREE, and it is free again (R298). -/
def State.releaseServed (s : State) : State :=
  match s.take.spareServes with
  | none => s
  | some peer =>
    if s.role ≠ 1 ∨ s.take.progress ≠ 3 ∨ s.inFlight ≠ [] then s
    else
      let s2 := s.motifs.table.foldl (fun u e =>
        if e.2.servingFor ≠ some peer then u
        else (u.freeArrays (match e.2.mirror with | some sh => shardArrays sh | none => [])).setMotif e.1
          { u.motif e.1 with mirror := none, mirror2 := none, mirrorState := 0, servingFor := none, tiles := 0, shardDigest := zeros 32 }) s
      { s2 with
        motifs := { s2.motifs with loads := s2.motifs.loads.filter (·.proper) }
        take := { s2.take with spareServes := none, progress := 0, vacatedTo := none }
        seqs := { s2.seqs with frames := s2.seqs.frames.filter fun f => !s2.frameOf peer f } }

/-- Commands that a loss beyond the recovery promise leaves without a module or page they need end with `ST_PEER_GONE`: generations and appends with the steps
they have in flight, loads, switches (R207, R269, R295). -/
def State.endLost (s : State) : State :=
  let s1 := s.seqs.open_.foldl (fun u q => match u.findSeq q.motif q.id, u.prickNow q.motif with
    | some x, some p =>
      if q.companion.isSome ∨ !u.headOf p ∨ !u.beyond p x then u
      else (((u.seqInFlight (seqTag x)).foldl (fun v r => v.endStep (r.tag 0 0) x.tokens.length true) u).endWork x stPeerGone 0xFFFFFFFF).closeIfDone x.motif x.id
    | _, _ => u) s
  let gone : State → Option Pricking → Bool := fun (u : State) (p : Option Pricking) => match p with | some p => p.shards.any fun e => u.lostForGood e.machineId | none => false
  let s2 := s1.motifs.loads.foldl (fun u l => if l.mailbox.isSome && gone u l.prick then u.loadFailed l stPeerGone 0xFFFFFFFF else u) s1
  s2.motifs.switches.foldl (fun u w =>
    if gone u (u.motif w.motif).prick then
      ({ u with motifs := { u.motifs with switches := u.motifs.switches.filter fun x => x.motif ≠ w.motif } } : State).failCmd w.mailbox stPeerGone 0xFFFFFFFF
    else u) s2

/-- A planned takeover reaches the spare with the vacating module's ROLE, or earlier with the first frame or step of a peer that it does not serve for (R294;
log 31). -/
def State.plannedServe (s : State) (peer : Nat) : State :=
  if s.role = 1 ∧ s.take.spareServes = none ∧ !s.take.spareOut ∧ s.groupPeers.contains peer ∧ !s.fabric.missing.contains peer then s.serveFor peer else s

/-- A module of another group is lost, as a ROLE tells: no heartbeat of it comes here (R261, R299). -/
def State.learnLost (s : State) (machine : Nat) : State :=
  if groupOf machine = groupOf s.machineId then s
  else { s with fabric := { s.fabric with missing := insertAsc machine s.fabric.missing } }

/-- ROLE: the module that holds a lost or returning module's layers; the upstream module of a lost one, in whatever group, then sends its rows again (R261, R294,
R298, R299). A module that is vacated tells the spare so, and a returning module asks it for its roles, with a ROLE (DESIGN CHOICE, log 31). -/
def execRole (r : RoleMsg) (s : State) : Result :=
  .next (if r.machine = s.machineId then
      if r.holder = s.machineId then s.returnHome else s.vacate r.holder
    else if s.role = 1 ∧ r.holder = s.machineId then s.plannedServe r.machine
    else if s.role = 1 ∧ s.take.spareServes = some r.machine then
      (if r.holder = r.machine ∧ s.take.progress ≠ 3 then s.giveRolesBack r.machine else s)
    else
      let lost := (s.fabric.missing.contains r.machine || decide (r.reason = roleReason 1)) && decide (s.holder r.machine ≠ r.holder ∧ r.holder ≠ r.machine)
      let s0 := if lost then s.learnLost r.machine else s
      let s1 := (s0.moveRole r.machine r.holder lost).noteSpare r.machine r.holder
      if lost then ((s1.feedTakeover r.machine r.holder fun _ => false).sendFrames r.holder (lostPages r.machine)).endLost else s1)

/-- The lost head's commands go on in this module's mailboxes (R297). -/
def State.continueCommands (s : State) : State :=
  (List.range Config.mailboxes).foldl (fun u m => match u.synced m with
    | none => u
    | some h =>
      let running := u.seqs.open_.any fun q => (match q.gen with | some g => g.mailbox = m | none => false) ||
        (match q.append with | some a => a.mailbox = m | none => false) || decide (q.closeBox = some m)
      let q := u.findSeq (entryMotif h.entry) (entrySeq h.entry)
      let c : Cmd := { entry := h.entry, index := h.entryIndex, qp := 0, order := u.boxes.consumed, xfer := .none, data := [], want := 0, via := 0, begun := running, continued := true,
                       tokensThen := (q.map fun x => x.tokens.length).getD 0, latchedThen := if entryOp h.entry = opPagesBind then u.latchedNow h.entry else [] }
      if (u.box m).done then u else (u.unsync m).setBox m { u.box m with cur := some c }) s

/-- Recalls the steps in flight known here that the lost peer's layers take part in, from its first layer on (R261, R295). -/
def State.recallLost (s : State) (peer : Nat) : State :=
  s.inFlight.foldl (fun u r => match (u.motif r.motif).prickFor r.gen with
    | none => u
    | some p => match layersOf p peer with
      | [] => u
      | f :: _ =>
        let u1 := u.raiseRecall (r.tag f 0) 4 f 0xFFFF kModule 0
        match u1.stepOf (r.tag f 0), layerOf p (f - 1) with
        | some r', some up =>
          let lam := floorAt r' f
          let body : RecallBody := { cause := 4, noReplay := false, layer := f, array := 0xFFFF, origin := u1.machineId, time := u1.now }
          if f = 0 ∨ u1.holder up.owner = u1.machineId then u1 else u1.send (u1.msg (u1.holder up.owner) (some (r'.tag f lam)) (.recall body))
        | _, _ => u1) s

/-- UNPLANNED_TAKEOVER: the group spare stands in for a peer declared missing (R295, R297). -/
def execUnplannedTakeover (peer : Nat) (s : State) : Result :=
  .next (onlyIf (decide (s.role = 1) && s.fabric.missing.contains peer && s.groupPeers.contains peer && s.take.spareServes.isNone && !s.take.spareOut &&
      s.start.powerGood && !s.start.safe) s
    (let s1 := (s.serveFor peer).recallLost peer
    if s1.peerIsHead peer || s1.take.synced.any (fun x => entryOp x.2.entry = opMotifLoad) then s1.continueCommands else s1))

/-- PAGE_COPY: a frame's payload that passes its checksum fills the page's frame; one that does not is noted, to be fetched again from the same source (R293,
R294, R298, R300; log 79). -/
def execPageCopy (source seq motif layer localIndex : Nat) (home : Bool) (data : Bytes) (checksum : BitVec 32) (s : State) : Result :=
  need (decide (motif < 16)) .noSuchMotif
    (let key := (source, motif, seq, layer, localIndex, home)
    let rest := s.take.refetch.filter (· ≠ key)
    if crc32c data == checksum then ({ s with take := { s.take with refetch := rest } } : State).plannedServe source |>.takePage seq motif layer localIndex home data
    else { s with take := { s.take with refetch := key :: rest } })

/-! ### TAKEOVER and HANDBACK (R70, R294, R298, R406) -/

/-- A planned takeover begins on the module to be vacated: its frames go to the spare, and then a ROLE that has the spare begin to serve (R294; DESIGN CHOICE,
log 31). -/
def State.beginTakeover (s : State) (m : Option Nat) : State :=
  match s.spareId with
  | none => s
  | some sp =>
    let s1 : State := { s with
      take := { s.take with mailbox := m, progress := 0, spareServes := some s.machineId }
      time := { s.time with withdrawn := true } }
    let s2 := s1.sendFrames sp allPages
    s2.send (s2.msg sp none (.role (roleMsg s.machineId sp 0 (s.motifs.table.findSome? fun e => e.2.prick))))

/-- TAKEOVER (R70, R294). -/
def execTakeover (m : Nat) (s : State) : Result := command m opTakeover s fun t =>
  if begunOn t m then
    if t.take.progress = 2 ∧ t.inFlight = [] then
      ({ t with take := { t.take with mailbox := none } } : State).complete m stOk 0 2 0
    else t
  else if t.role = 1 then
    (({ t with take := { t.take with spareOut := true }, time := { t.time with withdrawn := true } } : State).setTarget m 2).complete m stOk 0 2 0
  else if t.take.vacatedTo.isSome ∧ t.take.mailbox = none then (t.setTarget m 2).complete m stOk 0 2 0
  else if t.take.mailbox.isSome then t
  else if !t.spareReady then t.failCmd m stNoSpare 0
  else ((t.setCmd m fun c => { c with begun := true }).setTarget m 2).beginTakeover (some m)

/-- Whether the mirrors of the resident motifs are present (R285, R298). -/
def State.mirrorsPresent (s : State) : Bool := s.motifs.table.all fun e => decide (e.2.state ≠ 2 ∨ e.2.tiles = 0 ∨ e.2.mirrorState = 2)

/-- The arrays of a motif whose cells are not what the mirror gives them, where a working physical array serves the index. -/
def State.unlikeMirror (s : State) (e : MotifEntry) : List Nat :=
  match e.mirror with
  | some sh => if e.state = 2 then ((shardArrays sh).filter fun a => (s.workOf a).isSome && decide (s.held a ≠ s.tileFor a)).mergeSort fun a b => decide (a ≤ b) else []
  | none => []

/-- Whether every array holds what its mirror gives it and none is being programmed (R298). -/
def State.arraysRight (s : State) : Bool := s.motifs.table.all (fun e => (s.unlikeMirror e.2).isEmpty) && s.motifs.loads.all fun l => l.toProgram.isEmpty

/-- A returning module programs the arrays that its mirror has outgrown (R275, R298). -/
def State.programOutgrown (s : State) : State :=
  if s.motifs.loads.any fun l => !l.toProgram.isEmpty then s
  else s.motifs.table.foldl (fun u e => match s.unlikeMirror e.2 with
    | [] => u
    | arrays => (u.outArrays arrays).setLoad { LoadState.start e.1 false e.2 with toProgram := arrays, shard := e.2.mirror }) s

/-- The arrays of the resident motifs verify-read against their mirrors: one with drifted rows has them rewritten and is confirmed again. Which have is a free value
(R188, R298; log 31). -/
def State.verifyMirrors (s : State) : State :=
  s.motifs.table.foldl (fun u e => match e.2.mirror with
    | some sh => if e.2.state = 2 then (shardArrays sh).foldl (fun v a => if Config.remote a 0 s.now 43 0 % 2 = 1 then v.verifyArray a true else v) u else u
    | none => u) s

/-- The returning module's mirrors are back: arrays that a newer generation has outgrown are programmed; then the arrays are verify-read. Then progress is 1, and
the spare is asked for the roles (R298). -/
def State.handbackArrays (s : State) (m holder : Nat) : State :=
  if s.arraysRight then
    let s1 := s.verifyMirrors.setProgress m 1
    s1.send (s1.msg holder none (.role (roleMsg s.machineId s.machineId 2 (s.motifs.table.findSome? fun e => e.2.prick))))
  else s.programOutgrown

/-- HANDBACK (R298): on a module that keeps its roles it completes at once; in the safe state it waits for SAFE_EXIT (R406). -/
def execHandback (m : Nat) (s : State) : Result := command m opHandback s fun t =>
  if t.role = 1 ∧ t.take.spareOut then
    (({ t with take := { t.take with spareOut := false }, time := { t.time with withdrawn := false } } : State).setTarget m 2).complete m stOk 0 2 0
  else if begunOn t m then
    onlyIf (decide ((t.box m).progress = 0) && t.mirrorsPresent && !t.start.safe) t
      (match t.take.vacatedTo with
       | some holder => t.handbackArrays m holder
       | none => ({ t with take := { t.take with backBox := none }, time := { t.time with withdrawn := false } } : State).complete m stOk 0 2 0)
  else if (t.role = 1 ∨ t.take.vacatedTo.isNone) ∧ !t.start.safe then (t.setTarget m 2).complete m stOk 0 2 0
  else if t.take.backBox.isSome then t
  else
    ({ (t.setCmd m fun c => { c with begun := true }).setTarget m 2 with
        take := { ((t.setCmd m fun c => { c with begun := true }).setTarget m 2).take with backBox := some m } } : State)

/-! ### Heartbeats (R244, R261, R328) -/

/-- Whether the module's brides may carry messages (R405, R470). -/
def State.bridesRun (s : State) : Bool :=
  s.start.powerGood && !s.start.safe && !s.start.rom && (decide (4 ≤ s.start.stage) || s.restarting)

/-- HEARTBEAT_SEND (R244). A spare that has given roles back looks here whether its last step is done (R298; log 31), and changes of read_count that have waited
are told (R296). -/
def execHeartbeatSend (s : State) : Result :=
  .next (onlyIf s.bridesRun s ((s.sendAll s.groupPeers none (.heartbeat s.now)).releaseServed.syncWaiting))

/-- A peer that is heard again gets the shards it has lost with its power: from the group spare its own, and a spare those of each module (R285, R300; DEDUCED
that the source sends them unasked, log 75). -/
def State.sendMirrors (s : State) (peer : Nat) : State :=
  s.motifs.table.foldl (fun u e =>
    if s.role = 1 then (e.2.groupMirror.filter fun g => g.1 = peer).foldl (fun v g => v.copyShard peer e.1 g.2.1 (shardData g.2.2)) u
    else if s.spareId = some peer then (match e.2.mirror with | some sh => u.copyShard peer e.1 e.2.gen.toNat (shardData sh) | none => u)
    else u) s

/-- HEARTBEAT: the peer is heard; a spare that serves for it tells it so (R261, R299). -/
def execHeartbeat (peer time : Nat) (s : State) : Result :=
  .next (onlyIf (s.groupPeers.contains peer && decide (time < 2 ^ 64)) s
    (let s1 : State := { s with fabric := { s.fabric with
      heard := (peer, s.now) :: s.fabric.heard.filter fun h => h.1 ≠ peer, missing := s.fabric.missing.filter (· ≠ peer) } }
    if !s.fabric.missing.contains peer then s1
    else (if s.role = 1 ∧ s.take.spareServes = some peer then s1.announce peer s.machineId 1 else s1).sendMirrors peer))

/-- Whether no bride, direct or through a relay, reaches a peer (R328). -/
def State.noRouteTo (s : State) (peer : Nat) : Bool := decide ((Tab.get Route.init s.fabric.route peer).kind = 0)

/-- A peer is declared missing (R261, R389, R394). -/
def State.declareMissing (s : State) (peer reason : Nat) : State :=
  (({ s with fabric := { s.fabric with missing := insertAsc peer s.fabric.missing } }.ev 11 3 0 kModule 0 (leBytes 2 peer ++ leBytes 1 reason)).count
    fun c => { c with heartbeatsMissed := sat64 c.heartbeatsMissed 1 }).endLost

/-- HEARTBEAT_MISSING: 30 µs without a message, or the last route gone (R261, R328). -/
def execHeartbeatMissing (peer : Nat) (s : State) : Result :=
  .next (match s.fabric.heard.find? fun h => h.1 = peer with
  | none => s
  | some h =>
    if !s.groupPeers.contains peer || s.fabric.missing.contains peer then s
    else if s.noRouteTo peer then s.declareMissing peer 1
    else if h.2 + 30000 ≤ s.now then s.declareMissing peer 0
    else s)

/-- The message types that R244, R299, R331 and R352 define. -/
def definedType (t : Nat) : Bool :=
  decide ((1 ≤ t ∧ t ≤ 0x0C) ∨ (0x40 ≤ t ∧ t ≤ 0x42) ∨ t = 0x80 ∨ t = 0x81 ∨ (0x90 ≤ t ∧ t ≤ 0x96))

/-- BAD_TYPE: a message of an undefined type is discarded and recorded (R244, R389). -/
def execBadType (bride type source : Nat) (s : State) : Result :=
  need (decide (bride < 32)) .noSuchBride
    (onlyIf (!definedType type) s (s.ev 4 17 0 kBride bride (leBytes 1 type ++ leBytes 2 source)))

end Sys2Proof.Machine
end

