-- ==== Sys2Proof/Machine/Calibration.lean ====
section
/-! DEFINITION. Calibration: residuals of a window, service and warm-up windows, confirmation, shadow sets, the freeze, and host sets (R160 to R187). -/

namespace Sys2Proof.Machine

/-! ### The residuals of a window (R162 to R165) -/

/-- One residual of a window. -/
structure Resid where
  /-- 0 offset, 1 threshold, 2 tap. -/
  kind : Nat
  /-- Column or tap. -/
  index : Nat
  /-- The residual is above 0. -/
  positive : Bool
  /-- Outside the dead band. -/
  out : Bool
  /-- Beyond four times the dead band. -/
  far : Bool
  /-- The computed correction in steps, rounded, with the sign of the residual: residual over what a step moves (DEDUCED, log 33). -/
  steps : Int
  /-- Its size in the unit of R158's report, truncated. -/
  report : Nat
  /-- Its size in 1/65,536 of its dead band, truncated. -/
  size : Nat
  deriving DecidableEq, Repr

/-- The column sum S and column square Q of the calibration table (R162, R163). -/
def reference (s : State) (ph col : Nat) : Int × Nat :=
  let c := columnCells s ph col
  (columnSum c, columnSquare c)

/-- The offset residual of a column: sum/n - μ·S/G as num over den, with μ over the planes in which the column's own code counted (R162; DESIGN CHOICE,
log 64). -/
def offsetResid (g : Nat) (col : Nat) (st : Stats) (sum : Int) : Resid :=
  let n := Tab.get 0 st.count col
  let a : Int := 2 * (Tab.get 0 st.colOnes col : Nat) - 1024 * (n : Int)
  let num : Int := 1024 * (g : Int) * Tab.get 0 st.sum col - a * sum
  let den := 1024 * n * g
  { kind := 0, index := col, positive := decide (0 < num), out := decide ((den : Int) < 8 * num.natAbs), far := decide ((den : Int) < 2 * num.natAbs),
    steps := roundDivEven (16 * num) den, report := 256 * num.natAbs / den, size := 65536 * 8 * num.natAbs / den }

/-- Numerator and denominator of the square of a column's rms ratio: measured over predicted variance (R163). -/
def ratioSquare (g q : Nat) (col : Nat) (st : Stats) : Nat × Nat :=
  let n := Tab.get 0 st.count col
  let a : Int := 2 * (Tab.get 0 st.colOnes col : Nat) - 1024 * (n : Int)
  let d : Int := 1024 * (n : Int)
  let sum := Tab.get 0 st.sum col
  ((((n : Int) * (Tab.get 0 st.sumSq col : Nat) - sum * sum) * 12 * (g : Int) * g * 1048576).toNat,
   (12 * (q : Int) * (d * d - a * a) + (g : Int) * g * d * d).toNat)

/-- Whether the root of N/P lies within `w`/1,000 of 1. -/
def ratioWithin (np : Nat × Nat) (w : Nat) : Bool :=
  decide ((1000 - w) * (1000 - w) * np.2 ≤ 1000000 * np.1 ∧ 1000000 * np.1 ≤ (1000 + w) * (1000 + w) * np.2)

/-- The threshold residual of a column: its rms ratio less 1 (R163, R165). -/
def thresholdResid (g q : Nat) (col : Nat) (st : Stats) : Resid :=
  let np := ratioSquare g q col st
  let dev : Int := (Nat.sqrt (np.1 * 2 ^ 64 / np.2) : Nat) - (2 ^ 32 : Int)
  { kind := 1, index := col, positive := decide (0 < dev), out := !ratioWithin np 5, far := !ratioWithin np 20,
    steps := roundDivEven (200 * dev) (2 ^ 32), report := dev.natAbs / 65536, size := 200 * dev.natAbs / 65536 }

/-- The residuals of a column that has counted conversions; one with Q below 1,024 has no rms ratio (R163). -/
def columnResids (s : State) (ph col : Nat) : List Resid :=
  let st := (s.phys ph).stats
  let g := gainOf s ph
  if Tab.get 0 st.count col = 0 ∨ g = 0 then []
  else
    let r := reference s ph col
    offsetResid g col st r.1 :: (if r.2 < 1024 then [] else [thresholdResid g r.2 col st])

/-! ### Tap shares (R164): normal densities in fixed point, 2^96 to one (log 34) -/

/-- The series Σ (-1)^k z^(2k+1)/(2^k k! (2k+1)) of the normal distribution, `fuel` terms; `term` is z^(2k+1)/(2^k k!) with its sign. -/
def normalSeries (z2 : Int) : Nat → Nat → Int → Int → Int
  | 0, _, _, acc => acc
  | fuel + 1, k, term, acc =>
    normalSeries z2 fuel (k + 1) (-(term * z2 / 2 ^ 96) / (2 * (k + 1 : Int))) (acc + term / (2 * (k : Int) + 1))

/-- The normal distribution function at z, both scaled by 2^96; beyond 8 on either side it is 0 or 1. -/
def normalCdf (z : Int) : Int :=
  if z ≤ -8 * 2 ^ 96 then 0
  else if 8 * 2 ^ 96 ≤ z then 2 ^ 96
  else
    -- 1/√(2π) times 2^96
    let c : Int := ((Nat.sqrt (2 ^ 192 * 10 ^ 30 / (2 * 3141592653589793238462643383279)) : Nat) : Int)
    2 ^ 95 + c * normalSeries (z * z / 2 ^ 96) 200 0 z 0 / 2 ^ 96

/-- The predicted probability of each of the 256 code bins of a column, scaled by 2^96; both ends are cut at the clamp values (R164). -/
def columnBins (g q : Nat) (sum : Int) (ones drives : Nat) : List Int :=
  -- mean μS/G and variance Q(1-μ²)/G² + 1/12 with μ = m/drives
  let m : Int := 2 * (ones : Int) - drives
  let sd := Nat.sqrt (((12 * (q : Int) * (drives * drives - m * m) + (g : Int) * g * drives * drives) * 2 ^ 64 / (12 * (g : Int) * g * drives * drives)).toNat)
  let edge := fun (i : Nat) =>
    -- (i - 128.5 - mean)/sd
    normalCdf ((((2 * (i : Int) - 257) * (g : Int) * drives - 2 * m * sum) * 2 ^ 128 / (2 * (g : Int) * drives)) / (sd : Int))
  (List.range 256).map fun i => edge (i + 1) - edge i

/-- The predicted shares of the 16 taps, not normalised: the sum over the columns of their bins (R154, R164). -/
def tapPrediction (s : State) (ph : Nat) : List Int :=
  let st := (s.phys ph).stats
  let bins := (List.range 576).map fun col => let r := reference s ph col; columnBins (gainOf s ph) r.2 r.1 st.ones st.drives
  (List.range 16).map fun k => sumI (bins.map fun b => sumI ((List.range 16).map fun j => b.getD (16 * j + k) 0))

/-- The codes of a window that end at a tap. -/
def tapCount (st : Stats) (k : Nat) : Nat := ((List.range 16).map fun j => Tab.get 0 st.hist (16 * j + k)).sum

/-- The conversions of a tap window. -/
def histTotal (st : Stats) : Nat := (st.hist.map (·.2)).sum

/-- The residuals of the 16 taps: measured over predicted share, less 1 (R164, R165). -/
def tapResids (s : State) (ph : Nat) : List Resid :=
  let st := (s.phys ph).stats
  let total := histTotal st
  if total = 0 ∨ gainOf s ph = 0 ∨ st.drives = 0 then []
  else
    let pred := tapPrediction s ph
    let all := sumI pred
    (List.range 16).filterMap fun k =>
      let den := ((total : Int) * pred.getD k 0).toNat
      let num : Int := (tapCount st k : Int) * all - den
      if den = 0 then none
      else some { kind := 2, index := k, positive := decide (0 < num), out := decide ((den : Int) < 50 * num.natAbs), far := decide (2 * (den : Int) < 25 * num.natAbs),
                  steps := roundDivEven (64 * num) den, report := 65536 * num.natAbs / den, size := 65536 * 50 * num.natAbs / den }

/-! ### Corrections (R165, R172) -/

/-- A set with one trim moved: a positive residual raises offset and threshold and lowers a tap (R165). -/
def moveTrim (c : CoefSet) (kind index : Nat) (n : Int) : CoefSet :=
  if kind = 0 then { c with offsets := Tab.put 0 c.offsets index (clampI (-64) 63 (offsetOf c index + n)) }
  else if kind = 1 then { c with thresholds := Tab.put 16 c.thresholds index (clampI 0 31 (thresholdOf c index + n)).toNat }
  else { c with taps := Tab.put 16 c.taps index (clampI 0 31 (tapOf c index - n)).toNat }

/-- The correction of a residual, of at most `limit` steps. -/
def correction (limit : Nat) (r : Resid) : Int :=
  if limit = 1 then (if r.positive then 1 else -1) else clampI (-(limit : Int)) limit r.steps

/-- A set with every trim outside its dead band corrected. -/
def correctSet (limit : Nat) (c : CoefSet) (rs : List Resid) : CoefSet :=
  rs.foldl (fun c r => if r.out then moveTrim c r.kind r.index (correction limit r) else c) c

/-- The largest report of a kind, or the value before where the window says nothing of it. -/
def largest (kind before : Nat) (rs : List Resid) : Nat :=
  if rs.any fun r => decide (r.kind = kind) then (rs.filter fun r => r.kind = kind).foldl (fun n r => max n r.report) 0 else before

/-- The trim of a residual as one number, for the counts of R187. -/
def Resid.trim (r : Resid) : Nat := 576 * r.kind + r.index

/-- An array's health values after a window, of its columns or of its taps: each counts as one for `in_band` (R158, R187; DESIGN CHOICE, log 96). -/
def PhysArray.judged (p : PhysArray) (rs : List Resid) : PhysArray :=
  { p with
    offResid := satTo 16 (largest 0 p.offResid rs), thrResid := satTo 16 (largest 1 p.thrResid rs), tapResid := satTo 16 (largest 2 p.tapResid rs),
    inBand := if rs.any (·.out) then 0 else satTo 32 (p.inBand + 1),
    outTrims := (rs.filter (·.out)).map (·.trim) ++ p.outTrims.filter fun t => !(rs.any fun r => r.trim = t),
    far := rs.foldl (fun t r => Tab.put 0 t r.trim (if r.far then Tab.get 0 t r.trim + 1 else 0)) p.far }

/-- The corrected set of a window, written into the shadow registers and READY where a trim moves (R175). A window that ends while a READY background set still
waits corrects that set (DESIGN CHOICE, log 66). -/
def PhysArray.stage (p : PhysArray) (limit : Nat) (rs : List Resid) : PhysArray :=
  if rs.any (·.out) then { p with shadow := some (correctSet limit (p.shadow.getD p.coef) rs) } else p

/-! ### Due for refresh (R187) -/

/-- The sorted differences of the threshold trims from the programming-time set. -/
def thresholdDrift (p : PhysArray) (old : CoefSet) : List Int :=
  ((List.range 576).map fun c => (thresholdOf p.coef c : Int) - thresholdOf old c).mergeSort fun a b => decide (a ≤ b)

/-- Drift: a standard deviation above 1.5 steps, or a column 4 steps or more from the median (R187); the median of 576 values is half the
sum of the middle two (DEDUCED, log 33). -/
def drifted (p : PhysArray) : Bool :=
  match p.progSet with
  | none => false
  | some old =>
    let d := thresholdDrift p old
    let sum := sumI d
    let sq := sumI (d.map fun x => x * x)
    let mid2 := d.getD 287 0 + d.getD 288 0
    decide (9 * 576 * 576 < 4 * (576 * sq - sum * sum)) || d.any fun x => decide (8 ≤ (2 * x - mid2).natAbs)

/-- Thirty days in nanoseconds. -/
def days30 : Nat := 30 * 86400 * 1000000000

/-- The priorities of the causes of R187 that the array itself shows. -/
def duePriorities (p : PhysArray) (now : Nat) : List Nat :=
  (if p.calState = 3 ∧ p.far.any (fun e => decide (8 ≤ e.2)) then [2] else []) ++ (if drifted p then [3] else []) ++
  (if p.programmed ≠ 0 ∧ p.programmed + days30 ≤ now then [4] else []) ++ (if p.calState = 3 ∧ p.programmed = 0 then [5] else [])

/-- Makes the index of an array due for what the array shows (R187). -/
def State.checkDue (s : State) (ph : Nat) : State :=
  match s.indexOf ph, duePriorities (s.phys ph) s.now with
  | some a, k :: _ => s.setArray a (markDue (s.array a) k s.now)
  | _, _ => s

/-! ### Service windows (R165, R166, R170, R182, R183, R186) -/

/-- Conversions of a column in a service window. -/
def windowColumn : Nat := 65536

/-- Conversions of a tap window. -/
def windowTaps : Nat := 4194304

/-- The columns whose service window has ended. -/
def endedColumns (st : Stats) : List Nat := (List.range 576).filter fun c => decide (windowColumn ≤ Tab.get 0 st.count c)

/-- When the window of a column began (R170). -/
def PhysArray.colStart (p : PhysArray) (c : Nat) : Nat := max p.windowStart (Tab.get 0 p.stats.start c)

/-- Whether the offset window of some column has not ended 0.25 s after it began (R170). -/
def PhysArray.overdue (p : PhysArray) (now : Nat) : Bool := (List.range 576).any fun c => decide (p.colStart c + 250000000 ≤ now)

/-- Statistics with some columns' accumulators back at 0, their windows begun now (R166, R170). The slice sums, which no rule gives a window of their own, begin
again with them (DESIGN CHOICE, log 65). -/
def Stats.clearColumns (st : Stats) (cols : List Nat) (now : Nat) : Stats :=
  if cols = [] then st
  else
    let keep := fun {α : Type} (t : Tab α) => t.filter fun e => !cols.contains e.1
    { st with count := keep st.count, sum := keep st.sum, sumSq := keep st.sumSq, colOnes := keep st.colOnes
              start := cols.foldl (fun t c => Tab.put 0 t c now) st.start, dSum := [], dSq := [], dCount := [] }

/-- Statistics with the tap window's accumulators back at 0. -/
def Stats.clearTaps (st : Stats) : Stats := { st with hist := [], ones := 0, drives := 0 }

/-- Slices whose rms of d exceeds 24 LSB (R186). -/
def spreadSlices (st : Stats) : List Nat := (List.range 32).filter fun j => decide (576 * Tab.get 0 st.dCount j < Tab.get 0 st.dSq j)

/-- The rms of d of a slice in 1/256 LSB, truncated. -/
def sliceRms (st : Stats) (j : Nat) : Nat := Nat.sqrt (Tab.get 0 st.dSq j * 65536 / max 1 (Tab.get 0 st.dCount j))

/-- A slice whose rms of d was too large in two windows running, with every residual in band in both, queues an audit (R186). -/
def State.noteSpread (s : State) (ph : Nat) (st : Stats) (inBand : Bool) : State :=
  let slices := if inBand then spreadSlices st else []
  let again := slices.filter (s.phys ph).spread.contains
  let s1 := s.setPhys ph { s.phys ph with spread := slices }
  match s.indexOf ph, again with
  | some a, j :: _ =>
    (s1.setArray a { s1.array a with forced := true }).event
      { cls := 9, code := 5, op := 0, kind := kArray, index := a, tag := none, epoch := (s1.phys ph).epoch, detail := leBytes 1 j ++ leBytes 2 (satTo 16 (sliceRms st j)) }
  | _, _ => s1

/-- During a freeze, a residual beyond four dead bands is recorded (R183): the first in the order offsets, thresholds, taps. -/
def State.noteFreeze (s : State) (ph : Nat) (rs : List Resid) : State :=
  match s.arrays.freezeUntil, s.indexOf ph, rs.filter (·.far) with
  | some _, some a, r :: rest =>
    let first := rest.foldl (fun b r => if r.trim < b.trim then r else b) r
    s.event { cls := 9, code := 4, op := 0, kind := kArray, index := a, tag := none, epoch := (s.phys ph).epoch, detail := leBytes 1 first.kind ++ leBytes 2 first.index }
  | _, _, _ => s

/-- Whether background calibration may write an array's shadow set: no freeze holds and no host set waits (R177, R182). -/
def State.mayStage (s : State) (ph : Nat) : Bool :=
  s.arrays.freezeUntil.isNone && !(s.phys ph).shadowHost &&
  match s.indexOf ph with | some a => (s.array a).hostSet.isNone | none => true

/-- The windows of a tracking array that have ended, judged. -/
def State.endService (s : State) (ph : Nat) (cols : List Nat) (taps : Bool) : State :=
  let p := s.phys ph
  let rs := cols.flatMap (columnResids s ph) ++ (if taps then tapResids s ph else [])
  let st1 := p.stats.clearColumns cols s.now
  let st2 := if taps then st1.clearTaps else st1
  let p1 := p.judged rs
  let p2 := if s.mayStage ph then p1.stage 1 rs else p1
  let p3 : PhysArray := { p2 with stats := st2 }
  let s1 := ((s.setPhys ph { p3 with topUp := p3.topUp && p3.overdue s.now }).noteFreeze ph rs).checkDue ph
  if cols = [] then s1 else s1.noteSpread ph p.stats p3.outTrims.isEmpty

/-- CAL_SERVICE_WINDOW_END: the column windows and the tap window of a tracking array that have ended (R165). -/
def execCalServiceWindowEnd (phys : Nat) (s : State) : Result :=
  need (decide (phys < Config.physArrays)) .noSuchArray
    (let st := (s.phys phys).stats
    let cols := endedColumns st
    let taps := decide (windowTaps ≤ histTotal st)
    onlyIf (!s.start.safe && decide ((s.phys phys).calState = 3) && (decide (cols ≠ []) || taps)) s (s.endService phys cols taps))

/-- Whether a physical array is in use: no index maps to it, or one that it serves. -/
def State.physInUse (s : State) (phys : Nat) : Bool := match s.indexOf phys with | some a => (s.workOf a).isSome | none => true

/-- WINDOW_TOP_UP: an array with a column whose offset window has not ended 0.25 s after it began is topped up (R170). -/
def execWindowTopUp (phys : Nat) (s : State) : Result :=
  need (decide (phys < Config.physArrays)) .noSuchArray
    (let p := s.phys phys
    onlyIf (decide (p.calState = 3) && s.physInUse phys && p.overdue s.now) s (s.setPhys phys { p with topUp := true }))

/-! ### Commits (R175 to R177, R182) -/

/-- Whether the moment is a batch boundary of an array (R175): no batch is under way, and either the array holds no live vector or the
first of the next batch is offered. -/
def State.batchBoundary (s : State) (ph : Nat) : Bool :=
  match s.indexOf ph with
  | none => true
  | some a => s.batchOver a && ((s.array a).outs.all (·.reported) || s.arrays.dutyWait.any fun w => w.1 = a)

/-- SHADOW_COMMIT: a READY shadow set comes into force at a batch boundary (R175); background sets not during a freeze (R182). -/
def execShadowCommit (phys : Nat) (s : State) : Result :=
  need (decide (phys < Config.physArrays)) .noSuchArray (onlyIf (s.batchBoundary phys) s (s.commitShadow phys))

/-! ### Warm-up and confirmation (R171 to R174, R187, R188) -/

/-- An array that enters TRACKING: a refresh ends, the programming-time set is kept, the array returns (R116, R161, R173, R188). -/
def State.converged (s : State) (ph : Nat) : State :=
  let p := s.phys ph
  let refreshing : Bool := match s.indexOf ph with | some a => (s.array a).refreshing | none => false
  let keep : Bool := refreshing || decide (p.progSet = none ∧ p.programmed ≠ 0)
  let p1 : PhysArray := { p with
    calState := 3, stats := Stats.init, windowStart := s.now, far := [], spread := [],
    programmed := if refreshing then s.now else p.programmed, refreshes := if refreshing then satTo 32 (p.refreshes + 1) else p.refreshes,
    progSet := if keep then some p.coef else p.progSet, progFrom := if keep then (p.restored, p.defaulted) else p.progFrom }
  let s1 := s.setPhys ph p1
  match s.indexOf ph with
  | none => s1
  | some a =>
    let x := s1.array a
    let x1 : ArrayState := if refreshing then { x with
        refreshing := false, dueSuspect := false, dueFault := false
        suspectRefresh := if x.dueSuspect then some s.now else x.suspectRefresh
        faultRefresh := if x.dueFault then some s.now else x.faultRefresh
        forced := x.forced || x.dueFault } else x
    (((s1.setArray a x1).giveBack a).checkDue ph).announceArrays

/-- The worst kind of a window's residuals: 0 offset, 1 threshold, 2 tap (R389). -/
def worstKind (rs : List Resid) : Nat :=
  match rs with
  | [] => 0
  | r :: rest => (rest.foldl (fun b r => if b.size < r.size then r else b) r).kind

/-- An array that has not converged after 256 windows (R172, R384). -/
def State.noConverge (s : State) (ph : Nat) (rs : List Resid) : State :=
  let s1 := s.setPhys ph { s.phys ph with calState := 0 }
  match s.indexOf ph with
  | none => s1
  | some a => (s1.setArray a { s1.array a with service := .out, refreshing := false, retire := some ((s1.array a).retire.getD 3) }).event
      { cls := 1, code := 4, op := 2, kind := kArray, index := a, tag := none, epoch := (s1.phys ph).epoch, detail := leBytes 2 256 ++ leBytes 1 (worstKind rs) }

/-- Internal vectors of a warm-up window (R172). -/
def warmVectors : Nat := 262144

/-- The residuals of a warm-up window: every column and every tap. -/
def warmResids (s : State) (ph : Nat) : List Resid := (List.range 576).flatMap (columnResids s ph) ++ tapResids s ph

/-- WARMUP_WINDOW_END: the fixed schedule of R172. -/
def execWarmupWindowEnd (phys : Nat) (s : State) : Result :=
  need (decide (phys < Config.physArrays)) .noSuchArray
    (let p := s.phys phys
    if s.start.safe = true ∨ p.calState ≠ 1 ∨ p.stats.vectors < warmVectors then s
    else
      let rs := warmResids s phys
      let w := p.windows + 1
      let p1 := ({ p with windows := w, streak := if rs.any (·.out) then 0 else p.streak + 1, stats := Stats.init, windowStart := s.now } : PhysArray).judged rs
      let s1 := s.setPhys phys (p1.stage (if w ≤ 24 then 8 else 1) rs)
      if 90 ≤ w ∧ 4 ≤ p1.streak then s1.converged phys
      else if 256 ≤ w then s1.noConverge phys rs
      else s1)

/-- CONFIRM_WINDOW_END: one-step windows from the set in force; a window out of band leads into warm-up at window 25 (R173). -/
def execConfirmWindowEnd (phys : Nat) (s : State) : Result :=
  need (decide (phys < Config.physArrays)) .noSuchArray
    (let p := s.phys phys
    if s.start.safe = true ∨ p.calState ≠ 2 ∨ p.stats.vectors < warmVectors then s
    else
      let rs := warmResids s phys
      let p1 := ({ p with streak := p.streak + 1, stats := Stats.init, windowStart := s.now } : PhysArray).judged rs
      if rs.any (·.out) then s.setPhys phys ({ p1 with calState := 1, windows := 24, streak := 0 }.stage 1 rs)
      else if p.needed ≤ p1.streak then (s.setPhys phys p1).converged phys
      else s.setPhys phys p1)

/-! ### The freeze (R182) -/

/-- Every READY background set of a tracking array withdrawn. -/
def withdraw (t : Tab PhysArray) : Tab PhysArray :=
  (t.map fun e => (e.1, if e.2.calState = 3 ∧ e.2.shadowHost = false then { e.2 with shadow := none } else e.2)).filter fun e => decide (e.2 ≠ PhysArray.init)

/-- CAL_FREEZE with cal_action 1 (R182). -/
def execCalFreeze (m : Nat) (s : State) : Result := command m opCalFreeze s fun t =>
  onlyIf (decide (field (t.entryOf m) 0x08 1 = 1)) t
    (({ t with arrays := { t.arrays with phys := withdraw t.arrays.phys, freezeUntil := some (t.now + 60000000000) } } : State).okCmd m 0)

/-- CAL_FREEZE with cal_action 0 (R182). -/
def execCalThaw (m : Nat) (s : State) : Result := command m opCalFreeze s fun t =>
  onlyIf (decide (field (t.entryOf m) 0x08 1 = 0)) t (({ t with arrays := { t.arrays with freezeUntil := none } } : State).okCmd m 0)

/-- FREEZE_END: a freeze ends by itself 60 s after the last CAL_FREEZE (R182, R389). -/
def execFreezeEnd (s : State) : Result :=
  .next (match s.arrays.freezeUntil with
    | none => s
    | some t => onlyIf (decide (t ≤ s.now)) s ({ s with arrays := { s.arrays with freezeUntil := none } }.ev 9 3 0 kModule 0 []))

/-! ### Room to take arrays out of service (R190) -/

/-- Addressable arrays out, or on their way out, for refresh, margin runs and host commits. -/
def State.outCount (s : State) : Nat := (s.arrays.addr.filter fun e => e.2.outForService).length

/-- Tambour engines that serve: not retired and not in a margin window (R380, R385). -/
def State.engines (s : State) : Nat := ((List.range 4).filter fun i => decide ((s.island (240 + i)).state = 0)).length

/-- What the tambour has used of its rate over the last 1 ms, in 1/25 ps of engine time; four engines multiply one tile in 16.9 ns (R281). -/
def State.tambourLoad (s : State) : Nat := ((s.data.tambourUse.filter fun e => decide (s.now < e.1 + 1000000)).map (·.2)).sum * 169 * 4 * 100

/-- Whether the tambour has used less than `pct` per cent of its rate over the last 1 ms (R190). -/
def State.tambourBelow (s : State) (pct : Nat) : Bool :=
  decide (s.tambourLoad < pct * s.engines * 10000000)

/-- Whether the tambour has used more than `pct` per cent of its rate over the last 1 ms (R381). -/
def State.tambourAbove (s : State) (pct : Nat) : Bool := decide (pct * s.engines * 10000000 < s.tambourLoad)

/-- Whether a further array may be taken out: the limits hold while the module serves steps (R190). -/
def State.roomOut (s : State) : Bool := decide (s.inFlight = []) || (decide (s.outCount < 128) && s.tambourBelow 80)

/-- Whether a due array may be refreshed at all: its index has a working array, which tracks, and a live tile has its mirror, whole (R187, R191, R377). -/
def State.refreshable (s : State) (a : Nat) : Bool :=
  (match s.workOf a with | some p => decide ((s.phys p).calState = 3) | none => false) && (s.array a).due.isSome && (s.array a).retire.isNone &&
  !(s.array a).refreshing &&
  match s.held a with
  | some h => !s.heldLive h || (decide ((s.motif h.motif).mirrorState = 2) && !(s.motif h.motif).spoilt.contains a)
  | none => true

/-- What waits for room at an index: (priority, since when, index); a host set waits with priority 2 (R190). -/
def State.waitKeys (s : State) : List (Nat × Nat × Nat) :=
  s.arrays.addr.flatMap fun e =>
    (match e.2.hostSet with | some h => if h.2.1 = 3 then [] else [(2, h.2.2, e.1)] | none => []) ++
    (match e.2.due with | some d => if s.refreshable e.1 then [(d.1, d.2, e.1)] else [] | none => [])

/-- The order of R190: priority, then the earlier time, then the lower index. -/
def keyBefore (x y : Nat × Nat × Nat) : Bool :=
  decide (x.1 < y.1 ∨ (x.1 = y.1 ∧ (x.2.1 < y.2.1 ∨ (x.2.1 = y.2.1 ∧ x.2.2 < y.2.2))))

/-- Whether an array's turn for room has come: it is already on its way out, or nothing waits before it. -/
def State.turnOf (s : State) (key : Nat × Nat × Nat) : Bool :=
  (s.array key.2.2).outForService || (s.roomOut && !(s.waitKeys.any fun k => keyBefore k key && !(s.array k.2.2).outForService))

/-- Takes an array out for refresh, margin run or host commit; the flag says whether it has drained. -/
def State.takeOut (s : State) (a : Nat) : State × Bool :=
  let d := s.drain a
  (d.1.setArray a { d.1.array a with outForService := true, service := if d.2 then .out else (d.1.array a).service }, d.2)

/-! ### CAL_COMMIT (R178 to R180) -/

/-- The judgement of a copied load half against the array its index maps to (R178): outcome and set. The format is that of the running firmware (R181). -/
def judgeHalf (s : State) (ph : Nat) (h : Bytes) : Nat × CoefSet :=
  let p := s.phys ph
  if field h 0x08 8 ≠ s.fw.serial ∨ field h 0x10 2 ≠ gridRow ph ∨ field h 0x12 2 ≠ gridCol ph then (3, p.coef)
  else if field h 0x00 2 ≠ s.fw.runningSlot.coefFmt then (2, CoefSet.default)
  else
    let g := field h 0x28 1
    let tile := match p.cells with | some _ => true | none => false
    (1, if tile then rescale g (gainOf s ph) (coefOfHalf h) else coefOfHalf h)

/-- The event records of outcomes 2 and 3 (R178, R389). -/
def State.noteHost (s : State) (a outcome : Nat) (h : Bytes) (epoch : BitVec 32) : State :=
  if outcome = 2 then s.event { cls := 9, code := 1, op := 0, kind := kArray, index := a, tag := none, epoch := epoch, detail := leBytes 2 (field h 0 2) }
  else if outcome = 3 then s.event { cls := 9, code := 2, op := 0, kind := kArray, index := a, tag := none, epoch := epoch,
                                     detail := leBytes 2 (field h 0x10 2) ++ leBytes 2 (field h 0x12 2) }
  else s

/-- One named array at the copy of its load half (R178, R179): in force at once on a FREE or OUT array, else waiting. -/
def State.judgeHost (s : State) (a : Nat) : State :=
  let h := loadHalf s a
  let ph := s.physOf a
  let j := judgeHalf s ph h
  let s1 := (s.setPhys ph { s.phys ph with hostResult := j.1 }).noteHost a j.1 h (s.phys ph).epoch
  let x := s1.array a
  if s1.carriesNone a then s1.hostCommit ph j.1 j.2
  else if j.1 = 3 then
    (s1.setPhys ph { s1.phys ph with shadow := some j.2, shadowHost := true }).setArray a { x with hostSet := some (j.2, 3, s.now) }
  else (s1.setPhys ph { s1.phys ph with shadow := none }).setArray a { x with hostSet := some (j.2, j.1, s.now) }

/-- A waiting host set: an array that has become FREE or OUT takes it at once; one that serves drains when its turn for room has come, and takes the set when it is
OUT (R179, R190). -/
def State.advanceHost (s : State) (a : Nat) : State :=
  match (s.array a).hostSet with
  | some (_, outcome, since) =>
    if s.carriesNone a then s.takeHost a
    else if outcome = 3 ∨ s.turnOf (2, since, a) = false then s
    else
      let d := s.takeOut a
      if d.2 then d.1.takeHost a else d.1
  | none => s

/-- The arrays a CAL_COMMIT names. -/
def namedArrays (e : Bytes) : List Nat := (List.range (field e 0x14 4)).map (· + field e 0x10 4)

/-- CAL_COMMIT (R178 to R180). -/
def execCalCommit (m : Nat) (s : State) : Result := command m opCalCommit s fun t =>
  let names := namedArrays (t.entryOf m)
  let t1 := if begunOn t m then t
    else names.foldl State.judgeHost ((t.setCmd m fun c => { c with begun := true }).setTarget m names.length)
  let t2 := names.foldl State.advanceHost t1
  let done := (names.filter fun a => (t2.array a).hostSet.isNone).length
  let t3 := if (t2.box m).progress = done then t2 else t2.setProgress m done
  if done = names.length then t3.okCmd m 0 else t3

end Sys2Proof.Machine
end

