-- ==== Sys2Proof/Machine/Repair.lean ====
section
/-! DEFINITION. Refresh, margin runs and windows, audits, retirement of islands, degraded service (R188 to R191, R365 to R371, R378 to R386). -/

namespace Sys2Proof.Machine

/-! ### Margin (R378 to R382) -/

/-- The times of the last 30 days (R382). -/
def recent30 (now : Nat) (times : List Nat) : List Nat := times.filter fun t => decide (now < t + days30)

/-- Whether the moment is hot: module power at least 75 % of the budget (R379). -/
def State.hot (s : State) : Bool := decide (3 * s.cfg.budget ≤ 4 * s.thermal.powerW)

/-- The counters of a margin run or window (R394). -/
def State.countMargin (s : State) (r : MarginResult) : State :=
  s.count fun c => { c with marginRuns := sat64 c.marginRuns 1, marginFailures := if r.pass then c.marginFailures else sat64 c.marginFailures 1 }

/-- The detail of a MARGIN record (R389). -/
def marginDetail (r : MarginResult) (hot : Bool) (count : Nat) : Bytes :=
  leBytes 1 (b2n r.byCompare) ++ leBytes 1 (b2n (!r.nominalPass)) ++ leBytes 1 (b2n hot) ++ leBytes 1 (satTo 8 count)

/-- The evaluation cycles and the multiply-accumulates of the 2,048 internal I4B vectors of a margin run (R97, R111, R112, R169, R378). How many of their planes are
retried, which takes 2 cycles more, and which vectors are zero, the run's outcome does not tell: none are counted (DESIGN CHOICE, log 84). -/
def marginCycles : Nat := 2048 * 16
def marginMacs : Nat := 2048 * 1024 * 512

/-- Whether the duty window has room for a margin run's vectors (R112, R169, R378). -/
def State.marginRoom (s : State) : Bool := decide (s.arrays.dutyUsed + marginCycles ≤ dutyLimit s)

/-- A margin run of an array: counters, a hot run noted, and what a failure leads to (R378, R379, R382, R384). -/
def State.marginRun (s : State) (a p : Nat) (r : MarginResult) : State :=
  let ph := s.phys p
  let marks := if r.pass ∨ !r.nominalPass then recent30 s.now ph.marginal else s.now :: recent30 s.now ph.marginal
  let s0 := s.countMargin r
  let s1 : State := { s0.setPhys p { ph with marginal := marks, lastHot := if s.hot then some s.now else ph.lastHot, vectors := ph.vectors + 2048 } with
    arrays := { (s0.setPhys p { ph with marginal := marks, lastHot := if s.hot then some s.now else ph.lastHot, vectors := ph.vectors + 2048 }).arrays with
      dutyUsed := s.arrays.dutyUsed + marginCycles, macs := s.arrays.macs + marginMacs } }
  if r.pass then s1
  else
    let why : Option Nat := if !r.nominalPass then some 7 else if 3 ≤ marks.length then some 5 else none
    let s2 := s1.setArray a { s1.array a with retire := (s1.array a).retire <|> why }
    s2.event { cls := 13, code := 1, op := 4, kind := kArray, index := a, tag := none, epoch := ph.epoch, detail := marginDetail r s.hot marks.length }

/-- Whether an addressable array has had no hot margin run for 30 days (R379, R395). -/
def State.hotDue (s : State) (a : Nat) : Bool :=
  match s.workOf a with
  | some p => decide ((match (s.phys p).lastHot with | some t => t | none => 0) + days30 ≤ s.now)
  | none => false

/-- Whether an array may have a standalone margin run now: in service or FREE, tracking, and due. -/
def State.runDue (s : State) (a : Nat) : Bool :=
  s.hotDue a && decide ((s.array a).service ≠ .out) && (s.array a).retire.isNone && match s.workOf a with | some p => decide ((s.phys p).calState = 3) | none => false

/-- STANDALONE_MARGIN_RUN: lowest index first, at a hot moment, within the room of R190 (R379). -/
def execStandaloneMarginRun (array : Nat) (margin : MarginResult) (s : State) : Result :=
  need (decide (array < Config.arrays)) .noSuchArray
    (if s.start.safe || !s.marginRoom || !s.hot || !s.runDue array || !((s.array array).outForService || (s.roomOut && (List.range array).all fun b => !s.runDue b)) then s
    else match s.workOf array with
      | none => s
      | some p =>
        let d := s.takeOut array
        if d.2 then ((d.1.marginRun array p margin).takeHost array).giveBack array else d.1)

/-- Whether a takeover or hand-back that this module takes part in is in progress (R381). -/
def State.takeoverRuns (s : State) : Bool :=
  s.take.mailbox.isSome || s.take.backBox.isSome || decide (s.take.progress = 1) ||
  decide (s.take.spareServes = some s.machineId ∧ s.take.progress < 2)

/-- Whether a margin window may not open (R381). -/
def State.windowBarred (s : State) (island : Nat) : Bool :=
  decide (0 < s.level) || s.takeoverRuns || ((islandKind island).1 = kTambour && s.tambourAbove 60)

/-- The island of the next scheduled window: the first from `next` on that is not retired (R380). -/
def State.nextIsland (s : State) : Option Nat :=
  ((List.range 252).map fun k => (s.islands.next + k) % 252).find? fun i => decide ((s.island i).state ≠ 2)

/-- The island whose window opens now: a forced one at once, one that could not open after 10 s, else the scheduled one when it is due (R380, R381, R398). -/
def State.windowNow (s : State) : Option Nat :=
  match (List.range 252).find? fun i => (s.island i).forced && decide ((s.island i).state = 0 ∧ s.islands.retry ≤ s.now) with
  | some i => some i
  | none => if s.islands.due ≤ s.now then s.nextIsland else none

/-- The live work of an attention pipeline goes to its peers: its work unit is to be started anew by another one (R380, R385). -/
def State.handOver (s : State) (island : Nat) : State :=
  if 192 ≤ island then { s with attn := { s.attn with pipes := s.attn.pipes.filter fun e => e.1 + 192 ≠ island } } else s

/-- MARGIN_WINDOW: one opens, or is tried again after 10 s (R380, R381). -/
def execMarginWindow (island : Nat) (s : State) : Result :=
  need (decide (island < 252)) .noSuchIsland
    (if !s.bobbinRuns || s.start.safe || decide (s.windowNow ≠ some island) || (List.range 252).any (fun i => decide ((s.island i).state = 1)) then s
    else
      let later : State := { s with islands := { s.islands with due := s.now + 10000000000 } }
      if s.windowBarred island then
        { s with islands := { s.islands with retry := if (s.island island).forced then s.now + 10000000000 else s.islands.retry
                                             due := if s.islands.due ≤ s.now then s.now + 10000000000 else s.islands.due } }
      else
        let scheduled := !(s.island island).forced
        (({ later with islands := { later.islands with
            opened := s.now, next := if scheduled then (island + 1) % 252 else s.islands.next } } : State).setIsland island
          { s.island island with state := 1, forced := false }).handOver island)

/-- MARGIN_WINDOW_END: 10 ms later the comparison is judged and the island serves again (R380, R382, R385). -/
def execMarginWindowEnd (island : Nat) (result : MarginResult) (s : State) : Result :=
  need (decide (island < 252)) .noSuchIsland
    (let i := s.island island
    if i.state ≠ 1 ∨ s.now < s.islands.opened + 10000000 then s
    else
      let marks := if result.pass ∨ !result.nominalPass then recent30 s.now i.marginal else s.now :: recent30 s.now i.marginal
      let why : Option Nat := if result.pass then none else if !result.nominalPass then some 2 else if 3 ≤ marks.length then some 3 else none
      let s1 := (s.countMargin result).setIsland island { i with state := 0, marginal := marks, retire := i.retire <|> why }
      if result.pass then s1
      else s1.ev 13 2 4 (islandKind island).1 (islandKind island).2 (marginDetail result false marks.length))

/-! ### Refresh (R188 to R191) -/

/-- Whether a cell read is drifted: beyond 0.25 of a step in a W4 or picot pair, beyond 0.5 in a W3 pair (R189). -/
def cellDrifted (w3 : Bool) (c : CellReading) : Bool :=
  decide ((if w3 && decide (c.column < 512) then 8 else 4) < c.error16.natAbs)

/-- Whether a cell would read as a wrong weight: a W4 pair beyond 0.5 of a step (R189). -/
def cellWrong (w3 : Bool) (c : CellReading) : Bool := !w3 && decide (c.column < 512 ∧ 8 < c.error16.natAbs)

/-- The CELL_WRONG records of a refresh (R189, R389). -/
def State.noteWrong (s : State) (a : Nat) (epoch : BitVec 32) (cells : List CellReading) : State :=
  cells.foldl (fun u c => u.event
    { cls := 1, code := 3, op := 5, kind := kArray, index := a, tag := none, epoch := epoch, detail := leBytes 2 c.row ++ leBytes 2 c.column ++ leBytes 1 (unsigned 8 c.error16) }) s

/-- The rows that hold a drifted cell (R188, R189). -/
def driftedRows (w3 : Bool) (cells : List CellReading) : List Nat := ((cells.filter (cellDrifted w3)).map fun (c : CellReading) => c.row).dedup

/-- Steps 2 and 3 of R188: the cells are read, and the rows with drifted cells erased and written anew with write-verify: what stays of the deviations are those
of the other rows. Wrong cells are recorded and may retire the array (R384 reason 4). A FREE array is left holding its pattern; one that still held a
released tile is written whole and not judged by it (DEDUCED, log 35). -/
def State.verifyCells (s : State) (a p : Nat) (readings : List CellReading) : State :=
  let ph := s.phys p
  let live := match ph.cells with | some h => s.heldLive h | none => false
  let judged := live || ph.cells.isNone
  let w3 := match ph.cells with | some h => h.w3 | none => false
  let wrong := if judged then readings.filter (cellWrong w3) else []
  let left := if judged then readings.filter (fun (c : CellReading) => !(driftedRows w3 readings).contains c.row) else []
  let s1 := s.setPhys p { ph with cells := if live then ph.cells else none, cellWrong := decide (wrong ≠ []), levels := left }
  let why : Option Nat := if 4 ≤ wrong.length ∨ (wrong ≠ [] ∧ ph.cellWrong) then some 4 else none
  (s1.setArray a { s1.array a with retire := (s1.array a).retire <|> why }).noteWrong a ph.epoch wrong

/-- Step 4 of R188: the programming-time set, or the set in force, comes into force, or a waiting host set in its place (R179); then
confirmation begins. RESTORED and DEFAULTED say what the set descends from (R158). On a FREE array that has taken its pattern for a released tile, the
offsets are rescaled to the pattern's gain tap (DESIGN CHOICE, log 67). -/
def State.reseed (s : State) (a p : Nat) : State :=
  let ph := s.phys p
  match (s.array a).hostSet with
  | some (c, outcome, _) =>
    let s1 := s.hostCommit p outcome c
    (s1.setPhys p (if outcome = 3 then (s1.phys p).confirm 2 s.now else s1.phys p)).setArray a { s1.array a with hostSet := none }
  | none =>
    let g := gainOf s p
    let from_ := if ph.progSet.isSome then ph.progFrom else (ph.restored, ph.defaulted)
    s.setPhys p (({ ph.commit (rescale ph.gainTap g (ph.progSet.getD ph.coef)) g s.now with restored := from_.1, defaulted := from_.2 } : PhysArray).confirm 2 s.now)

/-- The refresh of a drained array (R188). -/
def State.refreshArray (s : State) (a p : Nat) (readings : List CellReading) (margin : MarginResult) : State :=
  let s1 := ((s.verifyCells a p readings).marginRun a p margin).reseed a p
  s1.setArray a { s1.array a with due := none, refreshing := true, service := .out }

/-- REFRESH: the due array whose turn it is drains, and is refreshed when it has drained (R187 to R191). -/
def execRefresh (array : Nat) (readings : List CellReading) (margin : MarginResult) (s : State) : Result :=
  need (decide (array < Config.arrays)) .noSuchArray
    (match (s.array array).due, s.workOf array with
    | some d, some p =>
      if s.start.safe || !s.marginRoom || !s.refreshable array || !s.turnOf (d.1, d.2, array) then s
      else
        let o := s.takeOut array
        if o.2 then o.1.refreshArray array p readings margin else o.1
    | _, _ => s)

/-! ### Retirement (R384 to R386) -/

/-- ARRAY_RETIRE: an array that meets a condition drains and is retired (R115, R117, R118, R384). -/
def execArrayRetire (array reason : Nat) (s : State) : Result :=
  need (decide (array < Config.arrays)) .noSuchArray
    (if (s.array array).retire ≠ some reason then s
    else
      let d := s.drain array
      if d.2 then d.1.retireArray array reason else d.1)

/-- Islands of a kind that are not retired. -/
def State.islandsLeft (s : State) (kind : Nat) : Nat :=
  ((List.range (kindIslands kind).2).filter fun i => decide ((s.island ((kindIslands kind).1 + i)).state ≠ 2)).length

/-- ISLAND_RETIRE: an island that meets a condition is retired for good (R385, R389). -/
def execIslandRetire (island reason : Nat) (s : State) : Result :=
  need (decide (island < 252)) .noSuchIsland
    (if (s.island island).retire ≠ some reason ∨ (s.island island).state = 2 then s
    else
      let s1 := (s.setIsland island { s.island island with state := 2, retire := none, forced := false }).handOver island
      s1.ev 15 2 0 (islandKind island).1 (islandKind island).2 (leBytes 1 reason ++ leBytes 1 (s1.islandsLeft (islandKind island).1)))

/-- Whether the service of a kind of unit is degraded, and how many are left; kind 1 stands for the addressable arrays (R386). -/
def State.degradedLeft (s : State) (kind : Nat) : Bool × Nat :=
  if kind = kArray then
    let out := (s.arrays.addr.filter fun e => e.2.onTambour).length
    (decide (1024 < out), Config.arrays - out)
  else (decide ((kindIslands kind).2 ≠ 0 ∧ s.islandsLeft kind < kindMinimum kind), s.islandsLeft kind)

/-- DEGRADED: too few units left; a takeover with reason 2 starts where the group has a free spare (R386, R389). -/
def execDegraded (kind : Nat) (s : State) : Result :=
  .next (let x := s.degradedLeft kind
    if !x.1 || s.islands.degraded.contains kind then s
    else
      let start := s.spareReady && decide (s.role = 0) && s.take.vacatedTo.isNone && s.take.mailbox.isNone
      let s1 := ({ s with islands := { s.islands with degraded := kind :: s.islands.degraded } } : State).ev 15 3 0 kModule 0
        (leBytes 1 kind ++ leBytes 2 x.2 ++ leBytes 1 (b2n start))
      if start then s1.beginTakeover none else s1)

/-! ### Array audits (R365 to R371) -/

/-- What an audit finds of one array: sums over its outputs of e² (times G²), how many columns, the largest e² with its column, and Σw². -/
structure ArrayFinding where
  array : Nat
  total : Nat
  count : Nat
  worst : Nat
  column : Nat
  weight : Nat
  /-- Calibration epoch of the array when its vectors were latched (R167). -/
  epoch : BitVec 32
  deriving DecidableEq, Repr

/-- G times e of a weight column: G·C - (2P + S) (R366). -/
def columnError (g : Nat) (tile : Tile) (exact : Tab Int) (o : ArrayOut) (j : Nat) : Int :=
  (g : Int) * Tab.get 0 o.sums j - (Tab.get 0 exact j + Tab.get 0 tile.colSums j)

/-- A finding with one output of its array added; a zero vector has none, and clamped columns are left out (R366). -/
def ArrayFinding.add (f : ArrayFinding) (w3 : Bool) (g : Nat) (tile : Tile) (o : ArrayOut) : ArrayFinding :=
  if o.zero then f
  else
    let exact := tileProduct w3 tile o.vec.elems
    ((List.range 512).filter fun j => !o.clampedCols.contains j).foldl (fun f j =>
      let e := (columnError g tile exact o j).natAbs
      { f with total := f.total + e * e, count := f.count + 1, weight := planeSquares o.vec.bits, epoch := o.epoch,
               worst := max f.worst (e * e), column := if f.worst < e * e then j else f.column }) f

/-- The analog rms a in 1/256 LSB, truncated: √max(0, mean(e²)/Σw² - 1/12) (R366). -/
def ArrayFinding.rms (f : ArrayFinding) (g : Nat) : Nat :=
  let d := f.count * g * g * f.weight
  Nat.sqrt (65536 * (12 * f.total - d) / (12 * d))

/-- Whether a exceeds 1.0 LSB (R367). -/
def ArrayFinding.disagrees (f : ArrayFinding) (g : Nat) : Bool := decide (13 * (f.count * g * g * f.weight) < 12 * f.total)

/-- Whether a exceeds 2.75 LSB, or a column's error 24 LSB times the root of Σw² (R367). -/
def ArrayFinding.faulty (f : ArrayFinding) (g : Nat) : Bool :=
  let d := f.count * g * g * f.weight
  decide (d + 363 * d / 4 < 12 * f.total) || decide (576 * (g * g * f.weight) < f.worst)

/-- The worst |e|/√Σw² in 1/16 LSB, truncated. -/
def ArrayFinding.worstLsb (f : ArrayFinding) (g : Nat) : Nat := Nat.sqrt (256 * f.worst / (g * g * f.weight))

/-- The findings of an audit's arrays, in chain order (R366 item 1). -/
def auditArrays (r : LayerRec) (tiles : List Tile) (sel : AuditSel) : List ArrayFinding :=
  tiles.filterMap fun t =>
    let f := (sel.outs.filter fun o => o.1 = t.position).foldl (fun (f : ArrayFinding) o => f.add r.w3 r.gainTap t o.2.2)
      { array := t.array, total := 0, count := 0, worst := 0, column := 0, weight := 0, epoch := 0 }
    if f.count = 0 then none else some f

/-- The first column in which two tables of sums differ, with the difference. -/
def firstDiff (a b : Tab Int) : Option (Nat × Int) :=
  ((List.range 512).find? fun j => decide (Tab.get 0 a j ≠ Tab.get 0 b j)).map fun j => (j, Tab.get 0 a j - Tab.get 0 b j)

/-- The first column in which a node's sum is not that of what it added, with the difference; a column that R132 clamped is passed over (R366 item 2). -/
def nodeDiff (base own sums : Tab Int) : Option (Nat × Int) :=
  let exact := fun j => Tab.get 0 base j + Tab.get 0 own j
  ((List.range 512).find? fun j => decide (sat18 (exact j) = exact j ∧ Tab.get 0 sums j ≠ exact j)).map fun j => (j, Tab.get 0 sums j - exact j)

/-- Nodes whose narrow sum is not that of what they added: (position, column, difference) (R366 item 2). -/
def auditNodes (sel : AuditSel) : List (Nat × Nat × Int) :=
  sel.parts.filterMap fun c =>
    let before := sel.parts.find? fun b => decide (b.key = c.key ∧ b.position + 1 = c.position)
    let base := match before with | some b => b.sums | none => []
    let own := sel.outs.find? fun o => decide (o.1 = c.position ∧ o.2.2.vec.row = c.key.row)
    (nodeDiff base (match own with | some o => o.2.2.sums | none => []) c.sums).map fun d => (c.position, d.1, d.2)

/-- The exact contribution of the tile that a tambour contribution stands for (R134, R366). -/
def tambourExact (r : LayerRec) (tiles : List Tile) (x : TambourOut) : Tab Int :=
  match tiles.find? fun t => t.position = x.position with
  | some t => if zeroVector x.vec then [] else tileProduct r.w3 t x.vec.elems
  | none => []

/-- Rows whose promoted contributions, those of the tambour among them, differ from G·n - ΣS of the chain's last partial with the exact contributions of the
tiles the tambour served (R366 item 3). -/
def auditEnd (r : LayerRec) (tiles : List Tile) (sel : AuditSel) : List (Nat × Int) :=
  sel.wides.filterMap fun w =>
    match sel.parts.find? fun c => decide (c.key.row = w.1 ∧ c.position + 1 = tiles.length) with
    | some c =>
      let mine := sel.tambour.filter fun x => x.key.row = w.1
      firstDiff (mine.foldl (fun t x => addTab t x.sums) w.2)
        (mine.foldl (fun t x => addTab t (tambourExact r tiles x)) (chainContribution r.gainTap c tiles))
    | none => none

/-- Whether a step's COMMIT has been received here: the step has ended or is no longer kept (R370). -/
def State.stepCommitted (s : State) (t : StepTag) : Bool := match s.stepOf t with | some r => r.ended | none => true

/-- The flags byte of an audit record: COMMITTED and FAULT. -/
def auditFlags (committed fault : Bool) : Bytes := leBytes 1 (b2n committed + 2 * b2n fault)

/-- An array that an audit finds in disagreement is due with priority 1; a fault counts toward its retirement (R367, R384). -/
def State.auditVerdict (s : State) (a : Nat) (fault : Bool) : State :=
  let x := markDue (s.array a) 1 s.now
  if !fault then s.setArray a x
  else
    let late := match x.faultRefresh with | some t => decide (s.now ≤ t + 86400000000000) | none => false
    s.setArray a { x with auditFaults := satTo 16 (x.auditFaults + 1), dueFault := true, retire := if late then x.retire <|> some 1 else x.retire }

/-- One array's finding: audit_rms, record, and what it leads to (R366, R367, R389). -/
def State.judgeFinding (s : State) (g : Nat) (t : StepTag) (f : ArrayFinding) : State :=
  let a := f.rms g
  let p := s.physOf f.array
  let s1 := s.setPhys p { s.phys p with auditRms := satTo 16 a }
  if f.disagrees g || f.faulty g then
    (s1.event { cls := 2, code := 1, op := 3, kind := kArray, index := f.array, tag := some t, epoch := f.epoch,
                detail := leBytes 2 (satTo 16 a) ++ leBytes 2 f.column ++ leBytes 2 (satTo 16 (f.worstLsb g)) ++ auditFlags (s.stepCommitted t) (f.faulty g) }).auditVerdict
      f.array (f.faulty g)
  else s1

/-- A fault of an audited step: found before its commit it is recalled with cause 2 and counted as raised, unless a recall has superseded what was audited, and
its array joins the flagged ones; after the commit it is only counted (R370, R371, R394). -/
def State.auditFault (s : State) (t : StepTag) (array kind index : Nat) : State :=
  if s.stepCommitted t then s.count fun c => { c with faultsAfter := sat64 c.faultsAfter 1 }
  else
    let s1 := if array = 0xFFFF then s else s.setStep t fun r => { r with flagged := (t.layer, array) :: r.flagged }
    match s1.stepOf t with
    | some r =>
      if t.lineage.toNat < (floorAt r t.layer).toNat then s1
      else (s1.count fun c => { c with faultsBefore := sat64 c.faultsBefore 1 }).raiseRecall t 2 t.layer array kind index
    | none => s1

/-- The calibration epoch at which the array of a chain position latched the audited step's vector; the array's own where it latched none (R167). -/
def State.nodeEpoch (s : State) (sel : AuditSel) (position array : Nat) : BitVec 32 :=
  match sel.outs.find? fun o => o.1 = position with | some o => o.2.2.epoch | none => (s.phys (s.physOf array)).epoch

/-- An unequal node: record and verdict on the node's array (R167, R367, R389). -/
def State.judgeNode (s : State) (t : StepTag) (array : Nat) (epoch : BitVec 32) (d : Nat × Nat × Int) : State :=
  (s.event { cls := 2, code := 2, op := 3, kind := kArray, index := array, tag := some t, epoch := epoch,
             detail := leBytes 1 d.1 ++ auditFlags (s.stepCommitted t) true ++ leBytes 2 d.2.1 ++ leBytes 4 (unsigned 32 d.2.2) }).auditVerdict array true

/-- An unequal chain end: record, and a margin window at once for the vector unit that stood there (R367, R389). -/
def State.judgeEnd (s : State) (t : StepTag) (length unit : Nat) (d : Nat × Int) : State :=
  (s.setIsland unit { s.island unit with forced := decide ((s.island unit).state ≠ 2) }).event
    { cls := 2, code := 3, op := 3, kind := kVector, index := unit, tag := some t, epoch := 0,
      detail := leBytes 1 (length - 1) ++ auditFlags (s.stepCommitted t) true ++ leBytes 2 d.1 ++ leBytes 4 (unsigned 32 d.2) }

/-- The array at a position of the audited chain. -/
def arrayAt (tiles : List Tile) (position : Nat) : Nat := match tiles.find? fun x => x.position = position with | some t => t.array | none => noArray

/-- What an audit found of one array: its findings, its nodes, and the fault they make (R366, R367, R370). -/
def State.auditArray (s : State) (g : Nat) (sel : AuditSel) (fs : List ArrayFinding) (nodes : List (Nat × Nat × Int)) (a : Nat) : State :=
  let t := sel.key.tag
  let s1 := fs.foldl (fun u f => u.judgeFinding g t f) s
  let s2 := nodes.foldl (fun u d => u.judgeNode t a (u.nodeEpoch sel d.1 a) d) s1
  if (fs.any (·.faulty g)) || decide (nodes ≠ []) then s2.auditFault t a kArray a else s2

/-- What an audit's findings lead to: unit by unit, the arrays first, lowest index first (R398). -/
def State.auditJudge (s : State) (r : LayerRec) (tiles : List Tile) (sel : AuditSel) : State :=
  let fs := auditArrays r tiles sel
  let nodes := auditNodes sel
  let ends := auditEnd r tiles sel
  let arrays := ((fs.map (·.array)) ++ nodes.map fun d => arrayAt tiles d.1).dedup.mergeSort fun a b => decide (a ≤ b)
  let s1 := arrays.foldl (fun u a =>
    u.auditArray r.gainTap sel (fs.filter fun f => f.array = a) (nodes.filter fun d => arrayAt tiles d.1 = a) a) s
  match ends, sel.unit with
  | [], _ | _, none => s1
  | ds, some unit => (ds.foldl (fun u d => u.judgeEnd sel.key.tag tiles.length unit d) s1).auditFault sel.key.tag 0xFFFF kVector unit

/-- Whether an audit buffer holds the chain's end for every row the audit covers, the tambour's contributions to it among them. -/
def State.auditReady (s : State) (sel : AuditSel) : Bool :=
  (sel.parts.all fun c => (tambourPositions c).all fun i => sel.tambour.any fun x => decide (x.key = c.key ∧ x.position = i)) &&
  match s.stepOf sel.key.tag with
  | some r => decide ((match sel.rows with | some l => l.length | none => r.width) ≤ sel.wides.length)
  | none => decide (sel.wides ≠ [])

/-- Whether an audit that came earlier waits for the tambour (R281). -/
def State.auditBefore (s : State) (sel : AuditSel) : Bool :=
  s.data.audits.any fun a => decide (a.key ≠ sel.key ∧ a.at_ < sel.at_ ∧ s.now ≤ a.at_ + 1000000) && s.auditReady a

/-- Takes an audit off the list of those waiting. -/
def State.dropAudit (s : State) (key : ChainKey) : State := { s with data := { s.data with audits := s.data.audits.filter fun a => a.key ≠ key } }

/-- ARRAY_AUDIT: with no tile waiting that comes before an audit, and no audit that came before this one, the tambour recomputes the selected chain from the mirror, and
the audit is judged (R281, R366 to R371). -/
def execArrayAudit (key : ChainKey) (s : State) : Result :=
  .next (match s.data.audits.find? fun a => a.key = key, s.layerT key.tag with
  | some sel, some r =>
    if !s.data.tambourWait.isEmpty || !s.auditReady sel || decide (sel.at_ + 1000000 < s.now) || s.auditBefore sel then s
    else
      let tiles := (s.blockTiles key).filter fun x => x.chain = key.chain
      let s1 := ((s.dropAudit key).useTambour (tiles.length * sel.wides.length)).count fun c => { c with audits := sat64 c.audits 1 }
      s1.auditJudge r tiles sel
  | _, _ => s)

/-- AUDIT_DROPPED: an audit not started 1 ms after its chain's last output (R369). -/
def execAuditDropped (key : ChainKey) (s : State) : Result :=
  .next (match s.data.audits.find? fun a => a.key = key with
  | some sel => onlyIf (decide (sel.at_ + 1000000 ≤ s.now)) s ((s.dropAudit key).count fun c => { c with auditsDropped := sat64 c.auditsDropped 1 })
  | none => s)

/-! ### Duplicate audits (R368) -/

/-- The next serving unit of an island's kind after it, counting cyclically, `skip` such units passed over. -/
def State.peersOf (s : State) (island : Nat) : List Nat :=
  let k := kindIslands (islandKind island).1
  ((List.range (k.2 - 1)).map fun i => k.1 + (island - k.1 + 1 + i) % k.2).filter fun i => decide ((s.island i).state = 0)

/-- Who is outvoted: 0 this unit, 1 the peer, 2 the third, 3 all (R368, R389). -/
def outvoted (r0 r1 r2 : Bytes) : Nat :=
  if r1 = r2 then 0 else if r0 = r2 then 1 else if r0 = r1 then 2 else 3

/-- A unit outvoted: a margin window at once, and retirement on a second outvote within 24 h (R367, R381, R385). -/
def State.outvote (s : State) (island : Nat) : State :=
  let i := s.island island
  let again := match i.lastOutvote with | some t => decide (s.now ≤ t + 86400000000000) | none => false
  s.setIsland island { i with outvotes := satTo 16 (i.outvotes + 1), lastOutvote := some s.now, forced := decide (i.state ≠ 2), retire := if again then i.retire <|> some 1 else i.retire }

/-- Whether an audit waits for a unit's work in a step's layer (R365, R368). -/
def UnitAudit.names (a : UnitAudit) (tag : StepTag) (island : Nat) : Bool :=
  decide (a.island = island ∧ { a.tag with layer := tag.layer } = tag) && a.layers.contains tag.layer

/-- Whether a unit has live work before a duplicate audit's: a pipeline at a work unit (R369). -/
def State.unitBusy (s : State) (island : Nat) : Bool := decide (192 ≤ island) && s.attn.pipes.any fun e => decide (e.1 + 192 = island)

/-- A difference between a unit's work and its peer's: the units outvoted, the record, and the recall of a step that is not committed. With no third unit serving
nobody is outvoted; what the record then says of the third the spec does not give: index 0xFFFF and a free value (R368, R370, R371; log 36). -/
def State.dupFault (s : State) (tag : StepTag) (island peer : Nat) (third : Option Nat) (r0 r1 r2 : Bytes) : State :=
  let v := if third.isSome then outvoted r0 r1 r2 else s.draw.1 % 4
  let s0 := if third.isSome then s else s.draw.2
  let k := islandKind island
  let committed := s.stepCommitted tag
  let s1 := (s0.count fun c => { c with dupFaults := sat64 c.dupFaults (b2n third.isSome) }).event
    { cls := 2, code := 4, op := 3, kind := k.1, index := k.2, tag := some tag, epoch := 0,
      detail := leBytes 2 (islandKind peer).2 ++ leBytes 2 (match third with | some i => (islandKind i).2 | none => 0xFFFF) ++ leBytes 1 v ++ auditFlags committed true }
  let s2 := match third with
    | some i => (if v = 3 then [island, peer, i] else [([island, peer, i]).getD v island]).foldl State.outvote s1
    | none => s1
  if committed then s2
  else match s2.stepOf tag with
    | some r => if tag.lineage.toNat < (floorAt r tag.layer).toNat then s2 else s2.raiseRecall tag 2 tag.layer 0xFFFF k.1 k.2
    | none => s2

/-- DUPLICATE_AUDIT: the work of a unit selected is run again by its peer after the peer's own, and compared bit for bit; on a difference a third unit votes (R365,
R368, R369, R370, R371). -/
def execDuplicateAudit (tag : StepTag) (island : Nat) (r0 r1 r2 : Bytes) (s : State) : Result :=
  need (decide (island < 240)) .noSuchIsland
    (match s.data.unitAudits.any fun a => a.names tag island, s.peersOf island with
    | true, peer :: rest =>
      if s.unitBusy peer then s
      else
        let s1 := ({ s with data := { s.data with unitAudits := s.data.unitAudits.filter fun a => !a.names tag island } } : State).count
          fun c => { c with dupAudits := sat64 c.dupAudits 1 }
        if r0 = r1 then s1 else s1.dupFault tag island peer rest.head? r0 r1 r2
    | _, _ => s)

end Sys2Proof.Machine
end

