-- ==== Sys2Proof/Machine/MemoryCare.lean ====
section
/-! DEFINITION. Memory protection: uncorrectable and corrected words, the scrub, retired regions, rebuilt blocks (R373 to R377). -/

namespace Sys2Proof.Machine

/-- Regions of 4 KiB in a stack of 128 GiB (R1, R376). -/
def stackRegions : Nat := 33554432

/-- The region of its stack in which a memory window offset lies: frames interleave over the stacks in 256-byte units (R376; DEDUCED, log 37). -/
def regionOf (a : Nat) : Nat := (a / 2048 * 256 + a % 256) / 4096

/-- The memory window offset at which a region of a stack begins. -/
def regionAddr (stack region : Nat) : Nat := region * 32768 + stack * 256

/-- Notes a flagged word; a block flagged anew is one no source has been tried for (R374, R376, R377). -/
def flagWord (m : Memory) (kind index addr : Nat) (tag : Option StepTag) : Memory :=
  if kind = kStack then
    (if m.flagged.contains (addr / 64) then m
    else { m with flagged := insertAsc (addr / 64) m.flagged, settled := m.settled.filter (· ≠ addr / 64), tried := m.tried.filter fun e => e.1 ≠ addr / 64 })
  else { m with flaggedStaging := if m.flaggedStaging.any (fun e => decide (e.1 = index ∧ e.2.1 = addr)) then m.flaggedStaging else (index, addr, tag) :: m.flaggedStaging }

/-- The flagged blocks of a region. -/
def flaggedOf (m : Memory) (stack region : Nat) : List Nat :=
  m.flagged.filter fun b => decide (stackOf (64 * b) = stack ∧ regionOf (64 * b) = region)

/-- The pages of a step's layer whose home frame here holds an address, where they have a shadow to serve them (R256). -/
def State.damagedPages (s : State) (t : StepTag) (addr : Nat) : List (Nat × Nat) :=
  match s.prickT t, s.layerT t, s.latchOf t with
  | some p, some r, some l =>
    if r.k < 2 then [] else (l.home.filter fun e => decide (e.2 ≤ addr ∧ addr < e.2 + frameSize p)).map fun e => (t.layer, e.1)
  | _, _, _ => []

/-- UNCORRECTABLE: the word as read is decoded; one that cannot be corrected is flagged, recorded, and recalled when a step read it; a
corrected one is counted and written back (R373, R374). The replay leaves a page with a damaged home frame to its shadow (R256). -/
def execUncorrectable (kind index addr : Nat) (word : CodeWord) (reader : Nat) (tag : Option StepTag) (s : State) : Result :=
  need (decide ((kind = kStack ∧ index < 8 ∧ addr < Config.memorySize) ∨ (kind = kBank ∧ index < 64))) .noSuchStore
    (if addr % 64 ≠ 0 ∨ (kind = kStack ∧ stackOf addr ≠ index) ∨ word.symbols.length ≠ 68 ∨ 3 < reader then s
    else match eccRead addr word.symbols word.crc with
      | some (_, 0) => s
      | some (data, _) =>
        if kind = kStack then ({ s with mem := if s.mem.flagged.contains (addr / 64) then s.mem else memWrite s.mem addr data } : State).count
          fun c => { c with memCorrected := sat64 c.memCorrected 1 }
        else s.count fun c => { c with stagingCorrected := sat64 c.stagingCorrected 1 }
      | none =>
        let s1 := ({ s with mem := flagWord s.mem kind index addr tag } : State).count fun c =>
          if kind = kStack then { c with memUncorrectable := sat64 c.memUncorrectable 1 } else { c with stagingUncorrectable := sat64 c.stagingUncorrectable 1 }
        let s2 := s1.evWord kind index addr reader tag
        match reader, tag with
        | 0, some t =>
          let pages := if kind = kStack then s2.damagedPages t addr else []
          (s2.setStep t fun r => { r with avoid := pages ++ r.avoid }).raiseRecall t 3 t.layer 0xFFFF kind index
        | _, _ => s2)

/-- Regions with corrected words in this pass and in an earlier one since they were last remapped, not yet remapped for it (R376). -/
def wornBy (m : Memory) (corrected : List (Nat × Nat)) : List (Nat × Nat) :=
  (m.worn ++ corrected.filter fun r => m.seenCorrected.contains r).dedup

/-- Six hours in nanoseconds. -/
def hours6 : Nat := 6 * 3600 * 1000000000

/-- SCRUB_PASS: a whole pass of 6 h has ended; its corrected words are counted, and regions worn twice are to be retired (R375, R376). -/
def execScrubPass (corrected : List (Nat × Nat)) (s : State) : Result :=
  need (corrected.all fun r => decide (r.1 < 72)) .noSuchStore
    (if s.now < s.mem.scrubbed + hours6 then s else
    let inStacks := corrected.filter fun r => decide (r.1 < 8)
    let s1 := s.count fun c => { c with
      scrubPasses := sat64 c.scrubPasses 1, memCorrected := sat64 c.memCorrected inStacks.length,
      stagingCorrected := sat64 c.stagingCorrected (corrected.length - inStacks.length) }
    { s1 with mem := { s1.mem with scrubbed := s.now, worn := wornBy s1.mem inStacks, seenCorrected := (s1.mem.seenCorrected ++ inStacks).dedup } })

/-- Reserve regions of a stack not yet used (R376). -/
def reserveLeft (m : Memory) (stack : Nat) : Nat := Config.reserveRegions - (m.retired.filter fun r => r.1 = stack).length

/-- The flagged blocks of a region for which it is to be retired: those found there since it was last remapped (R376). -/
def badOf (m : Memory) (stack region : Nat) : List Nat := (flaggedOf m stack region).filter fun b => !m.settled.contains b

/-- REGION_RETIRED: a region with an uncorrectable word or worn is remapped at the same address, its uncorrectable words copied flagged; with no reserve left they
stay flagged and are recorded (R376, R389). -/
def execRegionRetired (stack region : Nat) (s : State) : Result :=
  need (decide (stack < 8 ∧ region < stackRegions)) .noSuchStore
    (let bad := badOf s.mem stack region
    if bad = [] ∧ (stack, region) ∉ s.mem.worn then s
    else if reserveLeft s.mem stack = 0 then
      bad.foldl (fun u b => u.evWord kStack stack (64 * b) 2 none) { s with mem := { s.mem with settled := bad ++ s.mem.settled } }
    else
      let m1 : Memory := { s.mem with settled := bad ++ s.mem.settled, retired := (stack, region) :: s.mem.retired, worn := s.mem.worn.filter (· ≠ (stack, region)),
                                      seenCorrected := s.mem.seenCorrected.filter (· ≠ (stack, region)) }
      ({ s with mem := m1 } : State).ev 3 2 9 kStack stack (leBytes 5 (regionAddr stack region) ++ leBytes 2 (reserveLeft m1 stack)))

/-- How many sources a row of R377 gives its data. -/
def sourcesOf (row : Nat) : Nat := if row = 2 then 2 else if row = 1 ∨ row = 3 ∨ row = 4 then 1 else 0

/-- The sources that have failed for a block so far. -/
def triedOf (m : Memory) (block : Nat) : Nat := match m.tried.find? fun e => e.1 = block with | some e => e.2 | none => 0

/-- A block restored: the bytes are in place, the record is written, and page copies that waited for it go (R377, R389, R300). -/
def State.restore (s : State) (stack addr row : Nat) (data : Bytes) (motif array : Option Nat) : State :=
  let m := memWrite s.mem addr data
  (({ s with mem := { m with tried := m.tried.filter fun e => e.1 ≠ addr / 64 } } : State).ev 3 3 0 kStack stack
    (leBytes 1 (motif.getD 0xFF) ++ leBytes 1 row ++ leBytes 2 (array.getD 0xFFFF))).sendWaiting

/-- A source that does not restore a block: the next one of its row is tried; a weight mirror block that no source restores leaves its tile to its array alone
(R377). -/
def State.noSource (s : State) (block row : Nat) (motif array : Option Nat) : State :=
  let n := triedOf s.mem block + 1
  let s1 : State := { s with mem := { s.mem with tried := (block, n) :: s.mem.tried.filter fun e => e.1 ≠ block } }
  match motif, array with
  | some m, some a => if row = 2 ∧ n = sourcesOf row ∧ m < 16 then s1.setMotif m { s1.motif m with spoilt := insertAsc a (s1.motif m).spoilt } else s1
  | _, _ => s1

/-- What a source gave for a block, checked against its checksum before use (R377). -/
def State.trySource (s : State) (stack addr row : Nat) (d : Rebuild) (motif array : Option Nat) : State :=
  if d.data.length = 64 ∧ crc32c d.data = d.checksum then s.restore stack addr row d.data motif array else s.noSource (addr / 64) row motif array

/-- REBUILT: a flagged block takes the bytes of the next source of its row, first source first; for the cells of an array the array is OUT, drained first, and
returns (R377, R389). -/
def execRebuilt (stack addr sourceRow : Nat) (data : Rebuild) (motif array : Option Nat) (s : State) : Result :=
  need (decide (stack < 8 ∧ addr < Config.memorySize)) .noSuchStore
    (if addr % 64 ≠ 0 ∨ stackOf addr ≠ stack ∨ !s.mem.flagged.contains (addr / 64) ∨ data.source ≠ triedOf s.mem (addr / 64) ∨ sourcesOf sourceRow ≤ data.source then s
    else match sourceRow, data.source, array with
      | 2, 1, some a =>
        let o := s.takeOut a
        if o.2 then (o.1.trySource stack addr 2 data motif array).giveBack a else o.1
      | _, _, _ => s.trySource stack addr sourceRow data motif array)

end Sys2Proof.Machine
end

