-- ==== Sys2Proof/Machine/Thermal.lean ====
section
/-! DEFINITION. Sensors, rate limits, the throttle ladder, trips, the safe state, broken sensors and the power governor (R399 to R413). -/

namespace Sys2Proof.Machine

/-! ### Sensors and their rates (R399 to R401) -/

/-- 0 die, 1 memory stack, 2 optical engine (R399). -/
def sensorKind (i : Nat) : Nat := if i < 96 then 0 else if i < 160 then 1 else 2

/-- First number and count of the sensors of the die, stack or engine that holds a sensor. -/
def sensorPart (i : Nat) : Nat × Nat :=
  if i < 96 then (0, 96) else if i < 160 then (96 + 8 * ((i - 96) / 8), 8) else (160 + 4 * ((i - 160) / 4), 4)

/-- The sensors of a part. -/
def partSensors (i : Nat) : List Nat := (List.range (sensorPart i).2).map (· + (sensorPart i).1)

/-- The neighbours of a sensor (R399). -/
def neighboursOf (i : Nat) : List Nat :=
  if i < 96 then
    (if i / 16 = 0 then [] else [i - 16]) ++ (if i / 16 = 5 then [] else [i + 16]) ++ (if i % 16 = 0 then [] else [i - 1]) ++ (if i % 16 = 15 then [] else [i + 1])
  else (partSensors i).filter (· ≠ i)

/-- The absolute trip of a sensor, in 1/128 °C (R408). -/
def tripLimit (i : Nat) : Int := if i < 96 then 115 * 128 else if i < 160 then 95 * 128 else 85 * 128

/-- The reading taken at a moment, or the latest before it. -/
def readingAt (hist : List (Nat × Int)) (t : Nat) : Option Int := (hist.find? fun e => decide (e.1 ≤ t)).map (·.2)

/-- T(t) - T(t - w) at the latest reading, in 1/128 °C; 0 until there is a reading that old (R401, R415). -/
def Sensor.rise (x : Sensor) (w : Nat) : Int :=
  match x.hist with
  | [] => 0
  | (t, v) :: _ => if t < w then 0 else match readingAt x.hist (t - w) with | some u => v - u | none => 0

/-- 2 s, 250 ms and 10 ms in nanoseconds. -/
def win2s : Nat := 2000000000
def win250 : Nat := 250000000
def win10 : Nat := 10000000

/-- The rise over 10 ms; 0 while the sensor reads at 250 Hz (R401). -/
def Sensor.rise10 (x : Sensor) : Int := if x.fast then x.rise win10 else 0

/-- A rise as a rate in 1/256 °C/s of 16 bits, saturating (R415): a rise in 1/128 °C times `k` = 2/w. -/
def rateField (rise : Int) (k : Int) : Nat := unsigned 16 (clampI (-32768) 32767 (rise * k))

/-- Readings of the last 2 s and the one before them. -/
def pruneHist (now : Nat) (hist : List (Nat × Int)) : List (Nat × Int) :=
  let keep := hist.filter fun e => decide (now < e.1 + win2s)
  keep ++ (hist.drop keep.length).take 1

/-! ### Broken sensors (R409) -/

/-- Twice the median of the neighbours' last readings; none before any has read. -/
def State.median2 (s : State) (i : Nat) : Option Int :=
  let l := ((neighboursOf i).filterMap fun j => ((s.sensor j).hist.head?).map (·.2)).mergeSort fun a b => decide (a ≤ b)
  if l = [] then none else some (l.getD ((l.length - 1) / 2) 0 + l.getD (l.length / 2) 0)

/-- Why a sensor with a reading is broken: 2 out of range, 1 stuck, 3 disagreeing, 0 none of them (R409). -/
def brokenReason (i now : Nat) (v : Int) (med2 : Option Int) (x : Sensor) : Nat :=
  let far := if i < 96 then 12 * 128 else 8 * 128
  let moved := match med2, x.medians.find? fun e => decide (e.1 + 10000000000 ≤ now) with
    | some m, some e => decide (512 < (m - e.2).natAbs)
    | _, _ => false
  let still := match x.still with | some e => decide (e.1 + 10000000000 ≤ now) | none => false
  if v < -40 * 128 ∨ 150 * 128 < v then 2
  else if still && moved then 1
  else match med2 with
    | some m => if 2 * far < (2 * v - m).natAbs then 3 else 0
    | none => 0

/-- A sensor found broken, or its time without a condition counted (R409, R417). -/
def State.judgeSensor (s : State) (i reason : Nat) (v : Int) (med2 : Option Int) : State :=
  let x := s.sensor i
  if reason = 0 then (if x.state = 0 then s else s.setSensor i { x with healSince := some (x.healSince.getD s.now) })
  else
    let s1 := s.setSensor i { x with state := if x.state = 0 then reason else x.state, healSince := none }
    if x.state ≠ 0 then s1
    else s1.ev 5 6 0 kSensor i (leBytes 1 reason ++ leBytes 2 (unsigned 16 v) ++ leBytes 2 (unsigned 16 (med2.getD 0 / 2)))

/-! ### One reading (R400 to R402, R404) -/

/-- A sensor near a limit (R400). -/
def nearLimit (i : Nat) (v : Int) (x : Sensor) : Bool := decide (8 < x.rise win250 ∨ 64 < x.rise win2s ∨ tripLimit i - 1024 ≤ v)

/-- A sensor with a new reading: history, sampling rate, absolute limit (R400, R401, R408). -/
def Sensor.read (x : Sensor) (i now : Nat) (v : Int) (med2 : Option Int) : Sensor :=
  let x1 : Sensor := { x with
    hist := (now, v) :: pruneHist now x.hist, missed := 0
    still := match x.still with | some e => if (v - e.2).natAbs ≤ 1 then some e else some (now, v) | none => some (now, v)
    medians := match med2 with
      | some m =>
        let keep := x.medians.filter fun e => decide (now < e.1 + 10000000000)
        (now, m) :: keep ++ (x.medians.drop keep.length).take 1
      | none => x.medians
    overCount := if tripLimit i < v then x.overCount + 1 else 0
    band := decide (tripLimit i - 1024 ≤ v) }
  let near := nearLimit i v x1
  let calm := if near then now else x.calmSince
  { x1 with calmSince := calm, fast := near || (x.fast && decide (now < calm + 1000000000)) }

/-- The notice of a good sensor, and its re-arming (R402). -/
def State.notice (s : State) (i : Nat) (v : Int) : State :=
  let x := s.sensor i
  let r := x.rise win2s
  if x.state ≠ 0 then s
  else if x.noticed = false then
    if 128 * 1 < r then (s.setSensor i { x with noticed := true, quietSince := none }).ev 5 1 0 kSensor i (leBytes 2 (rateField r 1) ++ leBytes 2 (unsigned 16 v))
    else s
  else if 64 ≤ r then s.setSensor i { x with quietSince := none }
  else match x.quietSince with
    | none => s.setSensor i { x with quietSince := some s.now }
    | some t => if t + win2s ≤ s.now then s.setSensor i { x with noticed := false, quietSince := none } else s

/-- The good sensors that have read. -/
def State.goodSensors (s : State) : List Nat := (s.thermal.sensor.filter fun e => e.2.state = 0 && e.2.hist ≠ []).map (·.1)

/-- Notes since when a rise or a fall of the thermal level is under way (R404). -/
def State.noteLadder (s : State) : State :=
  let rises := s.goodSensors.map fun i => (s.sensor i).rise win250
  let hot := rises.any fun r => decide (64 < r)
  let cool := rises.all fun r => decide (r < 32)
  { s with thermal := { s.thermal with
      hotSince := if hot then some (s.thermal.hotSince.getD s.now) else none
      coolSince := if cool then some (s.thermal.coolSince.getD s.now) else none } }

/-- SENSOR_READING: a reading, or a missed one (R400 to R404, R407, R409). -/
def execSensorReading (sensor : Nat) (value : Option Int) (s : State) : Result :=
  need (decide (sensor < 196)) .noSuchSensor
    (match value with
    | none =>
      let x := s.sensor sensor
      let s1 := s.setSensor sensor { x with missed := x.missed + 1, healSince := none }
      if 3 ≤ x.missed + 1 ∧ x.state = 0 then s1.judgeSensor sensor 2 (match x.hist with | e :: _ => e.2 | [] => -32768) (s.median2 sensor) else s1
    | some v =>
      let x := s.sensor sensor
      let med2 := s.median2 sensor
      let y := x.read sensor s.now v med2
      let s1 := s.setSensor sensor y
      let s2 := if y.band && !x.band then s1.ev 5 5 0 kSensor sensor (leBytes 2 (unsigned 16 v)) else s1
      ((s2.judgeSensor sensor (brokenReason sensor s.now v med2 y) v med2).notice sensor v).noteLadder)

/-! ### The ladder (R404) -/

/-- The good sensor with the largest 250 ms rate, the lowest of equals. -/
def State.hottest (s : State) : Nat :=
  match s.goodSensors with
  | [] => 0
  | i :: rest => rest.foldl (fun b j => if (s.sensor b).rise win250 < (s.sensor j).rise win250 then j else b) i

/-- THROTTLE_UP (R404, R417). -/
def execThrottleUp (s : State) : Result :=
  .next (match s.thermal.hotSince with
  | none => s
  | some t =>
    if s.now < t then s
    else
      let s1 : State := { s with thermal := { s.thermal with level := min 14 (s.thermal.level + 1), hotSince := some (t + win250) } }
      if 14 ≤ s.thermal.level then s1
      else s1.ev 5 2 0 kModule 0 (leBytes 1 s1.thermal.level ++ leBytes 2 s.hottest ++ leBytes 2 (rateField ((s.sensor s.hottest).rise win250) 8)))

/-- THROTTLE_DOWN (R404, R417). -/
def execThrottleDown (s : State) : Result :=
  .next (match s.thermal.coolSince with
  | none => s
  | some t =>
    if s.thermal.level = 0 ∨ s.now < t + win2s then s
    else ({ s with thermal := { s.thermal with level := s.thermal.level - 1, coolSince := some (t + win2s) } } : State).ev 5 3 0 kModule 0
      (leBytes 1 (s.thermal.level - 1)))

/-! ### Trips and the safe state (R402, R405, R406, R408) -/

/-- Brides whose transmitters have been turned off: no lane locked, nothing kept of what was under way (R405, R468). -/
def darkBride (b : Bride) (now : Nat) : Bride :=
  { b with state := if b.state = 0 then 0 else 1, lanes := 0, txHalf := 0, laneOut := 0, unacked := 0, unsent := 0, sameReplays := 0, recentReplays := [],
           queued := [], msgPart := 0, noticeWait := none, switchDue := false, noticed := none, stateTime := if b.state ≤ 1 then b.stateTime else now }

/-- The transmitters of brides 0 to 31 off; every destination is unreachable. -/
def darken (f : Fabric) (now : Nat) : Fabric :=
  { f with bride := (List.range 32).foldl (fun t b => Tab.put Bride.init t b (darkBride (Tab.get Bride.init t b) now)) f.bride, route := [] }

/-- The module that a tripped module's commands go on on: its spare, if that is free (R405). -/
def State.refuge (s : State) : Option Nat := if s.role = 0 ∧ s.spareReady then s.spareId else none

/-- Every command in progress completes with `ST_PEER_GONE` (R405). -/
def State.endCommands (s : State) (detail : Nat) : State :=
  (List.range Config.mailboxes).foldl (fun u m => if (u.box m).cur.isSome && (u.box m).doneWait.isNone then u.failCmd m stPeerGone detail else u) s

/-- The work of the units that the safe state stops is lost, and so are the host sets of the CAL_COMMIT commands that a trip ends (R405, R406; log 38). -/
def State.stopUnits (s : State) : State :=
  { s with
    steps := { s.steps with live := [] }
    data := State.reset.data, attn := State.reset.attn, seqs := State.reset.seqs
    arrays := { s.arrays with dutyWait := [], addr := s.arrays.addr.map fun e => (e.1, { e.2 with outs := [], batch := [], hostSet := none }) } }

/-- Addressable arrays without entries that read as untouched. -/
def State.tidyArrays (s : State) : State :=
  { s with arrays := { s.arrays with addr := s.arrays.addr.filter fun e => decide (e.2 ≠ ArrayState.init) } }

/-- A trip (R405, R406): TRIP record, brides dark, candidacy withdrawn, HOLDOVER, the safe state, commands ended. -/
def State.trip (s : State) (kind sensor value : Nat) : State :=
  let to_ := s.refuge
  let s1 := s.ev 5 4 0 kModule 0 (leBytes 1 kind ++ leBytes 2 sensor ++ leBytes 2 value)
  let s2 := (s1.endCommands (to_.getD 0xFFFFFFFF)).stopUnits.tidyArrays
  ({ s2 with
    start := { s2.start with safe := true }
    fabric := darken s2.fabric s2.now
    time := { s2.time with withdrawn := true, lock := 3, holdoverSince := if s2.time.lock = 3 then s2.time.holdoverSince else s2.now, source := none }
    take := { s2.take with vacatedTo := to_ <|> s2.take.vacatedTo, mailbox := none, backBox := none, progress := 0 } } : State).drivePins

/-- Whether more than half of a part's sensors are broken (R409). -/
def State.majority (s : State) (i : Nat) : Bool :=
  decide ((sensorPart i).2 < 2 * ((partSensors i).filter fun j => decide ((s.sensor j).state ≠ 0)).length)

/-- What trips the module on its rates or its broken sensors: (kind, sensor, value) (R402, R409). -/
def State.tripCause (s : State) : Option (Nat × Nat × Nat) :=
  match s.goodSensors.find? fun i => decide (128 < 5 * (s.sensor i).rise10) with
  | some i => some (0, i, rateField (s.sensor i).rise10 200)
  | none => match s.goodSensors.find? fun i => decide (i < 96 ∧ 512 < (s.sensor i).rise win2s) with
    | some i => some (1, i, rateField ((s.sensor i).rise win2s) 1)
    | none => ((List.range 196).find? fun i => decide ((s.sensor i).state ≠ 0) && s.majority i).map
        fun i => (3, i, unsigned 16 (match (s.sensor i).hist with | e :: _ => e.2 | [] => -32768))

/-- Whether two sensors call for a hardware trip: of one part, each above its limit in two consecutive readings (R408). -/
def State.tripPair (s : State) (a b : Nat) : Bool :=
  decide (a ≠ b ∧ sensorPart a = sensorPart b ∧ 2 ≤ (s.sensor a).overCount ∧ 2 ≤ (s.sensor b).overCount)

/-- A hardware trip (R408): THERM_TRIP, and the trip unless the module is in the safe state already. -/
def State.hardwareTrip (s : State) (a : Nat) : State :=
  let s1 : State := { s with start := { s.start with hwTrip := true, thermTrip := true } }
  if s.start.safe then s1
  else s1.trip 2 a (unsigned 16 (match (s.sensor a).hist with | e :: _ => e.2 | [] => -32768))

/-- TRIP: a rate trip or a broken majority (R402, R405, R409); a hardware trip due in the same instant is the one that is written (R407). -/
def execTrip (s : State) : Result :=
  .next (match (List.range 196).find? fun a => (List.range 196).any (s.tripPair a), s.tripCause with
  | some a, some _ => if s.start.safe then s else s.hardwareTrip a
  | none, some c => if s.start.safe then s else s.trip c.1 c.2.1 c.2.2
  | _, none => s)

/-- HARDWARE_TRIP: two sensors of one part above their limit in two consecutive readings each (R408). -/
def execHardwareTrip (a b : Nat) (s : State) : Result :=
  need (decide (a < 196 ∧ b < 196)) .noSuchSensor (if s.tripPair a b then s.hardwareTrip a else s)

/-- SENSOR_GOOD: 10 s without a condition (R409). -/
def execSensorGood (sensor : Nat) (s : State) : Result :=
  need (decide (sensor < 196)) .noSuchSensor
    (let x := s.sensor sensor
    match x.healSince with
    | some t =>
      if x.state ≠ 0 ∧ t + 10000000000 ≤ s.now then
        (s.setSensor sensor { x with state := 0, healSince := none }).ev 5 7 0 kSensor sensor
          (leBytes 2 (unsigned 16 (match x.hist with | e :: _ => e.2 | [] => -32768)))
      else s
    | none => s)

/-- Whether a HANDBACK may leave the safe state (R406). -/
def State.settled (s : State) : Bool :=
  !s.start.thermTrip && s.thermal.sensor.all fun e =>
    (e.2.state ≠ 0 || decide (e.2.rise win2s < 64)) && (match e.2.hist with | x :: _ => decide (x.2 ≤ tripLimit e.1 - 1920) | [] => true)

/-- Every array that was calibrated confirms anew, two windows, before it serves (R406). -/
def State.confirmAll (s : State) : State :=
  let phys := (s.arrays.phys.map fun e => (e.1, if e.2.calState = 0 then e.2 else e.2.confirm 2 s.now)).filter fun e => decide (e.2 ≠ PhysArray.init)
  let addr := (s.arrays.addr.map fun e => (e.1, if e.2.service = .serving ∨ e.2.service = .draining then { e.2 with service := .out } else e.2)).filter
    fun e => decide (e.2 ≠ ArrayState.init)
  { s with arrays := { s.arrays with phys := phys, addr := addr } }

/-- SAFE_EXIT: the HANDBACK held in the safe state proceeds (R406); confirmation waits for the temperature of R455. -/
def execSafeExit (s : State) : Result :=
  .next (onlyIf (s.start.safe && !s.start.memoryFailed && s.take.backBox.isSome && s.settled) s
    (({ s with start := { s.start with safe := false, leftSafe := true } } : State).confirmAll.ev 5 8 0 kModule 0 []))

/-! ### The power governor (R411, R412, R416) -/

/-- The budget in force at an interval (R411). -/
def State.budgetNow (s : State) : Nat := if s.thermal.inputLow then 900 else s.cfg.cur.budget

/-- The thermal part of the state after an interval's power has been measured; amounts in µW, `p` being the product of voltage and current averaged over the interval (R411). -/
def Thermal.measured (t : Thermal) (b mv ma p macs : Nat) : Thermal :=
  let other := p - macs / 500000
  { t with
    powerW := p / 1000000, recentW := (p / 1000000 :: t.recentW).take 1000, inputMv := mv, inputMa := ma, energyNj := t.energyNj + p
    shareGov := max 40 (min 400 ((b * 1000000 - other - 25000000) / 1000000))
    lowMs := if p < (b - 100) * 1000000 then t.lowMs + 1 else 0 }

/-- GOVERNOR_INTERVAL: 1 ms, with the multiply-accumulates counted in it (R111, R411, R412, R417). -/
def execGovernorInterval (mv ma power : Nat) (s : State) : Result :=
  .next (
    let b := s.budgetNow
    let macs := s.arrays.macs
    let t := s.thermal.measured b mv ma power macs
    let s1 : State := { s with cfg := { s.cfg with budget := b }, thermal := t, arrays := { s.arrays with macs := 0 } }
    let up := decide ((b - 40) * 1000000 < power - macs / 500000)
    if up then
      let record := decide (t.powerLevel < 14) || (match t.record14 with | none => true | some x => decide (x + 1000000000 ≤ s.now))
      let l := min 14 (t.powerLevel + 1)
      let s2 : State := { s1 with thermal := { t with powerLevel := l, record14 := if l = 14 ∧ record then some s.now else t.record14 } }
      if record then s2.ev 6 1 0 kModule 0 (leBytes 1 l ++ leBytes 2 (satTo 16 t.powerW)) else s2
    else if 100 ≤ t.lowMs then
      let s2 : State := { s1 with thermal := { t with lowMs := 0, powerLevel := t.powerLevel - 1 } }
      if t.powerLevel = 0 then s2 else s2.ev 6 2 0 kModule 0 (leBytes 1 (t.powerLevel - 1))
    else s1)

/-- INPUT_LOW: below 40 V for 1 ms (R411, R417). -/
def execInputLow (mv : Nat) (s : State) : Result :=
  .next (onlyIf (decide (mv < 40000) && !s.thermal.inputLow) s
    (({ s with thermal := { s.thermal with inputLow := true }, cfg := { s.cfg with budget := 900 } } : State).ev 6 3 0 kModule 0 (leBytes 4 mv)))

/-- INPUT_RESTORED: at or above 41 V for 1 s (R411, R417). -/
def execInputRestored (mv : Nat) (s : State) : Result :=
  .next (onlyIf (decide (41000 ≤ mv) && s.thermal.inputLow) s
    (({ s with thermal := { s.thermal with inputLow := false }, cfg := { s.cfg with budget := s.cfg.cur.budget } } : State).ev 6 4 0 kModule 0 (leBytes 4 mv)))

end Sys2Proof.Machine
end

