-- ==== Sys2Proof/Machine/MonitorUnit.lean ====
section
/-! DEFINITION. The monitor converters: sequencer entries, results, captures and `MONITOR_PROGRAM` (R418 to R424). -/

namespace Sys2Proof.Machine

/-! ### One entry's result (R419 to R422) -/

/-- The time an entry's conversions take, 0.5 µs each. -/
def MonEntry.length (e : MonEntry) : Nat := 500 * 2 ^ e.avg

/-- When an entry falls due: its period after its last start. -/
def MonEntry.dueAt (e : MonEntry) : Nat := match e.lastStart with | some t => t + 1000 * e.period | none => 0

/-- Whether an entry could have started so long ago that its conversions end now. -/
def MonEntry.ends (e : MonEntry) (now : Nat) : Bool := decide (e.period ≠ 0 ∧ e.dueAt + e.length ≤ now)

/-- A conversion as a code with OVR and UNDER (R419); reserved channels read code 0 (R418). -/
def monCode (channel : Nat) (x : Int) : Nat × Bool × Bool :=
  if 51 ≤ channel then (0, false, false)
  else if 4095 < x then (4095, true, false) else if x < 0 then (0, false, true) else (x.toNat, false, false)

/-- The mean of codes, rounded half to even; the first flag raised decides the result (R421). -/
def monResult (codes : List (Nat × Bool × Bool)) : Nat × Bool × Bool :=
  match codes.find? fun c => c.2.1 || c.2.2 with
  | some c => c
  | none => ((roundDivEven ((codes.map (·.1)).sum : Nat) codes.length).toNat, false, false)

/-- Whether a result lies outside its entry's band (R422). -/
def MonEntry.isOutside (e : MonEntry) (r : Nat × Bool × Bool) : Bool := decide (e.winHigh < r.1 ∨ r.1 < e.winLow) || r.2.1 || r.2.2

/-- The flags of a result (R421, R423). -/
def monFlags (r : Nat × Bool × Bool) (outside late : Bool) : Nat := b2n r.2.1 + 2 * b2n r.2.2 + 4 * b2n outside + 8 * b2n late

/-- An entry whose result register takes a result (R421). -/
def MonEntry.register (x : MonEntry) (r : Nat × Bool × Bool) (outside late : Bool) (now : Nat) : MonEntry :=
  { x with code := r.1, ovr := r.2.1, under := r.2.2, outside := outside, late := late, valid := true, time := now }

/-- An entry after a result: the result register where the entry delivers to it, and the comparator's memory. -/
def MonEntry.deliver (e : MonEntry) (r : Nat × Bool × Bool) (outside record : Bool) (now : Nat) : MonEntry :=
  let e1 : MonEntry := { e with
    lastStart := some (now - e.length), missed := false
    inside := if outside then 0 else e.inside + 1
    armed := if record then false else e.armed || (!outside && decide (8 ≤ e.inside + 1)) }
  if e.dest = 1 then e1 else { e1.register r outside e.missed now with count := e.count + 1 }

/-- The 16 bytes of a capture (R423). -/
def captureBytes (number entry : Nat) (e : MonEntry) (r : Nat × Bool × Bool) (outside : Bool) (now : Nat) : Bytes :=
  layout 16 [(0x00, 2, number), (0x02, 1, entry), (0x03, 1, e.channel), (0x04, 1, e.sub), (0x05, 1, monFlags r outside e.missed),
    (0x06, 2, r.1), (0x08, 8, now)]

/-- A capture written into the queue (R423). -/
def Monitor.capture (q : Monitor) (data : Bytes) : Monitor :=
  { q with
    written := q.written + 1
    lost := if Config.captureSlots ≤ q.written - q.readCount then q.lost + 1 else q.lost
    slots := Tab.put (zeros 16) q.slots (4 + q.written % Config.captureSlots) data }

/-- Whether it is an entry's turn on its converter: the lowest of those due starts first (R421). -/
def State.monTurn (s : State) (entry : Nat) : Bool :=
  let start := s.now - (s.monEntry entry).length
  (List.range entry).all fun j => !(decide (j % 4 = entry % 4 ∧ (s.monEntry j).period ≠ 0 ∧ (s.monEntry j).dueAt ≤ start))

/-- Whether conversions of an entry as programmed may end now: a host entry's begin after its program took effect (R421, R424). -/
def State.monEnds (s : State) (entry : Nat) : Bool :=
  (s.monEntry entry).ends s.now && (decide (entry < 16) || decide (s.monitor.programmed + (s.monEntry entry).length ≤ s.now))

/-- The band of an entry: in a margin window the firmware's entries on the margin supply have it 5 % lower (R380, R422; DEDUCED, log 39). -/
def State.bandEntry (s : State) (entry : Nat) : MonEntry :=
  let e := s.monEntry entry
  if entry < 16 ∧ e.channel = 15 ∧ (s.islands.island.any fun i => i.2.state = 1) then
    { e with winHigh := e.winHigh * 95 / 100, winLow := e.winLow * 95 / 100 }
  else e

/-- A replaced entry whose conversions began before the replacement and end now (R424). -/
def State.oldEntry (s : State) (entry : Nat) : Option MonEntry :=
  match s.monitor.replaced.find? fun x => x.1 = entry with
  | some x => if x.2.ends s.now && decide (s.now < s.monitor.programmed + x.2.length) then some x.2 else none
  | none => none

/-- A result outside the band writes one record after a result inside it, and again only after eight inside (R422). -/
def MonEntry.records (e : MonEntry) (outside : Bool) : Bool := outside && e.winEn && e.armed && decide (0 < e.inside)

/-- A result of entry number `entry` under entry `e`: captured where the entry delivers there, and recorded (R417, R422, R423). -/
def State.deliverResult (s : State) (entry : Nat) (e : MonEntry) (r : Nat × Bool × Bool) (outside : Bool) : State :=
  let s1 : State := if e.dest = 0 then s else { s with monitor := s.monitor.capture (captureBytes s.monitor.written entry e r outside s.now) }
  if e.records outside then
    s1.ev 7 1 0 kMonitor e.channel (leBytes 1 entry ++ leBytes 1 e.sub ++ leBytes 2 r.1 ++ leBytes 1 (monFlags r outside e.missed))
  else s1

/-- The last result of a replaced entry, delivered under that entry: of its converter's replaced entries only one was in progress. The register, by now the
new entry's, takes the result without counting it (R424; DEDUCED, log 39). -/
def State.deliverOld (s : State) (entry : Nat) (e : MonEntry) (samples : List Int) : State :=
  let r := monResult (samples.map (monCode e.channel))
  let outside := e.isOutside r
  let s1 : State := if e.dest = 1 then s else s.setMonEntry entry ((s.monEntry entry).register r outside e.missed s.now)
  ({ s1 with monitor := { s1.monitor with replaced := s1.monitor.replaced.filter fun x => x.1 % 4 ≠ entry % 4 } } : State).deliverResult entry e r outside

/-- MONITOR_ENTRY: the averaged conversions of a due entry end (R419 to R424). -/
def execMonitorEntry (entry : Nat) (samples : List Int) (s : State) : Result :=
  need (decide (entry < 32)) .noSuchEntry
    (match s.oldEntry entry with
    | some e => onlyIf (s.start.powerGood && decide (samples.length = 2 ^ e.avg)) s (s.deliverOld entry e samples)
    | none =>
      let e := s.monEntry entry
      if !s.start.powerGood || !s.monEnds entry || !s.monTurn entry || decide (samples.length ≠ 2 ^ e.avg) then s
      else
        let r := monResult (samples.map (monCode e.channel))
        let outside := (s.bandEntry entry).isOutside r
        (s.setMonEntry entry (e.deliver r outside (e.records outside) s.now)).deliverResult entry e r outside)

/-- LATE: an entry due again before it has started (R421, R417). -/
def execLate (entry : Nat) (s : State) : Result :=
  need (decide (entry < 32)) .noSuchEntry
    (let e := s.monEntry entry
    match e.lastStart with
    | none => s
    | some t =>
      if e.period = 0 ∨ s.now < t + 2000 * e.period then s
      else (s.setMonEntry entry { e with late := true, missed := true }).ev 7 2 0 kMonitor e.channel
        (leBytes 1 entry ++ leBytes 2 (satTo 16 ((s.now - t) / (1000 * e.period) - 1))))

/-! ### MONITOR_PROGRAM (R420, R424) -/

/-- An entry of a program, as its 8 bytes spell it (R420). -/
def readMonEntry (d : Bytes) : MonEntry :=
  let n := ofLE d
  { MonEntry.init with
    winHigh := bits n 63 52, winLow := bits n 51 40, period := bits n 39 24, avg := bits n 23 20, dest := bits n 19 18, winEn := bit n 17,
    sub := bits n 10 8, channel := bits n 5 0 }

/-- The first byte of an entry with a reserved bit set. -/
def monReserved (d : Bytes) : Option Nat :=
  [(0, 0xC0), (1, 0xF8), (2, 0x01)].findSome? fun x => if (d.getD x.1 0).toNat &&& x.2 = 0 then none else some x.1

/-- The first byte of an entry with a field out of range, by field from the lowest (R420, R424). -/
def monRange (d : Bytes) : Option Nat :=
  let e := readMonEntry d
  if e.sub ≠ 0 ∧ ¬(24 ≤ e.channel ∧ e.channel ≤ 32) then some 1
  else if e.dest = 3 ∨ 8 < e.avg then some 2
  else if e.winHigh < e.winLow then some 5
  else none

/-- The share of a converter's time that entries would take, against 60 %: Σ 2^avg/(2·period) > 3/5, over the product of the periods. -/
def overloaded (es : List MonEntry) : Bool :=
  let on := es.filter fun e => e.period ≠ 0
  let prod : Nat := (on.map (·.period)).prod
  let use : List Nat := on.map fun e => 2 ^ e.avg * (prod / e.period)
  decide (6 * prod < 5 * use.sum)

/-- Entries of a program's buffer. -/
def monEntries (data : Bytes) : List Bytes := (List.range (field data 0 1)).map fun i => (data.drop (8 + 8 * i)).take 8

/-- The entry that takes converter `c` over 60 %, counting the firmware entries on it; the offset named is that entry's (DEDUCED, log 39). -/
def overloadAt (s : State) (es : List Bytes) : Option Nat :=
  (List.range es.length).find? fun i =>
    overloaded (((List.range 16).filter fun j => j % 4 = i % 4).map s.monEntry ++
      ((List.range (i + 1)).filter fun j => j % 4 = i % 4).map fun j => readMonEntry (es.getD j []))

/-- Why a program is refused: status and offset in the buffer (R12, R424; log 39). -/
def monRefusal (s : State) (data : Bytes) : Option (Nat × Nat) :=
  match firstNonZero data 1 8 with
  | some o => some (stReserved, o)
  | none =>
    if 16 < field data 0 1 ∨ data.length ≠ 8 + 8 * field data 0 1 then some (stBadParam, 0)
    else
      let es := monEntries data
      match (List.range es.length).findSome? fun i => (monReserved (es.getD i [])).map (8 + 8 * i + ·) with
      | some o => some (stReserved, o)
      | none => match (List.range es.length).findSome? fun i => (monRange (es.getD i [])).map (8 + 8 * i + ·) with
        | some o => some (stBadParam, o)
        | none => (overloadAt s es).map fun i => (stBadParam, 8 + 8 * i)

/-- The host's entries of which a conversion may be in progress: those that are due. -/
def Monitor.started (q : Monitor) (now : Nat) : List (Nat × MonEntry) :=
  ((List.range 16).map fun i => (16 + i, Tab.get MonEntry.init q.entries (16 + i))).filter fun x => decide (x.2.period ≠ 0 ∧ x.2.dueAt < now)

/-- Entries 16 to 31 replaced by a program; those it does not name are disabled, and a conversion in progress finishes (R424). -/
def Monitor.program (q : Monitor) (es : List Bytes) (now : Nat) : Monitor :=
  { q with
    entries := (List.range 16).foldl (fun t i =>
      Tab.put MonEntry.init t (16 + i) (if i < es.length then readMonEntry (es.getD i []) else MonEntry.init)) q.entries
    replaced := q.started now, programmed := now }

/-- MONITOR_PROGRAM (R63, R424): the buffer is read, checked and takes effect at once. A buffer length that is not 8 + 8n is named at offset 0 (DESIGN CHOICE,
log 89). -/
def execMonitorProgram (m : Nat) (s : State) : Result := command m opMonitorProgram s fun t =>
  let e := t.entryOf m
  match t.xferOf m with
  | .none =>
    if bufLen e < 8 ∨ bufLen e % 8 ≠ 0 ∨ 136 < bufLen e then t.failCmd m stBadParam 0
    else t.readBuffer m (bufLen e)
  | .readDone =>
    let data := t.dataOf m
    match monRefusal t data with
    | some r => t.failCmd m r.1 r.2
    | none => ({ t with monitor := t.monitor.program (monEntries data) t.now } : State).okCmd m 0
  | .readFailed => t.failCmd m stFetchFail t.machineId
  | _ => t

end Sys2Proof.Machine
end

