-- ==== Sys2Proof/Machine/Fabric.lean ====
section
/-! DEFINITION. Brides: flits and retry, lanes, light supply, training and classing, routes, link notices, re-shaping (R301 to R336). -/

namespace Sys2Proof.Machine

/-! ### Links known to carry traffic (R325, R326, R331) -/

/-- This module's brides that carry traffic and their partners, as (slot, bride, partner). -/
def State.ownLinks (s : State) : List (Nat × Nat × Nat) :=
  (List.range 32).filterMap fun b =>
    if (s.bride b).carries && (s.bride b).member then some (slotOf s.machineId, b, (s.bride b).partnerId) else none

/-- The links of the group known to carry traffic. -/
def State.links (s : State) : List (Nat × Nat × Nat) := s.ownLinks ++ s.fabric.peerLinks

/-- The machine id of a slot of this module's group. -/
def State.peerAt (s : State) (slot : Nat) : Nat := 16 * groupOf s.machineId + slot

/-- This module's bride to a machine id, the lowest if there are several (R325). -/
def State.direct (s : State) (u : Nat) : Option Nat := (s.ownLinks.find? fun l => l.2.2 = u).map (·.2.1)

/-- Whether two slots of the group are known to be joined (R325). -/
def State.slotsJoined (s : State) (a b : Nat) : Bool :=
  s.links.any fun l => decide ((l.1 = a ∧ l.2.2 = s.peerAt b) ∨ (l.1 = b ∧ l.2.2 = s.peerAt a))

/-- The brides to the relays for a slot of the group, in the order s + 1, s + 2, … (R325). -/
def State.relays (s : State) (u : Nat) : List Nat :=
  (List.range 15).filterMap fun i =>
    let r := (slotOf s.machineId + 1 + i) % 16
    if r ≠ u ∧ s.slotsJoined r u then s.direct (s.peerAt r) else none

/-- The route to a machine id of the own group (R325; the alternate of a direct route is its first relay, log 42). -/
def State.routeIn (s : State) (u : Nat) : Route :=
  match s.direct u, s.relays (slotOf u) with
  | some b, rs => { first := b, alt := rs.headD b, kind := 1, hops := 1, exit := 0xFFFF }
  | none, r :: rs => { first := r, alt := rs.headD r, kind := 2, hops := 2, exit := 0xFFFF }
  | none, [] => Route.init

/-! ### Routes to other groups (R326) -/

/-- The links of the modules of the group that this module can reach: what it knew of a module that has gone counts no more (R326, R336). -/
def State.liveLinks (s : State) : List (Nat × Nat × Nat) :=
  s.links.filter fun l => decide (l.1 = slotOf s.machineId) || decide ((s.routeIn (s.peerAt l.1)).kind ≠ 0)

/-- The groups that this group's links reach, rising. -/
def State.ownJoined (s : State) : List Nat :=
  (s.liveLinks.filter fun l => groupOf l.2.2 ≠ groupOf s.machineId).foldl (fun acc l => insertAsc (groupOf l.2.2) acc) []

/-- Whether two other groups are joined by a bitmap of either. -/
def State.groupsJoined (s : State) (a b : Nat) : Bool :=
  s.fabric.groupLinks.any fun g => decide (g.1 = a) && g.2.contains b || decide (g.1 = b) && g.2.contains a

/-- The groups from which group `b` is within `n` group hops that do not pass through this group. -/
def State.within (s : State) (b : Nat) : Nat → List Nat
  | 0 => [b]
  | n + 1 =>
    let near := s.within b n
    (List.range 256).filter fun g => near.contains g || (decide (g ≠ groupOf s.machineId) && near.any (s.groupsJoined g))

/-- The next group on the path to group `b`: of the shortest paths, the one with the lowest next group. -/
def State.nextGroup (s : State) (b : Nat) : Option Nat :=
  (List.range (max 1 s.cfg.cur.groups)).findSome? fun n => let near := s.within b n; s.ownJoined.find? near.contains

/-- The link that stands at index `i` of the group: its global bride, or the spare bride that stands in for it (R304, R305). -/
def State.linkAt (s : State) (i : Nat) : Option (Nat × Nat × Nat) :=
  match s.liveLinks.find? fun l => decide (l.1 = i / 16 ∧ l.2.1 = 15 + i % 16) with
  | some l => some l
  | none => s.liveLinks.find? fun l => decide (l.1 = i / 16 ∧ l.2.1 = 31) &&
      (match s.cfg.cur.spares[l.1]? with | some e => e.valid && decide (e.standsFor = 15 + i % 16) | none => false)

/-- The links of the group to group `c` that carry traffic, in ascending index. -/
def State.linksTo (s : State) (c : Nat) : List (Nat × Nat × Nat) :=
  ((List.range 256).filterMap s.linkAt).filter fun l => groupOf l.2.2 = c

/-- The first hop to a link of the group: its bride here, or the route to the module that holds it. -/
def State.toLink (s : State) (l : Nat × Nat × Nat) : Option (Nat × Nat) :=
  if l.1 = slotOf s.machineId then some (l.2.1, 1)
  else
    let r := s.routeIn (s.peerAt l.1)
    if r.kind = 0 then none else some (r.first, r.hops + 1)

/-- The route to a machine id of another group (R326; hops beyond the far end of the link are a free value, log 40). -/
def State.routeOut (s : State) (u : Nat) : Route :=
  match s.nextGroup (groupOf u) with
  | none => Route.init
  | some c =>
    let ls := s.linksTo c
    let i := (slotOf s.machineId + slotOf u) % ls.length
    match ls[i]? with
    | none => Route.init
    | some l =>
      match s.toLink l with
      | none => Route.init
      | some (b, hops) =>
        let alt := match (ls[(i + 1) % ls.length]?).bind s.toLink with | some x => x.1 | none => b
        { first := b, alt := alt, kind := 3, exit := s.peerAt l.1,
          hops := if l.2.2 = u then hops else 2 + Config.routeHops s.machineId u % 14 }

/-- The route table entry of a machine id (R324). -/
def State.routeTo (s : State) (u : Nat) : Route :=
  if u = s.machineId then Route.init
  else if groupOf u = groupOf s.machineId then s.routeIn u else s.routeOut u

/-- The route table recomputed for every member (R324 to R326, R329). -/
def State.reroute (s : State) : State :=
  { s with fabric := { s.fabric with
      route := s.cfg.cur.members.foldl (fun t m => Tab.put Route.init t m.machineId (s.routeTo m.machineId)) [] } }

/-! ### State changes of a bride (R317, R331) -/

/-- The LINK_NOTICE of a bride (R331). -/
def State.linkNoticeOf (s : State) (b : Nat) : LinkNotice :=
  let x := s.bride b
  { source := s.machineId, bride := b, state := x.state, partnerBride := x.partnerBride, partnerId := x.partnerId, lastWhole := x.lastWhole }

/-- Who is told of a bride: every group peer, and its partner where that is a member (R331). -/
def State.noticeTo (s : State) (b : Nat) : List Nat :=
  let x := s.bride b
  if x.member && !s.groupPeers.contains x.partnerId then s.groupPeers ++ [x.partnerId] else s.groupPeers

/-- Sends the LINK_NOTICE of a bride (R331). -/
def State.sendNotice (s : State) (b : Nat) : State := s.sendAll (s.noticeTo b) none (.linkNotice (s.linkNoticeOf b))

/-- A bride whose state becomes `st` (R317, R318). A new training classes it anew (R322). -/
def Bride.become (x : Bride) (st now : Nat) : Bride :=
  { x with
    state := st
    stateTime := now
    downs := if st = 7 then satTo 32 (x.downs + 1) else x.downs
    classed := x.classed && decide (st ≠ 2)
    lengthReport := x.lengthReport && decide (st ≠ 2)
    lanes := if st = 5 ∨ st = 6 ∨ st = 3 ∨ st = 4 then x.lanes else 0
    switchDue := x.switchDue || (decide (st = 0 ∨ st = 7) && decide (x.state = 3 ∨ x.state = 5 ∨ x.state = 6)) }

/-- Puts a bride into a state. A bride that has gone DOWN or OFF waits for its route switch, which sends the notice (R329); every other change is told
at once and the routes are recomputed (R325, R331). -/
def State.brideTo (s : State) (b st : Nat) : State :=
  let x := s.bride b
  if x.state = st then s
  else
    let s1 := s.setBride b (x.become st s.now)
    if (s1.bride b).switchDue then s1 else s1.reroute.sendNotice b

/-! ### Flits and retry (R307 to R314) -/

/-- The flits and the messages a bride still has to keep once everything before sequence number `expected` has been received (R310, R329). -/
def Bride.acked (x : Bride) (expected : BitVec 16) : Bride :=
  let left := (x.sendSeq - expected).toNat
  if x.unacked < left then x
  else { x with
    unacked := left
    queued := x.queued.filter fun q => decide ((x.sendSeq + BitVec.ofNat 16 x.unsent - q.after).toNat < left + x.unsent) }

/-- A clean message flit received in sequence (R307, R310, R329): `source` is the source field of a message header that begins in it. -/
def Bride.accept (x : Bride) (flags number source : Nat) : Bride :=
  let first := bit flags 0
  let part := if first then number else x.msgPart
  let whole := bit flags 1 && decide (part ≠ 0)
  { x with
    expect := x.expect + 1
    msgPart := if whole then 0 else part
    msgFrom := if first then source else x.msgFrom
    lastWhole := if whole then part else x.lastWhole }

/-- Puts a flit on a bride. -/
def State.flitOut (s : State) (f : FlitOut) : State := s.flitsOut [f]

/-- Whether a flit of 512 bytes passes its CRC (R309). -/
def flitClean (data : Bytes) : Bool := decide (data.length = 512) && decide ((crc64 (data.take 0x1F8)).toNat = field data 0x1F8 8)

/-- Puts a NAK flit on every lane of a bride's sending direction (R310, R314). -/
def State.nakOut (s : State) (b : Nat) (mask marker : BitVec 8) : State :=
  let x := s.bride b
  s.flitOut (.nak b (laneShares x.txHalf (nakBytes x.sendSeq x.expect mask marker)))

/-- Puts an idle flit on a bride, for its acknowledgement (R307). -/
def State.idleOut (s : State) (b : Nat) : State :=
  let x := s.bride b
  s.flitOut (.idle b (laneShares x.txHalf (idleBytes x.sendSeq (x.expect - 1))))

/-- A module is heard: a message from it has come whole (R261). -/
def State.hears (s : State) (peer : Nat) : State :=
  if s.groupPeers.contains peer then
    { s with fabric := { s.fabric with heard := (peer, s.now) :: s.fabric.heard.filter fun h => h.1 ≠ peer } }
  else s

/-- Whether the flit now received passes: its CRC, and no codeword that holds it uncorrectable; on eight lanes a codeword holds two flits, so the second
of two fails with the first (R308, R309, R314). -/
def Bride.passes (x : Bride) (data : Bytes) (uncorrectable : Nat) : Bool :=
  flitClean data && decide (uncorrectable = 0) && !(x.fecSecond && x.fecFailed)

/-- A bride with what FEC found in a flit counted (R308, R318): on eight lanes flits come in pairs, on four each has codewords of its own (R314). -/
def Bride.fec (x : Bride) (corrected uncorrectable : Nat) (clean : Bool) : Bride :=
  { x with
    fecFixed := sat64 x.fecFixed corrected, fecBad := satTo 32 (x.fecBad + uncorrectable), flits := sat64 x.flits (b2n clean)
    fecSecond := decide (x.lanes = 0xFF) && !x.fecSecond, fecFailed := decide (uncorrectable ≠ 0) && !x.fecSecond }

/-- FLIT: a flit comes in after FEC; one of a codeword that FEC could not correct fails, as one with a wrong CRC does; a flit is accepted in sequence and
clean, or dropped, and the expected number goes back (R308 to R310). What it acknowledges makes room in the replay buffer (R311), and an idle flit
acknowledges it where nothing else goes out. Only message flits are numbered (log 42); NAK and timing flits have their own rows. -/
def execFlit (bride : Nat) (data : Bytes) (corrected uncorrectable : Nat) (s : State) : Result :=
  need (decide (bride < 32)) .noSuchBride
    (let x := s.bride bride
    onlyIf (s.bridesRun && decide (x.state = 3 ∨ x.state = 5 ∨ x.state = 6)) s
      (let clean := x.passes data uncorrectable
      let x1 := x.fec corrected uncorrectable clean
      let kind := field data 4 1
      let x2 := if clean ∧ kind ≠ 2 then x1.acked (BitVec.ofNat 16 (field data 2 2) + 1) else x1
      let ordered := clean && decide (kind = 1 ∧ field data 0 2 = x.expect.toNat)
      if ordered then
        let x3 := x2.accept (field data 5 1) (field data 8 4) (field (data.take (0x0C + field data 6 2)) 0x10 2)
        let s0 := s.setBride bride x3
        let s1 := if x3.unsent = 0 then s0.idleOut bride else s0.pump bride
        if bit (field data 5 1) 1 then s1.hears x3.msgFrom else s1
      else if clean ∧ kind ≠ 1 then (s.setBride bride x2).pump bride
      else ((s.setBride bride x2).pump bride).nakOut bride 0 0))

/-- A bride that replays from `expected` on (R310, R313, R318). -/
def Bride.replay (x : Bride) (expected : BitVec 16) (now : Nat) : Bride :=
  let left := (x.sendSeq - expected).toNat
  if left = 0 ∨ x.unacked < left then x.acked expected
  else { x.acked expected with
    replays := satTo 32 (x.replays + left)
    sameReplays := if x.sameReplays ≠ 0 ∧ x.lastNak = expected then x.sameReplays + 1 else 1
    lastNak := expected
    recentReplays := now :: x.recentReplays.filter fun t => decide (now < t + 1000000) }

/-- A bride, as `x` says it stands, sends again every flit from the expected number on, in the original order, and then what has found room (R310, R311). -/
def State.replayBride (s : State) (b : Nat) (x : Bride) (expected : BitVec 16) : State :=
  let y := x.replay expected s.now
  let again := if x.unacked < (x.sendSeq - expected).toNat then 0 else y.unacked
  ((s.setBride b y).flitsOut (y.emit b again again)).pump b

/-- NAK: the sender replays from the expected number; one that announces a half of the lanes moves the sending direction there first (R310, R314). -/
def execNak (bride : Nat) (mask marker : BitVec 8) (expected : BitVec 16) (s : State) : Result :=
  need (decide (bride < 32)) .noSuchBride
    (let x := s.bride bride
    onlyIf (decide (x.state = 3 ∨ x.state = 5 ∨ x.state = 6)) s
      (let half := decide (marker = 0xD6 ∧ (mask = 0x0F ∨ mask = 0xF0))
      let s1 := s.replayBride bride { x.fec 0 0 true with flits := x.flits, txHalf := if half then mask else x.txHalf } expected
      if half ∧ x.state = 5 then s1.brideTo bride 6 else s1))

/-- BRIDE_DOWN: one flit replayed 16 times in succession, or more than 64 replays within 1 ms (R313). -/
def execBrideDown (bride : Nat) (s : State) : Result :=
  need (decide (bride < 32)) .noSuchBride
    (let x := s.bride bride
    let lately := (x.recentReplays.filter fun t => decide (s.now < t + 1000000)).length
    onlyIf (decide (x.state = 3 ∨ x.state = 5 ∨ x.state = 6) && decide (16 ≤ x.sameReplays ∨ 64 < lately)) s (s.brideTo bride 7))

/-- The half of the lanes with only good lanes, the lower first (R313). -/
def goodHalf (bad : BitVec 8) : Option (BitVec 8) :=
  if bad &&& 0x0F = 0 then some 0x0F else if bad &&& 0xF0 = 0 then some 0xF0 else none

/-- A lane taken out: the bride goes on on the half that holds only good lanes, and says so, or goes DOWN (R313, R314). -/
def State.dropLane (s : State) (b lane : Nat) : State :=
  let x := s.bride b
  let bad := x.laneOut ||| BitVec.ofNat 8 (2 ^ lane)
  let s1 := s.setBride b { x with laneOut := bad }
  if !bit x.lanes.toNat lane then s1
  else match goodHalf bad with
    | none => s1.brideTo b 7
    | some half =>
      let s2 := (s1.setBride b { x with laneOut := bad, lanes := half, fecSecond := false, fecFailed := false }).nakOut b half 0xD6
      if x.carries then s2.brideTo b 6 else s2

/-- A bride that has trained and not gone down since. -/
def Bride.trained (x : Bride) : Bool := decide (x.state = 3 ∨ x.state = 4 ∨ x.state = 5 ∨ x.state = 6)

/-- Whether a lane is to be taken out: it has lost lock, or more than 1 codeword in 10^4 of its last 1 ms is uncorrectable (R313). -/
def laneBad (l : LaneFault) : Bool := l.lost || decide (l.codewords < 10000 * l.uncorrectable)

/-- LANE_OUT (R313). -/
def execLaneOut (bride : Nat) (lane : LaneFault) (s : State) : Result :=
  need (decide (bride < 32)) .noSuchBride (onlyIf ((s.bride bride).trained && laneBad lane && decide (lane.lane < 8)) s (s.dropLane bride lane.lane))

/-- LOSS_OF_LOCK: the end that stops receiving takes its bride DOWN (R316). -/
def execLossOfLock (bride : Nat) (s : State) : Result :=
  need (decide (bride < 32)) .noSuchBride
    (let x := s.bride bride
    onlyIf (x.trained || decide (x.state = 2)) s (s.brideTo bride 7))

/-! ### Route switches and notices (R329 to R331) -/

/-- Whether message number `n` comes after `named`; numbers wrap at 32 bits (R329). -/
def laterNumber (named n : Nat) : Bool := decide (0 < (n + 2 ^ 32 - named) % 2 ^ 32 ∧ (n + 2 ^ 32 - named) % 2 ^ 32 < 2 ^ 31)

/-- Sends messages again, in order, over their routes, ahead of what waits there unsent (R329, R330). -/
def State.sendAhead (s : State) (ms : List Msg) : State :=
  ((ms.filterMap fun m => s.hop m.dest).dedup).foldl
    (fun u b => (u.setBride b ((u.bride b).queueAhead (ms.filter fun m => decide (s.hop m.dest = some b)))).pump b)
    { s with fabric := { s.fabric with out := ms.reverse ++ s.fabric.out } }

/-- Resends, whole and in order, what was queued on a bride after the named message, over the new routes (R329). -/
def State.resendBride (s : State) (b named : Nat) : State :=
  let x := s.bride b
  (s.setBride b { x with queued := [], unacked := 0, unsent := 0, noticeWait := none, noticed := none }).sendAhead
    ((x.queued.filter fun q => laterNumber named q.number).map (·.msg))

/-- ROUTE_SWITCH: after a bride has gone DOWN or OFF (R329, R330, R336). -/
def execRouteSwitch (bride : Nat) (s : State) : Result :=
  need (decide (bride < 32)) .noSuchBride
    (let x := s.bride bride
    onlyIf x.switchDue s
      (let s1 := ((s.setBride bride { x with switchDue := false, msgPart := 0, noticeWait := some s.now }).reroute).sendNotice bride
      match x.noticed with
      | some n => s1.resendBride bride n
      | none => s1))

/-- The links known of a peer after its notice; a bride that no longer carries traffic at one end carries none at the other (R325, R331, R336). -/
def noteLink (known : List (Nat × Nat × Nat)) (n : LinkNotice) : List (Nat × Nat × Nat) :=
  let rest := known.filter fun l => !decide (l.1 = slotOf n.source ∧ l.2.1 = n.bride)
  if n.state = 5 ∨ n.state = 6 then rest ++ [(slotOf n.source, n.bride, n.partnerId)]
  else rest.filter fun l => !decide (l.1 = slotOf n.partnerId ∧ groupOf n.partnerId = groupOf n.source ∧ l.2.1 = n.partnerBride ∧ l.2.2 = n.source)

/-- LINK_NOTICE: what the peer's bride does is noted, routes are recomputed, and for a bride that is down between the two ends the messages after the
named one go out again (R329 to R331, R336). -/
def execLinkNotice (n : LinkNotice) (s : State) : Result :=
  .next (onlyIf (s.isMember n.source && decide (n.source ≠ s.machineId)) s
    (let s0 := s.hears n.source
    let s1 : State :=
      if groupOf n.source = groupOf s.machineId then
        ({ s0 with fabric := { s0.fabric with peerLinks := noteLink s0.fabric.peerLinks n } }).reroute
      else s0
    let b := n.partnerBride
    let x := s1.bride b
    if n.partnerId = s.machineId ∧ b < 32 ∧ x.partnerId = n.source ∧ (n.state = 0 ∨ n.state = 7) then
      if x.noticeWait.isSome then s1.resendBride b n.lastWhole
      else if x.carries || x.switchDue then s1.setBride b { x with noticed := some n.lastWhole }
      else s1
    else s1))

/-- A recall for the step of a discarded message, unless its data is superseded; a step this module only carried messages of is known for the recall's
time alone (R256, R329). -/
def State.recallDiscarded (s : State) (m : Msg) : State :=
  match m.tag with
  | none => s
  | some t => match s.stepOf t with
    | none =>
      if s.stepOver t then s
      else
        let u := ((s.withStep t).setStep t fun r => { r with maxLineage := t.lineage }).raiseRecall t 4 t.layer 0xFFFF kModule 0
        { u with steps := { u.steps with live := u.steps.live.filter fun r => !sameStep t r } }
    | some r => if r.ended ∨ t.lineage.toNat < (floorAt r t.layer).toNat then s else s.raiseRecall t 4 t.layer 0xFFFF kModule 0

/-- LINK_NOTICE_TIMEOUT: no notice within 30 µs; the messages are discarded, a group peer is missing, and other messages' steps are recalled (R329). -/
def execLinkNoticeTimeout (bride : Nat) (s : State) : Result :=
  need (decide (bride < 32)) .noSuchBride
    (let x := s.bride bride
    let due : Bool := match x.noticeWait with | some t => decide (t + 30000 ≤ s.now) | none => false
    onlyIf due s
      (let s1 := s.setBride bride { x with queued := [], unacked := 0, unsent := 0, noticeWait := none }
      if s.groupPeers.contains x.partnerId then
        if s.fabric.missing.contains x.partnerId then s1 else s1.declareMissing x.partnerId 1
      else x.queued.foldl (fun u q => u.recallDiscarded q.msg) s1))

/-- Whether another group has no spare left: none in the configuration, or one that serves for a module already, as ROLE messages tell (R269). -/
def State.spareSpent (s : State) (g : Nat) : Bool :=
  (s.spareOf g).isNone || s.take.roles.any (fun e => groupOf e.1 = g) || s.take.moves.any fun mv => decide (groupOf mv.machine = g ∧ mv.holder ≠ mv.machine)

/-- The modules of another group that the motifs here are placed on, and that are lost with no spare to stand in: no message names them; that its links have changed
the group tells, and which are lost is a free value then (R269, R295; log 76). Commands that need one end. -/
def State.noteFarLoss (s : State) (g : Nat) : State :=
  let lost := (s.motifs.table.flatMap fun e => match e.2.prick with
    | some p => (p.shards.map (·.machineId)).filter fun id => decide (groupOf id = g)
    | none => []).filter fun id => !(s.take.roles.any fun e => e.1 = id) && decide (Config.remote id g s.now 45 0 % 2 = 1)
  if !s.spareSpent g || lost.isEmpty then s
  else ({ s with take := { s.take with farLost := lost.foldl (fun l i => insertAsc i l) s.take.farLost } } : State).endLost

/-- GROUP_LINKS: the bitmap of another group; the module it comes to over a link between the groups, from a module of the other group, forwards it to its
group peers (R331). -/
def execGroupLinks (group : LinksFrom) (topoVersion : Nat) (joined : List Nat) (s : State) : Result :=
  .next (onlyIf (decide (group.group < 256 ∧ group.group ≠ groupOf s.machineId) && s.isMember group.source) s
    (let s0 := s.hears group.source
    let s1 := ({ s0 with fabric := { s0.fabric with
      groupLinks := (group.group, joined) :: s0.fabric.groupLinks.filter fun g => g.1 ≠ group.group } }).reroute
    (if groupOf group.source ≠ groupOf s.machineId then s1.sendAll s1.groupPeers none (.groupLinks group.group topoVersion joined) else s1).noteFarLoss
      group.group))

/-- GROUP_LINKS_SEND: to each group to which this module is the lowest slot that holds a link (R331). -/
def execGroupLinksSend (s : State) : Result :=
  .next (onlyIf s.bridesRun s
    (s.ownJoined.foldl (fun u c => match s.linksTo c with
      | l :: _ =>
        if l.1 = slotOf s.machineId then
          u.send (u.msg l.2.2 none (.groupLinks (groupOf s.machineId) s.cfg.cur.topoVersion s.ownJoined))
        else u
      | [] => u) s))

/-- MESSAGE_FORWARD: a message for another module goes on by the route table, its header unchanged (R327). -/
def execMessageForward (bride : Nat) (msg : Msg) (s : State) : Result :=
  need (decide (bride < 32)) .noSuchBride (onlyIf (decide (msg.dest ≠ s.machineId)) s (s.send msg))

/-! ### Training, classing and the plan (R317 to R323) -/

/-- The partner a bride should reach, as (machine id, bride) (R320, R322, R332). -/
def State.expected (s : State) (b : Nat) : Option (Nat × Nat) :=
  if b < 15 then
    match s.cfg.cur.cables.find? fun c => c.1 = s.machineId with
    | none => none
    | some c => match c.2[b]? with
      | none => none
      | some e => if e.partner = 0xFFFF then none else some (e.partner, e.partnerBride)
  else if b < 31 then
    match s.cfg.cur.links[256 * groupOf s.machineId + 16 * slotOf s.machineId + (b - 15)]? with
    | none => none
    | some l => if l.valid then some (16 * l.partnerGroup + l.partnerLink / 16, 15 + l.partnerLink % 16) else none
  else
    match s.cfg.cur.spares[slotOf s.machineId]? with
    | none => none
    | some e => if e.valid then some (e.partner, 31) else none

/-- The plan's entry for a bride, where the configuration has one for this module. -/
def State.cable (s : State) (b : Nat) : Option CableEntry :=
  (s.cfg.cur.cables.find? fun c => c.1 = s.machineId).bind fun c => c.2[b]?

/-- Whether the plan gives a bride class 0, unused (R317, R320); without a record for this module every entry has its reset value, class 0 (R440). -/
def State.unusedBride (s : State) (b : Nat) : Bool := match s.cable b with | some e => decide (e.cls = 0) | none => true

/-- Whether a partner's record makes it a member (R321). -/
def State.memberRecord (s : State) (r : TrainRec) : Bool :=
  decide (r.machineTag = s.cfg.cur.machineTag ∧ r.machineId ≠ 0xFFFF) &&
    s.cfg.cur.members.any fun m => decide (m.machineId = r.machineId ∧ m.serial = r.serial)

/-- Who a bride has found. -/
def State.got (s : State) (b : Nat) : Nat × Nat := ((s.bride b).partnerId, (s.bride b).partnerBride)

/-- Code 4 SWAPPED: another trained bride that reached what `b` should reach, and the other way round (R322). -/
def State.swappedWith (s : State) (b : Nat) : Option Nat :=
  (List.range 32).find? fun c =>
    decide (c ≠ b) && ((s.bride c).trained || decide ((s.bride c).state = 2)) &&
      decide (some (s.got c) = s.expected b ∧ s.expected c = some (s.got b))

/-- The discovery code of a bride with a partner (R322). -/
def State.foundCode (s : State) (b : Nat) : Nat :=
  if !(s.bride b).member then 5
  else if s.expected b = some (s.got b) then 0
  else if (s.swappedWith b).isSome then 4
  else if (s.expected b).map (·.1) = some (s.got b).1 then 3
  else 2

/-- Reach of a bride in m (R301, R302). -/
def reach (b : Nat) : Nat := if b < 15 then 50 else 2000

/-- Whether a trained bride's length is beyond its reach or far from the plan (R322). -/
def State.lengthOff (s : State) (b : Nat) : Bool :=
  let l := (s.bride b).length
  decide (reach b < l) || (match s.cable b with
    | some e => decide (e.lengthM ≠ 0 ∧ (e.lengthM + 10 < l ∨ l + 10 < e.lengthM))
    | none => false)

/-- A discovery record of the fabric class; a bride that is MISSING has found none (R322, R389). -/
def State.evFound (s : State) (b code : Nat) : State :=
  let e := (s.expected b).getD (0xFFFF, 0xFF)
  let g := if code = 1 then (0xFFFF, 0xFF) else s.got b
  s.ev 4 code 10 kBride b (leBytes 2 e.1 ++ leBytes 1 e.2 ++ leBytes 2 g.1 ++ leBytes 1 g.2 ++
    leBytes 1 (if code = 4 then (s.swappedWith b).getD 0xFF else 0xFF))

/-- The bride for which a spare bride with the planned partner stands in (R305). -/
def State.standIn (s : State) (b code : Nat) : Option Nat :=
  if b = 31 ∧ code = 0 then (s.cfg.cur.spares[slotOf s.machineId]?).map (·.standsFor) else none

/-- A bride gets its code (R322): every code but MATCH is recorded when it is new since the bride began to train, and a change back to MATCH. -/
def State.classAs (s : State) (b code : Nat) : State :=
  let x := s.bride b
  let s1 := s.setBride b { x with report := code, classed := true, swappedWith := (if code = 4 then (s.swappedWith b).getD 0xFF else 0xFF),
                                  standsFor := s.standIn b code }
  if x.classed ∧ x.report = code then s1
  else if code = 0 ∧ x.report = 0 then s1
  else s1.evFound b code

/-- The LENGTH report (R322). -/
def State.classLength (s : State) (b : Nat) : State :=
  let x := s.bride b
  let off := x.trained && s.lengthOff b
  let s1 := s.setBride b { x with lengthReport := off }
  if off ∧ !x.lengthReport then s1.evFound b 6 else s1

/-- A bride classed, or left as it is while it has neither trained nor been given 2 s of good light (R322). -/
def State.classify (s : State) (b : Nat) : State :=
  let x := s.bride b
  let light := Tab.get Light.init s.fabric.light (b / 4)
  if x.trained then (s.classAs b (s.foundCode b)).classLength b
  else onlyIf (decide (light.state = 3 ∧ light.since + 2000000000 ≤ s.now) && (s.expected b).isSome) s (s.classAs b 1)

/-- BRIDE_CLASSING: at the end of the first exchange, or 2 s after the light-supply input became GOOD (R322). -/
def execBrideClassing (bride : Nat) (s : State) : Result := need (decide (bride < 32)) .noSuchBride (s.classify bride)

/-- The training record this module sends on a bride (R319): `plan` the verdict of the second exchange, `echo` the partner's last sent time. -/
def State.trainRec (s : State) (b echo : Nat) (plan : Bool) (lanes : BitVec 8) : TrainRec :=
  { echoTime := echo % 2 ^ 32
    machineTag := s.cfg.cur.machineTag
    serial := s.fw.serial
    bride := b
    slot := s.start.slot
    group := if s.cfg.read then groupOf s.machineId else 0xFFFF
    machineId := s.machineId
    role := if s.cfg.read then s.role else 0xFF
    planOk := plan
    spareUse := decide (b = 31) && (match s.cfg.cur.spares[slotOf s.machineId]? with | some e => e.valid | none => false)
    lanes := lanes
    fwVersion := s.fw.runningSlot.version
    configVersion := s.cfg.cur.version
    topoVersion := s.cfg.cur.topoVersion
    sentTime := s.now }

/-- The lanes of one direction after training: all eight, the half with only good lanes, or none (R313). -/
def trainedLanes (locked : BitVec 8) : BitVec 8 := if locked = 0xFF then 0xFF else (goodHalf (~~~locked)).getD 0

/-- A bride after its exchanges: partner, round trip, length, and numbers from the start (R307, R318, R319, R329). -/
def Bride.train (x : Bride) (r : TrainRec) (member : Bool) (rtt : Nat) (lanes : BitVec 8) : Bride :=
  { x with
    partnerId := r.machineId, partnerBride := r.bride, partnerSerial := r.serial, partnerTopo := r.topoVersion, member := member
    rtt := rtt % 65536, length := (rtt - 240) / 10 % 65536
    lanes := trainedLanes lanes, laneOut := 0, txHalf := if trainedLanes r.lanes = 0xFF then 0 else trainedLanes r.lanes
    fecSecond := false, fecFailed := false, expect := 0, sendSeq := 0, unacked := 0, unsent := 0, sameReplays := 0, recentReplays := [], lastNak := 0
    nextMsg := 1, lastWhole := 0, msgPart := 0, msgFrom := 0, queued := [], noticeWait := none, noticed := none, switchDue := false
    holdRecord := none }

/-- The state a trained bride takes (R313, R323). -/
def State.decision (s : State) (b : Nat) : Nat :=
  let x := s.bride b
  if !x.member then 4
  else if x.partnerTopo ≠ s.cfg.cur.topoVersion then 3
  else if x.lanes = 0 then 7
  else if x.lanes = 0xFF ∧ x.txHalf = 0 then 5 else 6

/-- TOPO_READY is sent once every changed bride is settled (R333). -/
def State.topoSettle (s : State) : State :=
  if s.fabric.reshape.isSome ∧ (List.range 32).all fun b => !(s.bride b).reshaping then
    ({ s with fabric := { s.fabric with reshape := none } }).sendAll s.groupPeers none (.topoReady s.cfg.cur.topoVersion)
  else s

/-- A bride that has become ACTIVE or DEGRADED: its partner is heard, and a changed bride is settled (R261, R333, R335). -/
def State.linked (s : State) (b : Nat) : State :=
  if (s.bride b).carries then ((s.setBride b { s.bride b with reshaping := false }).hears (s.bride b).partnerId).topoSettle else s

/-- The measured round trip: when the partner's echo came, less the echoed time of sending, less the partner's hold time (R319). -/
def roundTripNs (t : RoundTrip) (echo : Nat) : Nat := (t.received % 2 ^ 32 + 2 ^ 32 - echo) % 2 ^ 32 - t.hold

/-- The decision on a bride in training after its exchanges with a partner (R317 to R323, R335). -/
def State.trainWith (s : State) (bride : Nat) (r1 r2 : TrainRec) (rtt : RoundTrip) (lanes : BitVec 8) : State :=
  let x := s.bride bride
  let s1 := s.flitOut (.training bride (trainBytes (s.trainRec bride 0 false lanes)))
  let bothWays := trainedLanes lanes ≠ 0 ∧ trainedLanes r2.lanes ≠ 0
  let y := x.train r2 (s.memberRecord r2) (roundTripNs rtt r2.echoTime) lanes
  let s2 := s1.setBride bride (if bothWays then y else { y with lanes := 0 })
  let plan := decide (s2.foundCode bride = 0 ∨ s2.foundCode bride = 3 ∨ s2.foundCode bride = 4)
  let s3 := s2.flitOut (.training bride (trainBytes (s2.trainRec bride r1.sentTime plan lanes)))
  (s3.brideTo bride (s3.decision bride)).linked bride

/-- TRAINING: the partner's records of the two exchanges, the round trip and the locked lanes decide what a bride in training becomes; what is no training
record does not take part (R317 to R323, R335). -/
def execTraining (bride : Nat) (rec1 rec2 : Bytes) (rtt : RoundTrip) (lanes : BitVec 8) (s : State) : Result :=
  need (decide (bride < 32)) .noSuchBride (match readTrain rec1, readTrain rec2 with
    | some r1, some r2 =>
      onlyIf (s.bridesRun && decide ((s.bride bride).state = 2 ∧ r1.serial = r2.serial)) s (s.trainWith bride r1 r2 rtt lanes)
    | _, _ => s)

/-- When a bride may begin to train again by itself (R317). -/
def State.mayRetry (s : State) (b : Nat) : Bool :=
  let x := s.bride b
  if x.state = 1 then decide (x.triedAt + 100000000 ≤ s.now ∨ x.triedAt = 0)
  else if x.state = 7 then decide (x.stateTime + 100000000 ≤ s.now) && !x.switchDue
  else if x.state = 3 then decide (x.partnerTopo = s.cfg.cur.topoVersion) && !x.reshaping
  else decide (x.state = 4)

/-- TRAINING_RETRY: a DARK bride tries every 100 ms, a DOWN one 100 ms after it went down, a bride in HOLD when the versions agree, one in MISMATCH when
its partner retrains (R317), once its light-supply input has been GOOD for 100 ms (R315). -/
def execTrainingRetry (bride : Nat) (locked : Bool) (s : State) : Result :=
  need (decide (bride < 32)) .noSuchBride
    (let light := Tab.get Light.init s.fabric.light (bride / 4)
    onlyIf (s.bridesRun && s.mayRetry bride && !s.unusedBride bride && decide (light.state = 3 ∧ light.since + 100000000 ≤ s.now)) s
      ((s.setBride bride { s.bride bride with triedAt := s.now }).brideTo bride (if locked then 2 else 1)))

/-- HOLD: after 10 s in HOLD with different topology versions, and every 60 s after that (R334). -/
def execHold (bride : Nat) (s : State) : Result :=
  need (decide (bride < 32)) .noSuchBride
    (let x := s.bride bride
    let due : Bool := match x.holdRecord with
      | none => decide (x.stateTime + 10000000000 ≤ s.now)
      | some t => decide (t + 60000000000 ≤ s.now)
    onlyIf (decide (x.state = 3 ∧ x.partnerTopo ≠ s.cfg.cur.topoVersion) && due) s
      ((s.setBride bride { x with holdRecord := some s.now }).ev 4 16 0 kBride bride (leBytes 4 x.partnerTopo)))

/-! ### Re-shaping (R333) -/

/-- RESHAPE_DRAIN_END: a changed bride in HOLD whose flits are all acknowledged goes DOWN and retrains (R333). -/
def execReshapeDrainEnd (bride : Nat) (s : State) : Result :=
  need (decide (bride < 32)) .noSuchBride
    (let x := s.bride bride
    onlyIf (decide (x.state = 3 ∧ x.unacked = 0 ∧ x.unsent = 0) && x.reshaping) s (s.brideTo bride 7))

/-- RESHAPE_MISSING: a changed bride that has not trained since the commit 10 s after it is MISSING (R333). -/
def execReshapeMissing (bride : Nat) (s : State) : Result :=
  need (decide (bride < 32)) .noSuchBride
    (let x := s.bride bride
    let late : Bool := match s.fabric.reshape with | some t => decide (t + 10000000000 ≤ s.now) | none => false
    let trained := x.trained && (match s.fabric.reshape with | some t => decide (t < x.stateTime) | none => false)
    onlyIf (x.reshaping && late && !trained) s
      (((if (s.expected bride).isSome then s.classAs bride 1 else s).setBride bride
        { (if (s.expected bride).isSome then s.classAs bride 1 else s).bride bride with reshaping := false }).topoSettle))

/-- TOPO_READY of a group peer (R331, R333). -/
def execTopoReady (peer topoVersion : Nat) (s : State) : Result :=
  .next (onlyIf (s.groupPeers.contains peer) s
    ({ s.hears peer with fabric := { (s.hears peer).fabric with
      topoReady := (peer, topoVersion) :: s.fabric.topoReady.filter fun p => p.1 ≠ peer } }))

/-! ### Light supply (R315) -/

/-- The state of an input from its presence contact and its dark wavelengths (R315). -/
def lightState (present : Bool) (low : BitVec 8) : Nat := if !present then 0 else if low = 0xFF then 1 else if low = 0 then 3 else 2

/-- The brides of an input that has become ABSENT or LOW are OFF; those of a PARTIAL one lose the lanes of the dark wavelengths (R315). -/
def State.dimBride (s : State) (st : Nat) (low : BitVec 8) (b : Nat) : State :=
  if st = 3 then s
  else if st = 2 then
    (List.range 8).foldl (fun u l => if bit low.toNat l ∧ (u.bride b).trained then u.dropLane b l else u) s
  else s.brideTo b 0

/-- LIGHT_SUPPLY_CHANGE: an input changes its state or its dark wavelengths (R315, R389). Input 8 takes the host port down by its own row (R337). -/
def execLightSupplyChange (input : Nat) (present : Bool) (low : BitVec 8) (s : State) : Result :=
  need (decide (input < 9)) .noSuchInput
    (let old := Tab.get Light.init s.fabric.light input
    let st := lightState present low
    let dark := if present then low else 0xFF
    onlyIf (s.start.powerGood && (decide (3 ≤ s.start.stage) || s.restarting || s.start.rom) && (decide (st ≠ old.state) || decide (dark ≠ old.low))) s
      (let since := if st = old.state then old.since else s.now
      let s1 : State := { s with fabric := { s.fabric with
        light := Tab.put Light.init s.fabric.light input { state := st, low := dark, since := since } } }
      let s2 := s1.ev 4 18 0 kLight input (leBytes 1 st ++ leBytes 1 dark.toNat)
      if input = 8 then s2 else (List.range 4).foldl (fun u i => u.dimBride st low (4 * input + i)) s2))

/-- LIGHT_SUPPLY_GOOD: an input that has been GOOD for 100 ms lets its brides that are OFF train (R315, R317). -/
def execLightSupplyGood (input : Nat) (s : State) : Result :=
  need (decide (input < 9)) .noSuchInput
    (let l := Tab.get Light.init s.fabric.light input
    onlyIf (s.bridesRun && decide (l.state = 3 ∧ l.since + 100000000 ≤ s.now ∧ input < 8)) s
      ((List.range 4).foldl (fun u i =>
        let b := 4 * input + i
        if (u.bride b).state = 0 ∧ !u.unusedBride b then u.brideTo b 2 else u) s))

end Sys2Proof.Machine
end

