-- ==== Sys2Proof/Machine/Time.lean ====
section
/-! DEFINITION. The time unit: election, sources, timing flits, phase correction, the one step, slewing, references, PTP (R348 to R361). -/

namespace Sys2Proof.Machine

/-! ### Election (R350, R351) -/

/-- This module's candidacy (R352). -/
def State.candidacy (s : State) : Candidacy :=
  { machineId := s.machineId, group := groupOf s.machineId, serial := s.fw.serial, withdrawn := s.time.withdrawn,
    timePriority := s.portCfg.timePriority, pps := s.time.ppsValid, ref10m := s.time.refValid }

/-- The keys of R350, in order, as one number: lower ranks higher. -/
def candidateRank (c : Candidacy) : Nat :=
  ((b2n c.withdrawn * 256 + c.timePriority) * 3 + (if c.pps then 0 else if c.ref10m then 1 else 2)) * 65536 + c.machineId

/-- The highest-ranked of a candidacy and a list. -/
def highest (c : Candidacy) (l : List Candidacy) : Candidacy := l.foldl (fun a b => if candidateRank b < candidateRank a then b else a) c

/-- Candidacies heard within the last 300 ms (R351). -/
def fresh (now : Nat) (l : List Heard) : List Candidacy := (l.filter fun h => decide (now < h.at_ + 300000000)).map (·.cand)

/-- The candidacy of the group time reference (R351). -/
def State.groupCandidate (s : State) : Candidacy := highest s.candidacy (fresh s.now s.time.groupHeard)

/-- The lowest-index link to the next group on the path to a group, with its index (R355). -/
def State.gateTo (s : State) (g : Nat) : Option Nat :=
  match s.nextGroup g with
  | none => none
  | some c => (List.range 256).find? fun i => match s.linkAt i with | some l => decide (groupOf l.2.2 = c) | none => false

/-- The gate link of the group (R355), none in the machine master's. -/
def State.gate (s : State) : Option Nat :=
  match s.time.master with
  | none => none
  | some m => if groupOf m = groupOf s.machineId then none else s.gateTo (groupOf m)

/-- The election run again (R351). A change of the master's group changes the gate link (R355). -/
def State.elect (s : State) : State :=
  let g := s.groupCandidate
  let m := highest g (fresh s.now s.time.machineHeard)
  let s1 : State := { s with time := { s.time with groupRef := some g.machineId, master := some m.machineId } }
  let moved := (s.time.master.map groupOf) ≠ some (groupOf m.machineId)
  if moved then { s1 with time := { s1.time with gateLink := s1.gate, gateTheta := none, gateOffset := none } } else s1

/-- A list with a candidacy heard now. -/
def hearCandidate (now : Nat) (c : Candidacy) (l : List Heard) : List Heard :=
  { cand := c, at_ := now } :: l.filter fun h => h.cand.machineId ≠ c.machineId

/-- TIME_ELECT_SEND: own candidacy to the group peers, the group's reference over each global link held here (R351). -/
def execTimeElectSend (s : State) : Result :=
  .next (onlyIf (s.bridesRun && s.cfg.read) s
    (let s1 := s.elect
    let s2 := s1.sendAll s1.groupPeers none (.timeElect 0 s1.candidacy)
    (s1.ownLinks.filter fun l => groupOf l.2.2 ≠ groupOf s1.machineId).foldl
      (fun u l => u.send (u.msg l.2.2 none (.timeElect 1 s1.groupCandidate))) s2))

/-- TIME_ELECT: a candidacy of the group or of the machine; the far end of a global link passes the latter on to its group peers (R351). -/
def execTimeElect (source scope : Nat) (c : Candidacy) (s : State) : Result :=
  .next (
    if scope = 0 then
      onlyIf (s.groupPeers.contains source && decide (c.machineId = source)) s
        (let s1 := s.hears source
        ({ s1 with time := { s1.time with groupHeard := hearCandidate s.now c s1.time.groupHeard } } : State).elect)
    else
      onlyIf (decide (scope = 1 ∧ c.machineId ≠ s.machineId) && s.isMember source) s
        (let s1 := s.hears source
        let s2 := ({ s1 with time := { s1.time with machineHeard := hearCandidate s.now c s1.time.machineHeard } } : State).elect
        if groupOf source ≠ groupOf s.machineId then s2.sendAll s2.groupPeers none (.timeElect 1 c) else s2))

/-- Whether a list holds a candidate not heard for 300 ms. -/
def expired (now id : Nat) (l : List Heard) : Bool := l.any fun h => decide (h.cand.machineId = id ∧ h.at_ + 300000000 ≤ now)

/-- CANDIDATE_EXPIRY: a candidate not heard within 300 ms drops out (R351). -/
def execCandidateExpiry (scope id : Nat) (s : State) : Result :=
  .next (
    if scope = 0 then
      onlyIf (expired s.now id s.time.groupHeard) s
        ({ s with time := { s.time with groupHeard := s.time.groupHeard.filter fun h => h.cand.machineId ≠ id } } : State).elect
    else
      onlyIf (decide (scope = 1) && expired s.now id s.time.machineHeard) s
        ({ s with time := { s.time with machineHeard := s.time.machineHeard.filter fun h => h.cand.machineId ≠ id } } : State).elect)

/-! ### Roles and sources (R354, R358) -/

/-- 0 follower, 1 group time reference, 2 machine master (R358). -/
def State.timeRole (s : State) : Nat :=
  if s.time.master = some s.machineId then 2 else if s.time.groupRef = some s.machineId then 1 else 0

/-- The slot that holds the gate link is this module's (R355). -/
def State.isGate (s : State) : Bool := match s.time.gateLink with | some i => decide (i / 16 = slotOf s.machineId) | none => false

/-- The bride of the gate link, on the gate module. -/
def State.gateBride (s : State) : Option Nat :=
  if s.isGate then (s.time.gateLink.bind s.linkAt).map (·.2.1) else none

/-- The source and stratum of R354: the group time reference over a direct bride, or the lowest slot at stratum 1 that follows it. -/
def State.sourceNow (s : State) : Option (Nat × Nat) :=
  match s.time.groupRef with
  | none => none
  | some g =>
    if g = s.machineId then none
    else if (s.direct g).isSome then some (g, 1)
    else ((List.range 16).map s.peerAt).findSome? fun p => match s.direct p with
      | none => none
      | some b => if s.time.stamps.any fun x => decide (x.bride = b ∧ x.stratum = 1 ∧ x.refId = g) then some (p, 2) else none

/-- The source taken (R354); a new source starts with no offsets. -/
def State.pickSource (s : State) : State :=
  let src := s.sourceNow
  let s1 : State := { s with time := { s.time with
    source := src.map (·.1)
    stratum := if s.time.groupRef = some s.machineId then 0 else match src with | some x => x.2 | none => 0xFF } }
  if s1.time.source = s.time.source then s1 else { s1 with time := { s1.time with thetas := [] } }

/-- Whether the module has what it follows: the machine master itself, a group time reference a gate link that carries traffic, a follower a source
(R354 to R357). -/
def State.follows (s : State) : Bool :=
  if s.timeRole = 2 then true
  else if s.timeRole = 1 then (s.time.gateLink.bind s.linkAt).isSome
  else s.time.source.isSome

/-- What a lock-state record names as the source: 0xFFFF without one. -/
def State.sourceField (s : State) : Nat := s.time.source.getD 0xFFFF

/-- A module that becomes LOCKED (R357, R389). -/
def State.becomeLocked (s : State) : State :=
  ({ s with time := { s.time with lock := 2, everLocked := true, holdoverSince := 0 } } : State).ev 8 4 0 kTime 0 (leBytes 2 s.sourceField)

/-- A module that has lost its source (R357, R389). -/
def State.loseSource (s : State) (lost : Nat) : State :=
  if s.time.everLocked then
    ({ s with time := { s.time with lock := 3, holdoverSince := s.now, goodMs := 0 } } : State).ev 8 3 0 kTime 0 (leBytes 2 lost)
  else { s with time := { s.time with lock := 0, goodMs := 0 } }

/-- The lock state that R357 gives after the source `lost` or found. -/
def State.relock (s : State) (lost : Nat) : State :=
  if s.timeRole = 2 then (if s.time.lock = 2 then s else s.becomeLocked)
  else if s.time.lock = 0 ∨ s.time.lock = 3 then
    (if s.follows then { s with time := { s.time with lock := 1, goodMs := 0, holdoverSince := 0 } } else s)
  else if !s.follows then s.loseSource lost
  else if s.time.lock = 1 ∧ 16 ≤ s.time.goodMs then s.becomeLocked
  else s

/-- LOCK_STATE_CHANGE (R354, R357). In the safe state the time unit stays in HOLDOVER (R406). -/
def execLockStateChange (s : State) : Result :=
  .next (onlyIf (s.start.powerGood && s.cfg.read && !s.start.safe) s ((s.elect.pickSource).relock s.sourceField).drivePins)

/-- GATE_LINK_CHANGE: the next link takes over from one that is down (R355). -/
def execGateLinkChange (s : State) : Result :=
  .next (onlyIf (decide (s.time.gateLink ≠ s.gate)) s
    { s with time := { s.time with gateLink := s.gate, gateTheta := none, gateOffset := none } })

/-! ### Timing flits (R353) -/

/-- What the last timing flit of a bride's partner gave. -/
def State.stampOf (s : State) (b : Nat) : Option Stamp := s.time.stamps.find? fun x => x.bride = b

/-- The timing flit that leaves on a bride (R353). -/
def State.timingOut (s : State) (b : Nat) : TimingFlit :=
  { tx := s.time.t16 % 2 ^ 64
    txPrev := match s.stampOf b with | some x => x.tx | none => 0
    rxPrev := match s.stampOf b with | some x => x.rx | none => 0
    state := s.time.lock
    stratum := if s.time.lock = 2 then s.time.stratum else 0xFF
    refId := s.time.groupRef.getD 0xFFFF
    masterId := s.time.master.getD 0xFFFF }

/-- TIMING_FLIT_SEND (R353). -/
def execTimingFlitSend (bride : Nat) (s : State) : Result :=
  need (decide (bride < 32)) .noSuchBride (onlyIf (s.bride bride).carries s
    (let x := s.bride bride
    s.flitOut (.timing bride (laneShares x.txHalf (timingBytes (s.timingOut bride) x.sendSeq (x.expect - 1))))))

/-- A difference of two stamps modulo 2^64. -/
def stampDiff (a b : Nat) : Int := signed 64 (a + (2 ^ 64 - b % 2 ^ 64))

/-- θ of R353, in 2^-16 ns. -/
def thetaOf (f : TimingFlit) (rx : Nat) : Int := (stampDiff rx f.tx - stampDiff f.rxPrev f.txPrev) / 2

/-- d of R353, in 2^-16 ns. -/
def delayOf (f : TimingFlit) (rx : Nat) : Int := (stampDiff rx f.tx + stampDiff f.rxPrev f.txPrev) / 2

/-- A source's offset is noted for the millisecond's median (R354, R361). -/
def State.noteTheta (s : State) (b : Nat) (f : TimingFlit) (rx : Nat) : State :=
  let x := s.bride b
  let fromSource := decide (s.time.source = some x.partnerId ∧ some f.refId = s.time.groupRef)
  let s1 : State :=
    if fromSource then { s with time := { s.time with thetas := s.time.thetas ++ [thetaOf f rx], theta := thetaOf f rx, delay := delayOf f rx } } else s
  if s.gateBride = some b then { s1 with time := { s1.time with gateTheta := some (thetaOf f rx, delayOf f rx) } } else s1

/-- The fields of a timing flit as it has come (R353). -/
def readTiming (b : Bytes) : TimingFlit :=
  { tx := field b 0x010 8, txPrev := field b 0x018 8, rxPrev := field b 0x020 8, state := field b 0x028 1, stratum := field b 0x029 1
    refId := field b 0x02A 2, masterId := field b 0x02C 2 }

/-- What a timing flit that has come whole gives: the offset and the delay to its sender, once the sender has echoed a flit of this module's, and what the
next one echoes (R353, R361). -/
def State.takeTiming (s : State) (bride : Nat) (f : TimingFlit) (rx : Nat) : State :=
  let s1 := if f.txPrev = 0 ∧ f.rxPrev = 0 then s else s.noteTheta bride f rx
  { s1 with time := { s1.time with
    stamps := { bride := bride, tx := f.tx, rx := rx % 2 ^ 64, state := f.state, stratum := f.stratum, refId := f.refId, masterId := f.masterId } ::
      s1.time.stamps.filter fun x => x.bride ≠ bride } }

/-- TIMING_FLIT: stamped with module time on arrival; one that fails its CRC or its FEC is dropped, and its ack releases flits like an idle flit's
(R307, R310, R353). -/
def execTimingFlit (bride : Nat) (f : Bytes) (rx : Nat × Nat) (s : State) : Result :=
  need (decide (bride < 32)) .noSuchBride
    (onlyIf (s.bride bride).carries s
      (let x := s.bride bride
      let clean := x.passes f rx.2
      let x1 := x.fec rx.1 rx.2 clean
      if clean && decide (field f 0x004 1 = 3) then
        ((s.setBride bride (x1.acked (BitVec.ofNat 16 (field f 0x002 2) + 1))).pump bride).takeTiming bride (readTiming f) s.time.t16
      else s.setBride bride x1))

/-! ### Phase (R348, R349, R354 to R356) -/

/-- The median of a list of offsets; of an even number, half the sum of the middle two. -/
def medianI (l : List Int) : Option Int :=
  let a := l.mergeSort (fun x y => decide (x ≤ y))
  match a[a.length / 2]? with
  | none => none
  | some hi => if a.length % 2 = 1 then some hi else some ((a.getD (a.length / 2 - 1) 0 + hi) / 2)

/-- The correction of the next millisecond for an offset, at most 10 ppm (R348; proportional, log 43). -/
def phasePpb (theta : Int) : Int := clampI (-10000) 10000 (-theta * 1000 / 65536)

/-- The offset a module corrects its phase by at the end of a millisecond; a group time reference whose gate link is down has none (R354 to R356). -/
def State.measured (s : State) : Option Int :=
  if s.timeRole = 1 then (if s.follows then s.time.gateOffset else none) else medianI s.time.thetas

/-- The frequency correction that a machine master's reference inputs call for; none without a valid one (R356). -/
def State.discipline (s : State) : Int := if s.timeRole = 2 ∧ (s.time.ppsValid ∨ s.time.refValid) then s.time.freq else 0

/-- The time unit after a millisecond's correction by `theta`, if there is one, on top of a frequency correction; `hold` keeps the last frequency
(R348, R354 to R357). -/
def TimeUnit.correct (u : TimeUnit) (theta : Option Int) (freq : Int) (hold : Bool) : TimeUnit :=
  match theta with
  | none => { u with thetas := [], gateOffset := none, goodMs := 0, ppb := if hold then u.ppb else if u.rate = 0 then freq else 0 }
  | some t => { u with
      thetas := [], gateOffset := none, offset := t, ppb := if u.rate = 0 then clampI (-10000) 10000 (freq + phasePpb t) else 0
      goodMs := if t.natAbs < 50 * 65536 then u.goodMs + 1 else 0 }

/-- What the gate module sends to its group time reference every millisecond (R352, R355): the gate link's θ less its own offset. -/
def State.sendOffset (s : State) : State :=
  match s.time.gateTheta, s.time.groupRef with
  | some (t, d), some g =>
    if s.gateBride.isNone then s
    else if g = s.machineId then { s with time := { s.time with gateOffset := some t, theta := t, delay := d } }
    else s.send (s.msg g none (.timeOffset s.time.lock s.time.stratum (s.time.gateLink.getD 0xFF) (s.time.master.getD 0xFFFF) (t - s.time.offset) d))
  | _, _ => s

/-- PHASE_CORRECTION: every 1 ms (R354, R355, R361: the source's change follows the correction). -/
def execPhaseCorrection (s : State) : Result :=
  .next (onlyIf s.start.powerGood s
    (let t := s.sendOffset
    ({ t with time := t.time.correct t.measured t.discipline (decide (t.time.lock = 3) || !t.follows) } : State).pickSource))

/-- TIME_OFFSET: from the gate module to its group time reference (R352, R355). -/
def execTimeOffset (source state stratum gateLink master : Nat) (offset delay : Int) (s : State) : Result :=
  .next (onlyIf (s.groupPeers.contains source && decide (s.timeRole = 1 ∧ s.time.gateLink = some gateLink ∧ gateLink / 16 = slotOf source) &&
      decide (state < 4 ∧ stratum < 256 ∧ some master = s.time.master)) s
    (let s1 := s.hears source
    { s1 with time := { s1.time with gateOffset := some offset, theta := offset, delay := delay } }))

/-- Whether a slew at a rate is over: a module that was ahead is less than 1 µs ahead, one that was behind within 1 µs (R349). -/
def slewDone (rate : Nat) (offset : Int) : Bool :=
  if rate = 1 then decide (offset < 1000 * 65536) else decide (-(1000 * 65536) < offset)

/-- SLEW: half or one and a half times rate while more than 1 ms off after the first step, until within 1 µs (R349). -/
def execSlew (s : State) : Result :=
  .next (
    let u := s.time
    if u.rate ≠ 0 then onlyIf (slewDone u.rate u.offset) s { s with time := { u with rate := 0 } }
    else onlyIf (u.stepped && decide (1000000 * 65536 < u.offset.natAbs)) s
      (({ s with time := { u with rate := if 0 < u.offset then 1 else 2, ppb := 0 } } : State).ev 8 2 0 kTime 0 (leBytes 8 (unsigned 64 (u.offset / 65536)))))

/-- A module time moved by a step of `d` ns. -/
def moveTime (d : Int) (t : Nat) : Nat := ((t : Int) + d).toNat

/-- A sensor whose noted times are moved by a step. -/
def Sensor.moved (x : Sensor) (d : Int) : Sensor :=
  { x with
    hist := x.hist.map fun e => (moveTime d e.1, e.2), calmSince := moveTime d x.calmSince, quietSince := x.quietSince.map (moveTime d)
    healSince := x.healSince.map (moveTime d), still := x.still.map fun e => (moveTime d e.1, e.2)
    medians := x.medians.map fun e => (moveTime d e.1, e.2) }

/-- The times from which running durations are counted, moved by a step so that no duration is cut short or drawn out (log 43). -/
def State.moved (s : State) (d : Int) : State :=
  { s with
    thermal := { s.thermal with
      sensor := s.thermal.sensor.map fun e => (e.1, e.2.moved d)
      hotSince := s.thermal.hotSince.map (moveTime d), coolSince := s.thermal.coolSince.map (moveTime d) }
    fabric := { s.fabric with
      heard := s.fabric.heard.map fun e => (e.1, moveTime d e.2)
      light := s.fabric.light.map fun e => (e.1, { e.2 with since := moveTime d e.2.since }) }
    time := { s.time with
      groupHeard := s.time.groupHeard.map fun h => { h with at_ := moveTime d h.at_ }
      machineHeard := s.time.machineHeard.map fun h => { h with at_ := moveTime d h.at_ }
      ppsLast := s.time.ppsLast.map (moveTime d) }
    port := { s.port with
      qps := s.port.qps.map fun q => { q with
        since := moveTime d q.since, cnpSent := q.cnpSent.map (moveTime d), cnpGot := q.cnpGot.map (moveTime d) }
      pausedTx := s.port.pausedTx.map fun e => (e.1, moveTime d e.2)
      out := s.port.out.map fun f => { f with held := f.held.map (moveTime d) } }
    log := { s.log with recent := s.log.recent.map fun e => (e.1, moveTime d e.2) }
    arrays := { s.arrays with freezeUntil := s.arrays.freezeUntil.map (moveTime d) }
    mem := { s.mem with scrubbed := moveTime d s.mem.scrubbed }
    start := { s.start with stageStart := moveTime d s.start.stageStart } }

/-- TIME_STEP: once, on first reaching LOCKED, to the reference's time (R348). -/
def execTimeStep (reference : Nat) (s : State) : Result :=
  .next (onlyIf (decide (s.time.lock = 2) && !s.time.stepped) s
    (let before := s.now
    let s1 : State := { s with time := { s.time with t16 := reference % 2 ^ 80, fine := 0, stepped := true, thetas := [], stamps := [] } }
    (s1.moved ((s1.now : Int) - before)).ev 8 1 0 kTime 0 (leBytes 8 before)))

/-! ### Reference inputs and outputs (R356) -/

/-- How far module time is from a whole second, in 2^-16 ns. -/
def secondError (t16 : Nat) : Int :=
  let r := t16 % (1000000000 * 65536)
  if 2 * r < 1000000000 * 65536 then (r : Int) else (r : Int) - (1000000000 * 65536 : Nat)

/-- The frequency correction after a further error of `ppb`, within the 10 ppm of R348. -/
def TimeUnit.discipline (u : TimeUnit) (ppb : Int) : TimeUnit := { u with freq := clampI (-10000) 10000 (u.freq + ppb) }

/-- PPS_IN_EDGE: the machine master with a valid `PPS_IN` aligns whole seconds to the edge, through its next correction, and without a valid
`REF10M_IN` disciplines its frequency to the interval between pulses (R348, R356, R361; log 43). -/
def execPpsInEdge (s : State) : Result :=
  .next (onlyIf s.start.powerGood s
    (let u : TimeUnit := { s.time with ppsLast := some s.now }
    if s.timeRole = 2 ∧ s.time.ppsValid then
      (let v : TimeUnit := { u with thetas := [secondError s.time.t16] }
      { s with time := match s.time.ppsLast with
          | some t => if s.time.refValid then v else v.discipline (1000000000 - ((s.now : Int) - t))
          | none => v })
    else { s with time := u }))

/-- PPS_IN after its last intervals: valid after three pulses 1 s ± 1 µs apart, invalid after 1.5 s without one (R356). -/
def State.ppsNow (s : State) (intervals : List Nat) : Bool :=
  let lately := match s.time.ppsLast with | some t => decide (s.now < t + 1500000000) | none => false
  let good := match intervals with
    | a :: b :: _ => decide (999999000 ≤ a ∧ a ≤ 1000001000 ∧ 999999000 ≤ b ∧ b ≤ 1000001000)
    | _ => false
  bit s.portCfg.refEnable 0 && lately && (s.time.ppsValid || good)

/-- REFERENCE_VALIDITY; the machine master's frequency follows a valid `REF10M_IN` (R351, R356; log 43). -/
def execReferenceValidity (input : Nat) (intervals : List Nat) (hz : Nat) (s : State) : Result :=
  .next (
    if input = 0 then ({ s with time := { s.time with ppsValid := s.ppsNow intervals } } : State).elect
    else onlyIf (decide (input = 1)) s
      (let ok := bit s.portCfg.refEnable 1 && decide (9999900 ≤ hz ∧ hz ≤ 10000100)
      let u := if ok ∧ s.timeRole = 2 then s.time.discipline (100 * ((hz : Int) - 10000000)) else s.time
      ({ s with time := { u with refValid := ok } } : State).elect))

/-- PPS_OUT_EDGE: at each whole second of module time in LOCKED and HOLDOVER, that is, in the idle nanosecond that brings module time to it or past it
(R356, R464). -/
def execPpsOutEdge (s : State) : Result :=
  .next (onlyIf (decide (s.time.lock = 2 ∨ s.time.lock = 3) && decide (s.now % 1000000000 < 2)) s
    { s with start := { s.start with ppsOut := true, refOut := true } })

/-! ### PTP (R360) -/

/-- The clockClass announced (R358, R360). -/
def clockClass (lock : Nat) : Nat := if lock = 2 then 13 else if lock = 3 then 14 else 248

/-- clockIdentity: the MAC address with FFFE between its halves (IEEE 1588; PRESUMED, log 83). -/
def clockIdentity (mac : Nat) : Nat := mac / 2 ^ 24 * 2 ^ 40 + 0xFFFE * 2 ^ 24 + mac % 2 ^ 24

/-- The transports the clock runs over: UDP on IPv4 where the port has an address, UDP on IPv6, IEEE 802.3 (R338, R360). -/
def State.ptpTransports (s : State) : List Nat := if s.portCfg.ipv4Prefix = 0 then [1, 2] else [0, 1, 2]

/-- The head of this module's PTP messages on a transport. -/
def State.ptpHead (s : State) (transport : Nat) : PtpHead :=
  { transport := transport, domain := s.portCfg.ptpDomain, clockIdentity := clockIdentity s.fw.mac }

/-- PTP_ANNOUNCE_SEND: clockClass by the lock state, priority1 128, the timescale ARB, currentUtcOffset 0 (R360). -/
def execPtpAnnounceSend (s : State) : Result :=
  .next (onlyIf s.port.up s (s.ptpTransports.foldl
    (fun u t => u.toHost (.ptpAnnounce (s.ptpHead t) (clockClass s.time.lock) 128 s.portCfg.ptpPriority2 0 false)) s))

/-- PTP_SYNC_SEND: Sync and its Follow_Up with the time of the Sync (R360). -/
def execPtpSyncSend (s : State) : Result :=
  .next (onlyIf s.port.up s
    (let n := s.port.ptpSequence
    let s1 := s.ptpTransports.foldl (fun u t => (u.toHost (.ptpSync (s.ptpHead t) n)).toHost (.ptpFollowUp (s.ptpHead t) n s.now)) s
    { s1 with port := { s1.port with ptpSequence := (n + 1) % 65536 } }))

/-- DELAY_REQ of the port's PTP domain: answered on its transport with the time of its receipt; another domain's is ignored (R360; log 83). -/
def execDelayReq (clock : Nat) (sequence : DelayReq) (s : State) : Result :=
  .next (onlyIf (s.port.up && s.ptpTransports.contains sequence.transport && decide (sequence.domain = s.portCfg.ptpDomain)) s
    (s.toHost (.ptpDelayResp (s.ptpHead sequence.transport) clock sequence.sequence s.now)))

/-- ANNOUNCE of another clock: ignored (R360). -/
def execAnnounce (_clock : Nat) (s : State) : Result := .next s

end Sys2Proof.Machine
end

