-- ==== Sys2Proof/Machine/Health.lean ====
section
/-! DEFINITION. `HEALTH_READ` and its reports (R140, R247, R318, R324, R347, R358, R393 to R397, R414 to R416, R421), owner lock and attestation (R449 to R452). -/

namespace Sys2Proof.Machine

/-! ### Counters (R394) -/

/-- Islands retired since manufacture. -/
def State.islandsRetired (s : State) : Nat := (s.islands.island.filter fun e => e.2.state = 2).length

/-- The 25 counts of the counter summary, lowest offset first. -/
def State.counts (s : State) : List Nat :=
  let c := s.counters
  [satTo 64 s.log.written, satTo 64 s.log.lost, c.suspects, c.skipped, c.recalls, c.replays, c.audits, c.auditsDropped, c.faultsBefore, c.faultsAfter,
   c.dupAudits, c.dupFaults, c.memCorrected, c.memUncorrectable, c.stagingCorrected, c.stagingUncorrectable, c.scrubPasses,
   satTo 64 s.mem.retired.length, c.marginRuns, c.marginFailures, s.arrays.retired.length, s.islandsRetired, c.heartbeatsMissed, c.voidRows,
   s.log.suppressed]

/-- Selector 0x00. -/
def counterReport (s : State) : Bytes := s.counts.flatMap (leBytes 8)

/-! ### Arrays and islands (R395, R396) -/

/-- Whether an array is in a 24 h window of R383 or R384. -/
def State.watched (s : State) (a : Nat) : Bool :=
  let recent := fun (t : Option Nat) => match t with | some t => decide (s.now < t + 86400000000000) | none => false
  recent (s.array a).suspectRefresh || recent (s.array a).faultRefresh

/-- The flags of an array health record. -/
def State.arrayFlags (s : State) (a : Nat) : Nat :=
  b2n (s.array a).due.isSome + 2 * b2n (s.array a).onTambour + 4 * b2n (s.hotDue a) + 8 * b2n (s.watched a)

/-- The service code of an array health record. -/
def serviceCode : Service → Nat
  | .free => 0
  | .serving => 1
  | .draining => 2
  | .out => 3

/-- An array health record. -/
def arrayRecord (s : State) (a : Nat) : Bytes :=
  let x := s.array a
  let p := s.physOf a
  layout 16 [(0x00, 2, a), (0x04, 2, gridRow p), (0x06, 2, gridCol p), (0x08, 1, serviceCode x.service),
    (0x09, 1, (s.phys p).calState), (0x0A, 1, s.arrayFlags a), (0x0B, 1, satTo 8 (recent30 s.now (s.phys p).marginal).length),
    (0x0C, 2, x.suspects), (0x0E, 2, x.auditFaults)]

/-- An island health record. -/
def islandRecord (s : State) (i : Nat) : Bytes :=
  let x := s.island i
  layout 8 [(0x00, 1, (islandKind i).1), (0x02, 2, (islandKind i).2), (0x04, 1, x.state),
    (0x05, 1, satTo 8 (recent30 s.now x.marginal).length), (0x06, 2, x.outvotes)]

/-! ### Knots, links, routes, time (R247, R318, R324, R358) -/

/-- The 128 bits of a knot. -/
def knotRecord (k : Knot) : Bytes :=
  layout 16 [(0x00, 4, k.count.toNat), (0x04, 4, k.threshold.toNat), (0x08, 4, k.guard.toNat), (0x0C, 1, k.refused),
    (0x0D, 1, 64 * k.state), (0x0E, 2, k.owner)]

/-- A link status record. -/
def linkRecord (s : State) (b : Nat) : Bytes :=
  let x := s.bride b
  layout 64 [(0x00, 8, x.standsFor.getD 0xFF), (0x08, 8, x.partnerSerial), (0x10, 1, b), (0x11, 1, x.state), (0x12, 1, b / 4),
    (0x13, 1, x.lanes.toNat), (0x14, 1, x.report), (0x15, 1, x.partnerBride), (0x16, 2, x.partnerId), (0x18, 2, x.length), (0x1A, 2, x.rtt),
    (0x1C, 4, x.downs), (0x20, 4, x.replays), (0x24, 4, x.fecBad), (0x28, 8, x.fecFixed), (0x30, 8, x.flits), (0x38, 8, x.stateTime)]

/-- A route table entry as its 32 bits. -/
def routeWord (r : Route) : Nat :=
  r.first % 32 * 2 ^ 27 + r.alt % 32 * 2 ^ 22 + r.kind % 4 * 2 ^ 20 + r.hops % 16 * 2 ^ 16 + r.exit % 65536

/-- The time unit's record. -/
def timeRecord (s : State) : Bytes :=
  let u := s.time
  layout 64 [(0x07, 1, u.lock), (0x08, 1, s.timeRole), (0x09, 1, u.stratum), (0x0A, 1, b2n u.ppsValid + 2 * b2n u.refValid),
    (0x0B, 1, clockClass u.lock), (0x0C, 2, u.groupRef.getD 0xFFFF), (0x0E, 2, u.master.getD 0xFFFF), (0x10, 2, u.source.getD 0xFFFF),
    (0x12, 2, if s.timeRole = 1 ∨ s.isGate then u.gateLink.getD 0xFFFF else 0xFFFF), (0x14, 4, unsigned 32 u.ppb),
    (0x18, 8, unsigned 64 u.theta), (0x20, 8, unsigned 64 u.delay), (0x28, 8, if u.lock = 3 then u.holdoverSince else 0)]

/-- The last LLDP frame received, after its length. -/
def lldpReport (s : State) : Bytes :=
  match s.port.lastLldp with
  | none => leBytes 2 0
  | some f => leBytes 2 f.length ++ f

/-! ### Layer records (R140, R397) -/

/-- A layer precision record, of the generation in force (R140, R146). -/
def precisionRecord (s : State) (motif : Nat) (r : LayerRec) : Bytes :=
  let p := s.prec motif (s.motif motif).gen.toNat r.layer
  layout 64 [(0x00, 4, p.windows), (0x06, 2, r.layer), (0x08, 1, motif), (0x09, 1, p.format + 4 * r.baseFormat), (0x0A, 2, satTo 16 p.quiet),
    (0x0C, 4, satTo 32 p.fallbacks), (0x10, 8, p.rOvr), (0x18, 8, p.rConversions), (0x20, 8, p.rNsat), (0x28, 8, p.rOutputs),
    (0x30, 8, p.rZeroed), (0x38, 8, p.rElements)]

/-- A layer attention record, of the generation in force. -/
def attentionRecord (s : State) (motif : Nat) (r : LayerRec) : Bytes :=
  let p := s.prec motif (s.motif motif).gen.toNat r.layer
  layout 32 [(0x00, 2, r.layer), (0x02, 1, motif), (0x08, 8, p.rows), (0x10, 8, p.voidRows), (0x18, 8, p.shadowPages)]

/-- The layers of a motif this module owns, or those whose spread includes it. -/
def State.layerRecords (s : State) (p : Pricking) (owned : Bool) : List LayerRec :=
  p.layers.filter fun r => if owned then s.owns r else (s.spreadIds r).contains s.machineId

/-! ### Thermal and power reports (R415, R416) -/

/-- The last reading as a record's field. -/
def Sensor.readingField (x : Sensor) : Nat := match x.hist with | e :: _ => unsigned 16 e.2 | [] => 0x8000

/-- A sensor record. -/
def sensorRecord (s : State) (i : Nat) : Bytes :=
  let x := s.sensor i
  layout 16 [(0x00, 2, i), (0x02, 1, sensorKind i), (0x03, 1, x.state), (0x04, 2, x.readingField), (0x06, 2, rateField (x.rise win2s) 1),
    (0x08, 2, rateField (x.rise win250) 8), (0x0A, 2, rateField x.rise10 200), (0x0C, 1, b2n x.fast + 2 * b2n x.noticed + 4 * b2n x.band)]

/-- The governor record. -/
def governorRecord (s : State) : Bytes :=
  let t := s.thermal
  layout 64 [(0x12, 2, (s.thermal.sensor.filter fun e => e.2.state ≠ 0).length), (0x14, 2, s.cfg.cur.budget), (0x16, 2, s.cfg.budget),
    (0x18, 1, b2n s.start.safe + 2 * b2n s.start.hwTrip + 4 * b2n t.inputLow), (0x19, 1, t.level), (0x1A, 1, t.powerLevel),
    (0x1B, 1, s.brokenFloor), (0x1C, 1, s.level), (0x1D, 1, ladderWmax s.level), (0x1E, 2, ladderChunk s.level), (0x20, 2, t.shareGov),
    (0x22, 2, s.arrays.share), (0x24, 2, t.powerW), (0x26, 2, t.recentW.foldl max 0), (0x28, 4, t.inputMv), (0x2C, 4, t.inputMa),
    (0x30, 8, t.throttled), (0x38, 8, t.energyNj / 1000000)]

/-- A monitor result register (R421). -/
def monitorRecord (s : State) (i : Nat) : Bytes :=
  let e := s.monEntry i
  layout 16 [(0x00, 1, i), (0x01, 1, e.channel), (0x02, 2, e.code),
    (0x04, 2, b2n e.ovr + 2 * b2n e.under + 4 * b2n e.outside + 8 * b2n e.late + 16 * b2n e.valid), (0x06, 2, e.count.toNat), (0x08, 8, e.time)]

/-! ### HEALTH_READ (R393, R414) -/

/-- The records of `n` things in order. -/
def records (n : Nat) (f : Nat → Bytes) : Bytes := (List.range n).flatMap f

/-- The report of a selector below 0x10 or from 0x30 on. -/
def fixedReport (s : State) (sel : Nat) : Bytes :=
  if sel = 0x00 then counterReport s
  else if sel = 0x01 then records Config.arrays (arrayRecord s)
  else if sel = 0x02 then records 252 (islandRecord s)
  else if sel = 0x03 then records 4096 fun k => knotRecord (s.knot k)
  else if sel = 0x04 then records 32 (linkRecord s)
  else if sel = 0x05 then records 4096 fun i => leBytes 4 (routeWord (Tab.get Route.init s.fabric.route i))
  else if sel = 0x06 then timeRecord s
  else if sel = 0x07 then lldpReport s
  else if sel = 0x30 then records 196 (sensorRecord s)
  else if sel = 0x31 then governorRecord s
  else records 32 (monitorRecord s)

/-- A report of a motif's layers, where this module holds a shard of it. -/
def layerReport (s : State) (sel : Nat) : Option Bytes :=
  let motif := sel % 16
  let e := s.motif motif
  match s.prickNow motif with
  | none => none
  | some p =>
    if e.mirror.isNone ∧ ¬ (p.shards.any fun x => s.holder x.machineId = s.machineId) then none
    else if sel < 0x20 then some ((s.layerRecords p true).flatMap (precisionRecord s motif))
    else some ((s.layerRecords p false).flatMap (attentionRecord s motif))

/-- HEALTH_READ (R63, R393, R414). -/
def execHealthRead (m : Nat) (s : State) : Result := command m opHealthRead s fun t =>
  if t.xferOf m ≠ .none then t
  else
    let sel := field (t.entryOf m) 0x08 1
    if 0x10 ≤ sel ∧ sel < 0x30 then
      match layerReport t sel with
      | some b => t.deliver m b
      | none => t.failCmd m stNoMotif 0
    else t.deliver m (fixedReport t sel)

/-! ### Owner lock (R449) -/

/-- The OWNER_LOCK action that a row carries out. -/
def lockAction (s : State) (m : Nat) : Nat := field (s.entryOf m) 0x08 1

/-- OWNER_LOCK with lock_action 1 (R449). -/
def execOwnerLockSet (m : Nat) (s : State) : Result := command m opOwnerLock s fun t =>
  onlyIf (decide (lockAction t m = 1)) t
    (if t.fw.lock.isSome then t.failCmd m stLocked 0
     else (({ t with fw := { t.fw with lock := some (field (t.entryOf m) 0x0C 4) } } : State).evUpdate 10 (leBytes 1 1)).okCmd m 0)

/-- OWNER_LOCK with lock_action 0 (R449). -/
def execOwnerLockClear (m : Nat) (s : State) : Result := command m opOwnerLock s fun t =>
  onlyIf (decide (lockAction t m = 0)) t
    (match t.fw.lock with
     | none => t.okCmd m 0
     | some k =>
       if k = field (t.entryOf m) 0x0C 4 then (({ t with fw := { t.fw with lock := none } } : State).evUpdate 10 (leBytes 1 0)).okCmd m 0
       else t.failCmd m stLockKey 0)

/-! ### Attestation (R450 to R452) -/

/-- The body of an image: every block but its last, as stored (R426, R428). -/
def imageBody (image : Bytes) : Bytes := image.take (image.length - 65536)

/-- The digest D of an image (R428). -/
def imageDigest (image : Bytes) : Bytes := shake256 64 (imageBody image)

/-- The current configuration slot. -/
def ConfigState.current (c : ConfigState) : CfgSlot := if c.slotA.state = .current then c.slotA else c.slotB

/-- The certificate chain, each certificate after its length (R451). -/
def chainBytes : Bytes :=
  leBytes 4 (Config.deviceCert 0).length ++ Config.deviceCert 0 ++ leBytes 4 (Config.deviceCert 1).length ++ Config.deviceCert 1

/-- The body of a quote (R451). -/
def quoteBody (s : State) (nonce : Bytes) : Bytes :=
  let cfg := s.cfg.current.image
  let head := layout 0x200 [(0x000, 4, 0x51414657), (0x004, 2, 0x0001), (0x006, 2, 0x0810), (0x008, 8, s.fw.serial), (0x010, 2, s.machineId),
    (0x012, 1, s.role), (0x013, 1, b2n s.fw.lock.isSome + 2 * b2n s.arrays.freezeUntil.isSome), (0x014, 4, s.fw.runningSlot.version),
    (0x018, 4, s.fw.floor.toNat), (0x01C, 4, s.cfg.cur.version), (0x020, 8, s.now), (0x028, 4, 3309), (0x02C, 4, chainBytes.length)]
  overlay (overlay (overlay (overlay (overlay head 0x030 nonce)
    0x050 ((List.range 64).map Config.romDigest))
    0x090 (if s.start.rom then zeros 64 else imageDigest s.fw.runningSlot.image))
    0x0D0 (if cfg = [] then zeros 64 else shake256 64 cfg))
    0x110 (shake256 64 ((List.range 16).flatMap fun i => (motifRecord s i).take 0x60))

/-- A quote: body, signature, chain (R451). -/
def quote (s : State) (nonce : Bytes) : Bytes :=
  let body := quoteBody s nonce
  padTo 0x1000 (body ++ padTo 3309 (Config.mldsaSign s.fw.serial body)) ++ chainBytes

/-- ATTEST (R63, R451). -/
def execAttest (m : Nat) (s : State) : Result := command m opAttest s fun t =>
  if t.xferOf m ≠ .none then t else t.deliver m (quote t (((t.entryOf m).drop 0x20).take 32))

end Sys2Proof.Machine
end

