-- ==== Sys2Proof/Machine/ConfigImage.lean ====
section
/-! DEFINITION. Configuration images: blocks, sections, ranges, and the configuration they say (R320, R332, R339, R426, R439 to R444). -/

namespace Sys2Proof.Machine

/-! ### Blocks (R426, R439) -/

/-- Block `i` of an image. -/
def blockOf (image : Bytes) (i : Nat) : Bytes := (image.drop (65536 * i)).take 65536

/-- Whether a block's CRC-32C is right. -/
def blockGood (b : Bytes) : Bool := decide ((crc32c (b.take 0xFFFC)).toNat = field b 0xFFFC 4)

/-- The first of `n` blocks whose CRC is wrong. -/
def firstBadBlock (image : Bytes) (n : Nat) : Option Nat := (List.range n).find? fun i => !blockGood (blockOf image i)

/-- The data stream of an image (R439). -/
def dataStream (image : Bytes) : Bytes := (List.range (image.length / 65536)).flatMap fun i => (blockOf image i).take 0xFFFC

/-! ### The directory (R439, R440) -/

/-- A directory entry of a section. -/
structure Section_ where
  type : Nat
  format : Nat
  count : Nat
  offset : Nat
  /-- Where the entry itself lies. -/
  entry : Nat
  deriving DecidableEq, Repr

/-- The used entries of the directory. -/
def sectionsOf (d : Bytes) : List Section_ :=
  ((List.range 8).map fun i =>
    { type := field d (0x40 + 16 * i) 2, format := field d (0x42 + 16 * i) 2, count := field d (0x44 + 16 * i) 4,
      offset := field d (0x48 + 16 * i) 4, entry := 0x40 + 16 * i : Section_ }).filter fun x => x.type ≠ 0

/-- The section of a type. -/
def sectionOf (d : Bytes) (type : Nat) : Option Section_ := (sectionsOf d).find? fun x => x.type = type

/-- The offset in a data stream of record `i` of a section with records of `size` bytes, the section's records being empty where it is absent. -/
def recordOffsets (d : Bytes) (type size : Nat) : List Nat :=
  match sectionOf d type with
  | none => []
  | some x => (List.range x.count).map fun i => x.offset + size * i

/-- The bytes of a section (R440 to R443): a topology descriptor has one record of a header, 256 links per group and 16 spares. -/
def sectionBytes (d : Bytes) (x : Section_) : Nat :=
  if x.type = 1 then 16 * x.count else if x.type = 2 then 264 * x.count
  else if x.type = 3 then (16 + 1024 * field d (x.offset + 4) 2 + 64) * x.count
  else if x.type = 4 then 64 * x.count else 32 * x.count

/-! ### Reading (R320, R332, R441 to R443) -/

/-- A membership record. -/
def readMember (d : Bytes) (o : Nat) : Member := { serial := field d o 8, machineId := field d (o + 8) 2, role := field d (o + 10) 1 }

/-- A cabling-plan entry. -/
def readCable (w : Nat) : CableEntry :=
  { partner := bits w 63 48, partnerBride := bits w 47 43, cls := bits w 42 40, lengthM := bits w 31 16 }

/-- A cabling record: a machine id and its 32 entries. -/
def readCables (d : Bytes) (o : Nat) : Nat × List CableEntry :=
  (field d o 2, (List.range 32).map fun i => readCable (field d (o + 8 + 8 * i) 8))

/-- A link entry. -/
def readLink (w : Nat) : LinkEntry := { valid := bit w 31, partnerGroup := bits w 23 16, partnerLink := bits w 15 8 }

/-- A spare-bride entry. -/
def readSpare (w : Nat) : SpareEntry := { valid := bit w 31, standsFor := bits w 28 24, partner := bits w 23 8 }

/-- A host port record; addresses are in network byte order. -/
def readPort (d : Bytes) (o : Nat) : PortCfg :=
  { machineId := field d o 2, ipv4Prefix := field d (o + 2) 1, ipv6Prefix := field d (o + 3) 1, ipv4 := ofBE ((d.drop (o + 4)).take 4),
    ipv6 := ofBE ((d.drop (o + 8)).take 16), vlan := field d (o + 0x18) 2, pfcA := field d (o + 0x1A) 1, pfcB := field d (o + 0x1B) 1,
    dscpCnp := field d (o + 0x1C) 1, pcpCnp := field d (o + 0x1D) 1, ptpDomain := field d (o + 0x1E) 1, ptpPriority2 := field d (o + 0x1F) 1,
    timePriority := field d (o + 0x20) 1, refEnable := field d (o + 0x21) 1 }

/-- A configuration with its topology descriptor read. -/
def readTopology (d : Bytes) (c : MachineCfg) : MachineCfg :=
  match sectionOf d 3 with
  | none => c
  | some x =>
    let n := field d (x.offset + 4) 2
    { c with
      topoVersion := field d x.offset 4, groups := n, shape := field d (x.offset + 6) 1
      links := (List.range (256 * n)).map fun i => readLink (field d (x.offset + 16 + 4 * i) 4)
      spares := (List.range 16).map fun i => readSpare (field d (x.offset + 16 + 1024 * n + 4 * i) 4) }

/-- A configuration with its module settings read. -/
def readSettings (d : Bytes) (c : MachineCfg) : MachineCfg :=
  match sectionOf d 5 with
  | none => c
  | some x => { c with
      budget := field d x.offset 2, tau := field d (x.offset + 2) 1, auditLog2 := field d (x.offset + 3) 1
      hostOffset := field d (x.offset + 8) 8, hostSize := field d (x.offset + 16) 8 }

/-- The configuration a data stream says; absent sections take their defaults (R440). -/
def readCfg (d : Bytes) : MachineCfg :=
  readSettings d (readTopology d { MachineCfg.default with
    fmt := field d 4 2, version := field d 8 4, machineTag := field d 0x10 8
    members := (recordOffsets d 1 16).map (readMember d)
    cables := (recordOffsets d 2 264).map (readCables d)
    ports := (recordOffsets d 4 64).map (readPort d) })

/-- The configuration of a slot; an empty one holds the default configuration (R448). -/
def CfgSlot.config (x : CfgSlot) : MachineCfg := if x.image = [] then MachineCfg.default else readCfg (dataStream x.image)

/-! ### Ranges (R444 step 3): each check as (fails, offset in the data stream) -/

/-- Reserved bytes of `n` bytes at `o`, as (from, to), must be 0 (R12). -/
def reservedIn (d : Bytes) (o : Nat) (spans : List (Nat × Nat)) : List (Bool × Nat) :=
  spans.map fun r => ((firstNonZero d (o + r.1) (o + r.2)).isSome, (firstNonZero d (o + r.1) (o + r.2)).getD 0)

/-- The header and the directory. -/
def headerFaults (d : Bytes) : List (Bool × Nat) :=
  let xs := sectionsOf d
  [(decide (field d 8 4 = 0), 0x08)] ++ reservedIn d 0 [(0x0C, 0x10), (0x1A, 0x40)] ++
  (List.range 8).flatMap (fun i => reservedIn d (0x40 + 16 * i) [(0x0C, 0x10)]) ++
  xs.map (fun x => (decide (5 < x.type) || xs.any fun y => decide (y.type = x.type ∧ y.entry < x.entry), x.entry)) ++
  xs.map (fun x => (decide (3 ≤ x.type ∧ x.type ≠ 4 ∧ x.count ≠ 1), x.entry + 4)) ++
  xs.map fun x => (decide (d.length < x.offset + sectionBytes d x), x.entry + 8)

/-- Membership: ranges, a machine id once, a role 1 once per group (R441, R444). -/
def memberFaults (d : Bytes) : List (Bool × Nat) :=
  (recordOffsets d 1 16).flatMap fun o =>
    let m := readMember d o
    let before := ((recordOffsets d 1 16).filter (· < o)).map (readMember d)
    [(decide (4095 < m.machineId) || before.any fun x => x.machineId = m.machineId, o + 8),
     (decide (1 < m.role) || (decide (m.role = 1) && before.any fun x => decide (x.role = 1 ∧ groupOf x.machineId = groupOf m.machineId)), o + 10)] ++
    reservedIn d o [(0x0B, 0x10)]

/-- Whether a machine id belongs to a member in a data stream. -/
def namesMember (d : Bytes) (id : Nat) : Bool := (recordOffsets d 1 16).any fun o => decide ((readMember d o).machineId = id)

/-- Cabling plan (R320, R444): entries of brides 15 to 31 name no partner. -/
def cableFaults (d : Bytes) : List (Bool × Nat) :=
  (recordOffsets d 2 264).flatMap fun o =>
    let id := field d o 2
    [(!namesMember d id || (recordOffsets d 2 264).any fun p => decide (p < o ∧ field d p 2 = id), o)] ++ reservedIn d o [(2, 8)] ++
    (List.range 32).flatMap fun i =>
      let w := field d (o + 8 + 8 * i) 8
      let e := readCable w
      let bad := decide (3 < e.cls ∨ bits w 39 32 ≠ 0 ∨ bits w 15 0 ≠ 0) ||
        (if i < 15 then decide (4095 < e.partner ∧ e.partner ≠ 0xFFFF) else decide (e.partner ≠ 0xFFFF ∨ e.partnerBride ≠ 0))
      [(bad, o + 8 + 8 * i)]

/-- Whether link `g` of group `a` names a link that does not name it (R332). -/
def unpaired (links : List LinkEntry) (a g : Nat) (e : LinkEntry) : Bool :=
  match links[256 * e.partnerGroup + e.partnerLink]? with
  | none => true
  | some f => !(f.valid && decide (f.partnerGroup = a ∧ f.partnerLink = g))

/-- Topology descriptor (R332). -/
def topologyFaults (d : Bytes) : List (Bool × Nat) :=
  match sectionOf d 3 with
  | none => []
  | some x =>
    let o := x.offset
    let n := field d (o + 4) 2
    let c := readTopology d MachineCfg.default
    [(decide (n = 0 ∨ 256 < n), o + 4), (decide (4 < field d (o + 6) 1), o + 6)] ++ reservedIn d o [(7, 16)] ++
    (List.range (256 * min n 256)).map (fun i =>
      let w := field d (o + 16 + 4 * i) 4
      let e := readLink w
      (decide (bits w 30 24 ≠ 0 ∨ bits w 7 0 ≠ 0) || (e.valid && (decide (n ≤ e.partnerGroup) || unpaired c.links (i / 256) (i % 256) e)),
        o + 16 + 4 * i)) ++
    (List.range 16).map fun i =>
      let w := field d (o + 16 + 1024 * n + 4 * i) 4
      (decide (bits w 30 29 ≠ 0 ∨ bits w 7 0 ≠ 0 ∨ 30 < bits w 28 24 ∨ (bit w 31 ∧ 4095 < bits w 23 8)), o + 16 + 1024 * n + 4 * i)

/-- An IPv4 unicast address (log 44). -/
def unicast4 (a : Nat) : Bool := decide (0 < a / 2 ^ 24 ∧ a / 2 ^ 24 < 224 ∧ a / 2 ^ 24 ≠ 127)

/-- An IPv6 global unicast address: not unspecified, loopback, link-local or multicast (log 44). -/
def global6 (a : Nat) : Bool := decide (1 < a ∧ a / 2 ^ 120 ≠ 0xFF ∧ a / 2 ^ 118 ≠ 0x3FA)

/-- Host port records (R339, R442). -/
def portFaults (d : Bytes) : List (Bool × Nat) :=
  (recordOffsets d 4 64).flatMap fun o =>
    let p := readPort d o
    [(!namesMember d p.machineId || (recordOffsets d 4 64).any fun q => decide (q < o ∧ field d q 2 = p.machineId), o),
     (decide (p.ipv4Prefix ≠ 0 ∧ (p.ipv4Prefix < 8 ∨ 30 < p.ipv4Prefix)), o + 2),
     (decide (p.ipv6Prefix ≠ 0 ∧ (p.ipv6Prefix < 16 ∨ 127 < p.ipv6Prefix)), o + 3),
     (decide (p.ipv4Prefix ≠ 0) && !unicast4 p.ipv4, o + 4), (decide (p.ipv6Prefix ≠ 0) && !global6 p.ipv6, o + 8),
     (decide (4094 < p.vlan), o + 0x18), (decide (7 < p.pfcA), o + 0x1A), (decide (7 < p.pfcB ∨ p.pfcA = p.pfcB), o + 0x1B),
     (decide (63 < p.dscpCnp), o + 0x1C), (decide (7 < p.pcpCnp), o + 0x1D), (decide (127 < p.ptpDomain), o + 0x1E),
     (decide (254 < p.timePriority), o + 0x20), (decide (3 < p.refEnable), o + 0x21)] ++
    reservedIn d o [(0x22, 0x40)]

/-- Module settings (R443). -/
def settingFaults (d : Bytes) : List (Bool × Nat) :=
  (recordOffsets d 5 32).flatMap fun o =>
    let c := readSettings d MachineCfg.default
    [(decide (c.budget < 900 ∨ 1400 < c.budget ∨ c.budget % 10 ≠ 0), o), (decide (c.tau < 2 ∨ 31 < c.tau), o + 2),
     (decide (c.auditLog2 < 8 ∨ 20 < c.auditLog2), o + 3), (decide (c.hostOffset % 2 ^ 30 ≠ 0), o + 8),
     (decide (c.hostSize % 2 ^ 30 ≠ 0 ∨ 768 * 2 ^ 30 < c.hostSize ∨ Config.memorySize < c.hostOffset + c.hostSize), o + 16)] ++
    reservedIn d o [(4, 8), (0x18, 0x20)]

/-- The lowest offset of a failing check. -/
def firstFault (l : List (Bool × Nat)) : Option Nat :=
  l.foldl (fun best x => if x.1 then (match best with | none => some x.2 | some o => some (min o x.2)) else best) none

/-- Step 3 of R444: the header's faults come before those of the sections it places. -/
def rangeFault (d : Bytes) : Option Nat :=
  match firstFault (headerFaults d) with
  | some o => some o
  | none => firstFault (memberFaults d ++ cableFaults d ++ topologyFaults d ++ portFaults d ++ settingFaults d)

/-- Step 4 of R444: the membership is empty, or lists this module at its slot. -/
def notMember (d : Bytes) (serial slot : Nat) : Option Nat :=
  match sectionOf d 1 with
  | none => none
  | some x =>
    let ms := (recordOffsets d 1 16).map (readMember d)
    if ms = [] ∨ ms.any fun m => decide (m.serial = serial ∧ slotOf m.machineId = slot) then none else some x.offset

/-- Header fields of an image (R444 step 1): the offset of the first that is wrong. -/
def imageFault (image : Bytes) : Option Nat :=
  if field image 0 4 ≠ 0x46435746 then some 0x00
  else if field image 6 2 ≠ 0x0810 then some 0x06
  else if field image 0x18 2 ≠ image.length / 65536 then some 0x18
  else none

/-- The checks of R444 in order: status, detail, and bytes checked so far. -/
def stageRefusal (s : State) (image : Bytes) : Option (Nat × Nat × Nat) :=
  let blocks := field image 0x18 2
  if blocks ≠ image.length / 65536 ∧ 1 ≤ blocks ∧ blocks ≤ 64 then some (stBadParam, 0x1C, 0)
  else match firstBadBlock image (image.length / 65536) with
  | some i => some (stBadCrc, i, 65536 * i)
  | none => match imageFault image with
    | some o => some (stBadParam, o, image.length)
    | none =>
      let d := dataStream image
      if field d 4 2 < s.fw.runningSlot.cfgMin ∨ s.fw.runningSlot.cfgMax < field d 4 2 then some (stBadParam, 0x04, image.length)
      else match rangeFault d with
        | some o => some (stBadParam, o, image.length)
        | none => (notMember d s.fw.serial s.start.slot).map fun o => (stBadParam, o, image.length)

end Sys2Proof.Machine
end

