-- ==== Sys2Proof/Machine/Configuration.lean ====
section
/-! DEFINITION. `CONFIG_READ`, `CONFIG_STAGE`, `CONFIG_COMMIT`, `CONFIG_REVERT`, and a configuration taking effect (R333, R444 to R448). -/

namespace Sys2Proof.Machine

/-! ### Slots (R445) -/

/-- The slot in a state, if there is one. -/
def ConfigState.slotIn (c : ConfigState) (st : CfgSlotState) : Option CfgSlot :=
  if c.slotA.state = st then some c.slotA else if c.slotB.state = st then some c.slotB else none

/-- The slots with the one that is not CURRENT holding `x`. -/
def ConfigState.putOther (c : ConfigState) (x : CfgSlot) : ConfigState :=
  if c.slotA.state = .current then { c with slotB := x } else { c with slotA := x }

/-- A slot that becomes CURRENT or PREVIOUS. -/
def CfgSlot.swapped (x : CfgSlot) : CfgSlot := { x with state := if x.state = .current then .previous else .current }

/-- The other slot CURRENT and the current one PREVIOUS. -/
def ConfigState.swap (c : ConfigState) : ConfigState := { c with slotA := c.slotA.swapped, slotB := c.slotB.swapped }

/-! ### What may not change (R333, R446) -/

/-- The machine id and role of a serial number in a configuration; a module without a membership is stand-alone at its slot (R448). -/
def placeOf (c : MachineCfg) (serial slot : Nat) : Nat × Nat :=
  match c.members.find? fun m => m.serial = serial with
  | some m => (m.machineId, m.role)
  | none => (slot, 2)

/-- The serial number of a machine id under the configuration in force. -/
def State.serialOf (s : State) (id : Nat) : Nat :=
  match s.cfg.cur.members.find? fun m => m.machineId = id with
  | some m => m.serial
  | none => s.fw.serial

/-- Resident motifs with the tables of the copy in force. -/
def State.residents (s : State) : List (Nat × Pricking) :=
  s.motifs.table.filterMap fun e => match e.2.prick with
    | some p => if e.2.state = 2 ∨ e.2.state = 3 then some (e.1, p) else none
    | none => none

/-- Open sequences that are not companions. -/
def State.openSeqs (s : State) : List Seq := s.seqs.open_.filter fun q => q.companion.isNone

/-- Whether two configurations have the same topology descriptor. -/
def sameTopology (a b : MachineCfg) : Bool :=
  decide (a.topoVersion = b.topoVersion ∧ a.groups = b.groups ∧ a.shape = b.shape ∧ a.links = b.links ∧ a.spares = b.spares)

/-- Open sequences of motifs that span groups (R333). -/
def State.spanning (s : State) : Nat :=
  (s.openSeqs.filter fun q => s.residents.any fun e => decide (e.1 = q.motif) && s.spansGroups e.2).length

/-- Resident motifs of which a module that holds part changes its id, group or role (R446). -/
def State.displaced (s : State) (c : MachineCfg) : Nat :=
  (s.residents.filter fun e => (s.motifModules e.2).any fun id =>
    decide (placeOf s.cfg.cur (s.serialOf id) s.start.slot ≠ placeOf c (s.serialOf id) s.start.slot)).length

/-- Open host-managed sequences (R446). -/
def State.hostManagedOpen (s : State) : Nat := (s.openSeqs.filter fun q => q.hostPages).length

/-- The detail of `ST_MOTIF_IN_USE`, where R446 refuses a configuration. -/
def State.inUse (s : State) (c : MachineCfg) : Option Nat :=
  if !sameTopology s.cfg.cur c && decide (s.spanning ≠ 0) then some s.spanning
  else if s.displaced c ≠ 0 then some (s.displaced c)
  else if (s.cfg.cur.hostOffset ≠ c.hostOffset ∨ s.cfg.cur.hostSize ≠ c.hostSize) ∧ s.hostManagedOpen ≠ 0 then some s.hostManagedOpen
  else none

/-! ### Taking effect (R447) -/

/-- A bride that must retrain: one that carries traffic goes DOWN first, one in HOLD or MISMATCH trains at once (R317, R447; log 42). -/
def State.retrain (s : State) (b : Nat) : State :=
  let x := s.bride b
  if x.carries then s.brideTo b 7 else if x.state = 3 ∨ x.state = 4 then s.brideTo b 2 else s

/-- Whether the membership of a bride's partner is another in configuration `c`. -/
def partnerMoved (old c : MachineCfg) (x : Bride) : Bool :=
  decide ((old.members.find? fun m => m.serial = x.partnerSerial) ≠ c.members.find? fun m => m.serial = x.partnerSerial)

/-- Brides after the membership has changed; those in MISMATCH train again (R317, R447). -/
def State.retrainAll (s : State) (old : MachineCfg) : State :=
  (List.range 32).foldl (fun u b =>
    if old.machineTag ≠ u.cfg.cur.machineTag ∨ partnerMoved old u.cfg.cur (u.bride b) ∨ (u.bride b).state = 4 then u.retrain b else u) s

/-- The cabling plan in force: unused brides OFF, the others classed again (R317, R322, R447). -/
def State.replan (s : State) : State :=
  (List.range 32).foldl (fun u b => if u.unusedBride b then u.brideTo b 0 else u.classify b) s

/-- The topology entry of a bride: a link entry, the spare entry, or none for a group link. -/
def topoEntry (c : MachineCfg) (id b : Nat) : Option (Sum LinkEntry SpareEntry) :=
  if b < 15 then none
  else if b < 31 then (c.links[256 * groupOf id + 16 * slotOf id + (b - 15)]?).map .inl
  else (c.spares[slotOf id]?).map .inr

/-- A changed topology descriptor: changed brides drain and retrain, and TOPO_READY follows (R333). -/
def State.reshape (s : State) (old : MachineCfg) : State :=
  if sameTopology old s.cfg.cur then s
  else
    let s1 := (List.range 32).foldl (fun u b =>
      if topoEntry old u.machineId b = topoEntry u.cfg.cur u.machineId b then u
      else
        let v := u.setBride b { u.bride b with reshaping := true }
        if (v.bride b).carries then v.brideTo b 3 else v) s
    ({ s1 with fabric := { s1.fabric with reshape := some s1.now } } : State).topoSettle

/-- The addresses of a port record: a prefix of 0 disables one (R339). -/
def PortCfg.addresses (p : PortCfg) : Option Nat × Option Nat :=
  (if p.ipv4Prefix = 0 then none else some p.ipv4, if p.ipv6Prefix = 0 then none else some p.ipv6)

/-- Whether an address or the VLAN of this module's port changed (R339). -/
def portMoved (a b : PortCfg) : Bool := decide (a.addresses ≠ b.addresses ∨ a.vlan ≠ b.vlan)

/-- What a module knew of its group under another machine id is void. -/
def State.moveGroup (s : State) (oldId : Nat) : State :=
  if oldId = s.machineId then s
  else { s with fabric := { s.fabric with peerLinks := [], groupLinks := [], heard := [], missing := [], topoReady := [] } }

/-- A configuration takes effect (R447): membership, plan, topology, host port; settings are read where they are used. -/
def State.applyCfg (s : State) (c : MachineCfg) : State :=
  let old := s.cfg.cur
  let oldId := s.machineId
  let s1 : State := { s with cfg := { s.cfg with cur := c, read := true } }
  (((((s1.moveGroup oldId).retrainAll old).replan).reshape old).reroute).elect

/-! ### The commands -/

/-- CONFIG_READ (R445). -/
def execConfigRead (m : Nat) (s : State) : Result := updateCommand m opConfigRead s fun t =>
  if t.xferOf m ≠ .none then t
  else
    let n := field (t.entryOf m) 0x08 1
    match t.cfg.slotIn (if n = 0 then .current else if n = 1 then .staged else .previous) with
    | none => t.failCmd m stNotStaged 0
    | some x => (t.setTarget m x.image.length).deliver m x.image

/-- CONFIG_STAGE (R444). -/
def execConfigStage (m : Nat) (s : State) : Result := updateCommand m opConfigStage s fun t =>
  let e := t.entryOf m
  let len := bufLen e
  match t.xferOf m with
  | .none =>
    if len = 0 ∨ len % 65536 ≠ 0 ∨ 64 * 65536 < len then t.failCmd m stBadParam 0x1C
    else (t.setTarget m len).readBuffer m len
  | .readDone =>
    let image := t.dataOf m
    (match stageRefusal t image with
     | some (status, detail, checked) => t.complete m status detail checked 0
     | none => ({ t with cfg := t.cfg.putOther { state := .staged, image := image } } : State).okCmd m 0)
  | .readFailed => t.failCmd m stFetchFail t.machineId
  | _ => t

/-- Notes whether configuration `c` changes an address or the VLAN of the port, so that every queue pair breaks after the DONE record (R339, R447). -/
def State.breaksAfter (s : State) (c : MachineCfg) : State :=
  let after : State := { s with cfg := { s.cfg with cur := c, read := true } }
  { s with cfg := { s.cfg with breakQps := portMoved s.portCfg after.portCfg } }

/-- The other slot comes into force: refused under R446, else recorded with code 7 or 8 (R447, R453). -/
def State.switchCfg (s : State) (m : Nat) (x : CfgSlot) (revert : Bool) : State :=
  let c := x.config
  match s.inUse c with
  | some n => s.failCmd m stMotifInUse n
  | none =>
    let before := s.cfg.cur.version
    let t := ({ s with cfg := s.cfg.swap } : State).breaksAfter c |>.applyCfg c
    (if revert then t.evUpdate 8 (leBytes 4 c.version) else t.evUpdate 7 (leBytes 4 c.version ++ leBytes 4 before)).okCmd m c.version

/-- CONFIG_COMMIT (R445 to R447). -/
def execConfigCommit (m : Nat) (s : State) : Result := updateCommand m opConfigCommit s fun t =>
  match t.cfg.slotIn .staged with
  | none => t.failCmd m stNotStaged 0
  | some x =>
    if x.config.version = field (t.entryOf m) 0x10 4 then t.switchCfg m x false else t.failCmd m stNotStaged x.config.version

/-- CONFIG_REVERT (R445 to R447). -/
def execConfigRevert (m : Nat) (s : State) : Result := updateCommand m opConfigRevert s fun t =>
  match t.cfg.slotIn .previous with
  | none => t.failCmd m stNotStaged 0
  | some x => t.switchCfg m x true

end Sys2Proof.Machine
end

