-- ==== Sys2Proof/Machine/FirmwareUpdate.lean ====
section
/-! DEFINITION. Firmware images, `FW_STAGE`, `FW_ACTIVATE`, `FW_REVERT`, confirmation and failed boots (R426 to R438, R472). -/

namespace Sys2Proof.Machine

/-! ### Images (R427 to R429) -/

/-- A slot that holds an image, with its header's fields (R427). -/
def FwSlot.ofImage (image : Bytes) : FwSlot :=
  { state := .staged, image := image, version := field image 0x08 4, floorRaise := field image 0x0C 4, keyIndex := field image 0x12 1,
    revoke := BitVec.ofNat 4 (field image 0x13 1), ifMin := field image 0x14 2, ifMax := field image 0x16 2, coefFmt := field image 0x18 2,
    cfgMin := field image 0x1A 2, cfgMax := field image 0x1C 2 }

/-- The signing public key and the signature of an image (R428). -/
def imageKey (image : Bytes) : Bytes := (image.drop (image.length - 65536)).take 1952
def imageSignature (image : Bytes) : Bytes := (image.drop (image.length - 65536 + 0x7A0)).take 3309

/-- Whether an image verifies: its key is the ROM's and not revoked, and the signature over its digest is good (R428). -/
def imageVerifies (revoked : BitVec 4) (keyIndex : Nat) (image : Bytes) : Bool :=
  decide (keyIndex < 4) && decide (shake256 32 (imageKey image) = Config.romKeyDigest keyIndex) && !bit revoked.toNat keyIndex &&
    Config.mldsaVerify (imageKey image) (imageDigest image) (imageSignature image)

/-- Whether the header fields that R429 step 3 names are wrong. -/
def imageHeaderBad (image : Bytes) : Bool :=
  let x := FwSlot.ofImage image
  decide (field image 0 4 ≠ 0x49465746 ∨ field image 4 2 ≠ 1 ∨ field image 6 2 ≠ 0x0810 ∨ field image 0x10 2 = 0 ∨ 255 < field image 0x10 2 ∨
    x.version < x.floorRaise) || bit x.revoke.toNat x.keyIndex

/-- Steps 4 to 6 of R429: status, detail, blocks checked. -/
def laterRefusal (f : Firmware) (x : FwSlot) : Option (Nat × Nat × Nat) :=
  let n := x.image.length / 65536
  if x.version < f.floor.toNat then some (stVersionFloor, f.floor.toNat, 1)
  else match (List.range n).find? fun i => decide (0 < i) && !blockGood (blockOf x.image i) with
    | some i => some (stBadCrc, i, i)
    | none => if imageVerifies f.revoked x.keyIndex x.image then none else some (stBadSignature, 0, n)

/-- The checks of R429 in order. -/
def imageRefusal (f : Firmware) (image : Bytes) : Option (Nat × Nat × Nat) :=
  if image.length ≠ (field image 0x10 2 + 1) * 65536 then some (stBadParam, 0x1C, 0)
  else if !blockGood (blockOf image 0) then some (stBadCrc, 0, 0)
  else if imageHeaderBad image then some (stBadSignature, 0, 1)
  else laterRefusal f (FwSlot.ofImage image)

/-! ### Slots (R430, R472) -/

/-- Slot A or B. -/
def Firmware.slot (f : Firmware) (i : Nat) : FwSlot := if i = 0 then f.slotA else f.slotB

/-- The firmware with a slot replaced. -/
def Firmware.putSlot (f : Firmware) (i : Nat) (x : FwSlot) : Firmware := if i = 0 then { f with slotA := x } else { f with slotB := x }

/-- The slot in a state, if there is one. -/
def Firmware.slotIn (f : Firmware) (st : FwSlotState) : Option Nat :=
  if f.slotA.state = st then some 0 else if f.slotB.state = st then some 1 else none

/-- The slot that `FW_STAGE` writes: the inactive one; in the ROM state the one the boot record does not name, or slot A when neither is verified. -/
def State.stageSlot (s : State) : Nat :=
  if s.start.rom then (if (s.fw.slotIn .staged).isSome then 1 - s.fw.boot else 0) else 1 - s.fw.running

/-- FW_STAGE (R429, R472). -/
def execFwStage (m : Nat) (s : State) : Result := updateCommand m opFwStage s fun t =>
  let e := t.entryOf m
  let len := bufLen e
  let i := t.stageSlot
  match t.xferOf m with
  | .none =>
    let u : State := { t with fw := t.fw.putSlot i FwSlot.none }
    if len % 65536 ≠ 0 ∨ len < 2 * 65536 ∨ 256 * 65536 < len then u.failCmd m stBadParam 0x1C
    else (u.setTarget m (len / 65536)).readBuffer m len
  | .readDone =>
    let image := t.dataOf m
    (match imageRefusal t.fw image with
     | some (status, detail, blocks) => t.complete m status detail blocks 0
     | none =>
       let x := FwSlot.ofImage image
       (({ t with fw := t.fw.putSlot i x } : State).evUpdate 1 (leBytes 4 x.version ++ leBytes 1 i)).okCmd m 0)
  | .readFailed => t.failCmd m stFetchFail t.machineId
  | _ => t

/-! ### Activation (R431, R433) -/

/-- Whether a layer module still serves layers, spread ranks or a head role (R431). -/
def State.servesSome (s : State) : Bool :=
  decide (s.role = 0) && s.take.vacatedTo.isNone && s.residents.any fun e =>
    (e.2.shards.any fun x => decide (x.machineId = s.machineId)) || decide (e.2.head = s.machineId ∨ e.2.tail = s.machineId) ||
      e.2.layers.any fun r => (List.range r.k).any fun i => decide (rankHome r i = s.machineId)

/-- The boot record names slot `i` with pending 2, and the bobbin restarts (R431, R433). In the ROM state the whole start-up follows (R472). -/
def State.restart (s : State) (m i : Nat) : State :=
  { s with
    fw := { s.fw with boot := i, pending := 2, failReason := 0,
                      activation := some { mailbox := m, stageBefore := if s.start.rom then 3 else s.start.stage } }
    start := { s.start with stage := 1, stageStart := s.now, rom := false } }

/-- Whether the restart may come now: a module being vacated waits for progress 2, every module for its steps in flight (R431). -/
def State.mayRestart (s : State) : Bool :=
  s.start.rom || (s.inFlight.isEmpty && (decide (s.role ≠ 0) || !s.servesSome))

/-- An activation of slot `i` that has passed its checks begins: candidacy withdrawn, steps held, a planned takeover where the module serves
(R351, R431). -/
def State.beginActivation (s : State) (m : Nat) : State :=
  let s1 := s.setCmd m fun c => { c with begun := true }
  let s2 : State := { s1 with fw := { s1.fw with holdSteps := decide (s1.role = 2) }, time := { s1.time with withdrawn := true } }
  if s2.servesSome ∧ ¬ s2.start.rom then s2.beginTakeover none else s2

/-- An activation goes on: it begins after its checks, and restarts the bobbin when it may. -/
def State.activate (s : State) (m i : Nat) : State :=
  let s1 := if begunOn s m then s else s.beginActivation m
  if s1.mayRestart then s1.restart m i else s1

/-- FW_ACTIVATE (R431, R472). -/
def execFwActivate (m : Nat) (s : State) : Result := updateCommand m opFwActivate s fun t =>
  match t.fw.slotIn .staged with
  | none => t.failCmd m stNotStaged 0
  | some i =>
    let x := t.fw.slot i
    if begunOn t m then t.activate m i
    else if x.version ≠ field (t.entryOf m) 0x10 4 then t.failCmd m stNotStaged x.version
    else match laterRefusal t.fw x with
      | some (status, detail, _) => t.failCmd m status detail
      | none => t.activate m i

/-- FW_REVERT (R433). -/
def execFwRevert (m : Nat) (s : State) : Result := updateCommand m opFwRevert s fun t =>
  match t.fw.slotIn .previous with
  | none => t.failCmd m stNotStaged 0
  | some i =>
    if begunOn t m then t.activate m i
    else match laterRefusal t.fw (t.fw.slot i) with
      | some (status, detail, _) => t.failCmd m status detail
      | none => t.activate m i

/-! ### Confirmation (R431, R432, R434, R438) -/

/-- The selvage after a booted slot that was not RUNNING confirms (R431, R432). -/
def Firmware.confirmed (f : Firmware) : Firmware :=
  let x := f.slot f.boot
  let f1 := (f.putSlot (1 - f.boot) { f.slot (1 - f.boot) with state := if (f.slot (1 - f.boot)).state = .running then .previous else (f.slot (1 - f.boot)).state })
  { f1.putSlot f.boot { x with state := .running } with
    running := f.boot, pending := 0, failReason := 0
    floor := if f.floor < BitVec.ofNat 32 x.floorRaise then BitVec.ofNat 32 x.floorRaise else f.floor
    revoked := f.revoked ||| x.revoke }

/-- A booted slot that was STAGED or PREVIOUS confirms: floor, revocations and the change are recorded (R432, R453). -/
def State.confirmSlot (s : State) : State :=
  let x := s.fw.slot s.fw.boot
  let before := s.fw.runningSlot.version
  let f := s.fw.confirmed
  let s1 : State := { s with fw := f }
  let s2 := if f.floor = s.fw.floor then s1 else s1.evUpdate 5 (leBytes 4 f.floor.toNat ++ leBytes 4 s.fw.floor.toNat)
  let s3 := if f.revoked = s.fw.revoked then s2 else s2.evUpdate 6 (leBytes 1 f.revoked.toNat)
  if x.state = .previous then s3.evUpdate 4 (leBytes 4 x.version) else s3.evUpdate 2 (leBytes 4 x.version ++ leBytes 4 before)

/-- The firmware that confirms after a failed boot marks the failed slot EMPTY and records why (R434). -/
def State.recordFailure (s : State) : State :=
  let i := 1 - s.fw.boot
  let f := s.fw.putSlot i FwSlot.none
  ({ s with fw := { f with pending := 0, failReason := 0 } } : State).evUpdate 3 (leBytes 4 (s.fw.slot i).version ++ leBytes 1 s.fw.failReason)

/-- Whether the running firmware accepts the format of a configuration slot (R438). -/
def State.accepts (s : State) (x : CfgSlot) : Bool :=
  decide (x.image = []) || decide (s.fw.runningSlot.cfgMin ≤ field x.image 4 2 ∧ field x.image 4 2 ≤ s.fw.runningSlot.cfgMax)

/-- A configuration slot whose format is not accepted: the current one holds the default configuration, the other is EMPTY; with its setting code. -/
def State.resetSlot (s : State) (x : CfgSlot) : CfgSlot :=
  if s.accepts x then x else if x.state = .current then { x with image := [] } else { state := .empty, image := [] }

/-- The SETTINGS_RESET records of the configuration slots (R438, R453). -/
def State.recordReset (s : State) (x : CfgSlot) : State :=
  if s.accepts x then s else s.evUpdate 9 (leBytes 1 (if x.state = .current then 1 else 2) ++ leBytes 2 (field x.image 4 2))

/-- A mailbox whose negotiated version the running firmware does not support has none (R438). -/
def State.resetVersion (s : State) (m : Nat) : State :=
  match (s.box m).version with
  | none => s
  | some v =>
    if s.fw.runningSlot.ifMin ≤ v ∧ v ≤ s.fw.runningSlot.ifMax then s
    else (s.setBox m { s.box m with version := none }).evUpdate 9 (leBytes 1 4 ++ leBytes 2 v)

/-- Settings reset at confirmation (R438). The entry format of R420 is one for every firmware, so monitor entries stay. -/
def State.resetSettings (s : State) : State :=
  let a := s.cfg.slotA
  let b := s.cfg.slotB
  let s1 := (s.recordReset a).recordReset b
  let s2 : State := { s1 with cfg := { s1.cfg with slotA := s.resetSlot a, slotB := s.resetSlot b } }
  (List.range Config.mailboxes).foldl (fun u m => u.resetVersion m) s2

/-- The current configuration slot is read: at power-up, and where it was reset (R438, R448). -/
def State.readConfig (s : State) : State :=
  let c := s.cfg.current.config
  if s.cfg.read ∧ c = s.cfg.cur then s else s.applyCfg c

/-- The command of an activation completes (R431, R434). -/
def State.finishActivation (s : State) (failed : Bool) : State :=
  match s.fw.activation with
  | none => s
  | some a =>
    let t : State := { s with
      fw := { s.fw with activation := none, holdSteps := false }
      time := { s.time with withdrawn := s.time.withdrawn && s.take.vacatedTo.isSome } }
    if failed then t.complete a.mailbox stBadSignature 0 0 t.fw.runningSlot.version else t.complete a.mailbox stOk 0 0 t.fw.runningSlot.version

/-- The stage that follows stages 1 and 2: where a restart broke off, else memory training (R470, R471). -/
def State.afterBoot (s : State) : State :=
  let next := match s.fw.activation with | some a => a.stageBefore | none => 3
  { s with start := { s.start with stage := next, stageStart := s.now } }

/-- FW_CONFIRM: within 5 s of its start the booted firmware has read its configuration and resumed mailbox service (R431 to R438, R470); after a hardware
trip start-up does not go on (R473). -/
def execFwConfirm (s : State) : Result :=
  .next (onlyIf (s.start.powerGood && !s.start.hwTrip && decide (s.start.stage = 2 ∧ s.now ≤ s.start.stageStart + 5000000000)) s
    (let failed := decide (s.fw.failReason ≠ 0 ∧ s.fw.boot = s.fw.running)
    let s1 := if failed then s.recordFailure else if s.fw.boot ≠ s.fw.running then s.confirmSlot else s
    let s2 := s1.resetSettings.readConfig.afterBoot
    s2.finishActivation failed))

/-- The ROM state: the ROM code alone, brides OFF (R472). -/
def State.enterRom (s : State) : State :=
  let s1 : State := { s with start := { s.start with rom := true, stage := 1 }, fw := { s.fw with holdSteps := false } }
  (List.range 32).foldl (fun u b => u.setBride b ((u.bride b).become 0 u.now)) s1

/-- FW_BOOT_FAILED: the booted slot fails verification, or does not confirm within 5 s; the ROM decrements pending and reboots. With no attempt left and
the RUNNING slot not verifying, the bobbin stays in ROM (R434, R470). -/
def execFwBootFailed (reason : Nat) (s : State) : Result :=
  .next (
    let late := decide (reason = 3 ∧ s.start.stage = 2 ∧ s.start.stageStart + 5000000000 < s.now)
    let unfit := decide (1 ≤ reason ∧ reason ≤ 5 ∧ reason ≠ 3 ∧ (s.start.stage = 1 ∨ s.start.stage = 2))
    onlyIf (s.start.powerGood && !s.start.rom && (late || unfit)) s
      (if 0 < s.fw.pending then
        let p := s.fw.pending - 1
        { s with
          fw := { s.fw with pending := p, failReason := reason, boot := if p = 0 then s.fw.running else s.fw.boot }
          start := { s.start with stage := 1, stageStart := s.now } }
      else if reason = 3 then { s with start := { s.start with stage := 1, stageStart := s.now } }
      else s.enterRom))

end Sys2Proof.Machine
end

