-- ==== Sys2Proof/Machine/KnotOps.lean ====
section
/-! DEFINITION. Knots: arming, adding, firing (R247 to R249). -/

namespace Sys2Proof.Machine

/-- Count minus threshold, read as signed, is 0 or above (R248). -/
def Knot.reached (k : Knot) : Bool := decide (0 ≤ (k.count - k.threshold).toInt)

/-- A knot's new value without the firing test. -/
def State.storeKnot (s : State) (n : Nat) (k : Knot) : State := { s with knots := { s.knots with knot := Tab.put Knot.init s.knots.knot n k } }

/-- The firing test (R248): an ARMED knot that has reached its threshold sets FIRED and sends one wake to its owner. -/
def State.putKnot (s : State) (n : Nat) (k : Knot) : State :=
  if k.state = 1 ∧ k.reached then
    { s with knots := { s.knots with
        knot := Tab.put Knot.init s.knots.knot n { k with state := 2 }, wakes := (k.owner, n) :: s.knots.wakes } }
  else s.storeKnot n k

/-- What a knot operation returns to its issuer. -/
def State.reply (s : State) (r : KnotReply) : State := { s with knots := { s.knots with reply := r } }

/-- A knot armed by a port (R248). -/
def armed (port : Nat) (threshold guard count : BitVec 32) (serves : Option StepTag) : Knot :=
  { owner := port, state := 1, refused := 0, guard := guard, threshold := threshold, count := count, serves := serves }

/-- Whether an increment is applied: the knot is ARMED or FIRED and the guard is its own (R248). -/
def Knot.takes (k : Knot) (guard : BitVec 32) : Bool := decide (k.state ≠ 0 ∧ k.guard = guard)

/-- Whether the next command that waits adds to the same knot: increments that follow one another in the queue are those of one instant (R249, R266;
DESIGN CHOICE, log 72). -/
def State.addFollows (s : State) (n : Nat) : Bool :=
  match s.pending.head? with
  | some (.add _ knot _ _) => decide (knot = n)
  | some (.knotAdd _ knot _ _) => decide (knot = n)
  | _ => false

/-- Whether an operation of the same instant on the same knot waits behind one that is applied on its own: an increment, or such an operation of a higher
réseau port, which follow in the queue (R249; DESIGN CHOICE, log 72). -/
def State.orderedFollows (s : State) (port n : Nat) : Bool :=
  s.addFollows n ||
  match s.pending.head? with
  | some (.arm p knot _ _ _ _) => decide (knot = n ∧ port < p)
  | some (.rearm p knot _ _ _) => decide (knot = n ∧ port < p)
  | some (.fetchAdd p knot _ _) => decide (knot = n ∧ port < p)
  | some (.free p knot) => decide (knot = n ∧ port < p)
  | _ => false

/-- A knot as an operation applied on its own leaves it: the firing test comes after the last operation of the instant (R249). -/
def State.setKnot (s : State) (port n : Nat) (k : Knot) : State := if s.orderedFollows port n then s.storeKnot n k else s.putKnot n k

/-- A knot as an increment leaves it: added to, or refused and counted (R248). -/
def Knot.increment (k : Knot) (delta guard : BitVec 32) : Knot :=
  if k.takes guard then { k with count := k.count + delta } else { k with refused := satTo 8 (k.refused + 1) }

/-- An increment of an instant: the increments of one instant make one sum, and the firing test comes after the last of them (R249). -/
def State.addKnot (s : State) (n : Nat) (delta guard : BitVec 32) : State :=
  let k := (s.knot n).increment delta guard
  if s.addFollows n then s.storeKnot n k else s.putKnot n k

/-- ARM: on a FREE knot; on any other it is refused and returns the owner (R248). -/
def execArm (port knot : Nat) (threshold guard count : BitVec 32) (serves : Option StepTag) (s : State) : Result :=
  need (decide (knot < 4096)) .noSuchKnot
    (if (s.knot knot).state = 0 then (s.setKnot port knot (armed port threshold guard count serves)).reply .ok
     else s.reply (.owner (s.knot knot).owner))

/-- ADD (R248). -/
def execAdd (_port knot : Nat) (delta guard : BitVec 32) (s : State) : Result :=
  need (decide (knot < 4096)) .noSuchKnot
    ((s.addKnot knot delta guard).reply (if (s.knot knot).takes guard then .ok else .refused))

/-- FETCH_ADD: as ADD, applied on its own, and returns the count before (R248, R249). -/
def execFetchAdd (port knot : Nat) (delta guard : BitVec 32) (s : State) : Result :=
  need (decide (knot < 4096)) .noSuchKnot
    ((s.setKnot port knot ((s.knot knot).increment delta guard)).reply (if (s.knot knot).takes guard then .count (s.knot knot).count else .refused))

/-- REARM: as ARM, on a knot the port owns, in any state (R248). -/
def execRearm (port knot : Nat) (threshold guard count : BitVec 32) (s : State) : Result :=
  need (decide (knot < 4096)) .noSuchKnot
    (if (s.knot knot).owner = port then (s.setKnot port knot (armed port threshold guard count (s.knot knot).serves)).reply .ok
     else s.reply (.owner (s.knot knot).owner))

/-- FREE: the owner gives the knot back its reset values (R248). -/
def execFree (port knot : Nat) (s : State) : Result :=
  need (decide (knot < 4096)) .noSuchKnot
    (if (s.knot knot).owner = port then (s.putKnot knot Knot.init).reply .ok else s.reply (.owner (s.knot knot).owner))

/-- KNOT_ADD: a message applies an ADD through its bride's port (R244, R248). -/
def execKnotAdd (_bride knot : Nat) (delta guard : BitVec 32) (s : State) : Result :=
  need (decide (knot < 4096)) .noSuchKnot (s.addKnot knot delta guard)

end Sys2Proof.Machine
end

