-- ==== Sys2Proof/Machine/StartUp.lean ====
section
/-! DEFINITION. Power good, loss of power, hard reset, and the stages of start-up (R461, R465 to R473). -/

namespace Sys2Proof.Machine

/-! ### What a stop leaves (R468, R469) -/

/-- A physical array without power: its cells, and the mark of a write that was under way. -/
def PhysArray.unpowered (p : PhysArray) : PhysArray := { PhysArray.init with cells := p.cells, writing := p.writing }

/-- A motif table entry without power: mirrors are lost, and with them a second copy (log 46); tiles whose mirror block no source restored leave the motif
STALE (R377). -/
def MotifEntry.unpowered (e : MotifEntry) : MotifEntry :=
  { e with
    state := if e.state = 1 then 0 else if e.state = 2 ∧ e.spoilt ≠ [] then 3 else e.state
    copy := 0, copyGen := 0, prick2 := none, mirror := none, mirror2 := none, mirrorState := 0, groupMirror := [], arriving := []
    servingFor := none, restoring := false, spoilt := [] }

/-- The entry a stop leaves: a load under way counts as failed, so the entry is what it was before (R277, R469). -/
def State.keptEntry (s : State) (m : Nat) (e : MotifEntry) : MotifEntry :=
  match s.motifs.loads.find? fun l => l.motif = m with
  | some l => (if l.proper then { l.prior with gen := e.gen } else e).unpowered
  | none => e.unpowered

/-- An addressable array at power-up: OUT while it holds a tile of a motif that is READY or STALE, or has no working array; else FREE (R114, R118). An index whose
spare was still being programmed keeps its choice (DESIGN CHOICE, log 63). -/
def bootService (s : State) (table : Tab MotifEntry) (a : Nat) : ArrayState :=
  match s.workOf a with
  | none => { ArrayState.init with service := .out, spare := (s.array a).spare, onTambour := (s.array a).spare.isNone }
  | some p => match (s.phys p).cells with
    | none => ArrayState.init
    | some h =>
      let e := Tab.get MotifEntry.init table h.motif
      let first := (s.phys p).writing
      if (e.state = 2 ∨ e.state = 3) ∧ e.gen.toNat = h.gen then
        { ArrayState.init with service := .out, due := if first then some (1, 0) else none }
      else ArrayState.init

/-- The boot record after a loss of power before confirmation, which counts as one failure (R434). -/
def Firmware.powerLost (f : Firmware) : Firmware :=
  if f.pending = 0 then f
  else { f with pending := f.pending - 1, failReason := 3, boot := if f.pending = 1 then f.running else f.boot }

/-- An rkey after a restart: another number of 32 bits than before (R342). -/
def nextRkey (old draw : Nat) : Nat := (old + 1 + draw % (2 ^ 32 - 1)) % 2 ^ 32

/-- The module stopped as at power-off: it keeps cells, motif table and selvage, and loses the rest (R468). The outboxes, the count of draws and the queue
are the model's own and go on. -/
def State.stopped (s : State) : State :=
  let table := s.motifs.table.map fun e => (e.1, s.keptEntry e.1 e.2)
  let z := State.reset
  { z with
    port := { z.port with rkeys := s.port.rkeys.mapIdx fun i k => nextRkey k (Config.draw (s.draws + i)), out := s.port.out }
    start := { z.start with powerGood := false, stage := 0, slot := s.start.slot, holdupL := s.start.holdupL, resetL := s.start.resetL,
                            pwrGood := s.start.pwrGood }
    mem := { z.mem with retired := s.mem.retired }
    arrays := { z.arrays with
      addr := Tab.tabulate ArrayState.init Config.arrays (bootService s table)
      phys := (s.arrays.phys.map fun e => (e.1, e.2.unpowered)).filter fun e => e.2 ≠ PhysArray.init
      remap := s.arrays.remap, retired := s.arrays.retired }
    motifs := { z.motifs with table := table.filter fun e => e.2 ≠ MotifEntry.init }
    knots := { z.knots with wakes := s.knots.wakes, reply := s.knots.reply }
    fabric := { z.fabric with out := s.fabric.out, flits := s.fabric.flits }
    fw := { s.fw with activation := none, holdSteps := false }
    cfg := { z.cfg with slotA := s.cfg.slotA, slotB := s.cfg.slotB }
    islands := { z.islands with
      island := (s.islands.island.map fun e => (e.1, { Island.init with state := if e.2.state = 2 then 2 else 0 })).filter fun e => e.2 ≠ Island.init }
    draws := s.draws + 8
    pending := s.pending }

/-- Loss of power good (R461, R465, R468). -/
def State.powerLoss (s : State) : State :=
  let t := s.stopped
  { t with fw := t.fw.powerLost }

/-- Stage 1 begins: module time is 0, `SLOT_ID` is latched (R348, R466, R470). -/
def State.beginStart (s : State) (slotPins : Nat) : State :=
  { s with
    time := { s.time with t16 := 0, fine := 0 }
    start := { s.start with powerGood := true, stage := 1, stageStart := 0, slot := slotPins % 16 } }

/-- POWER_GOOD (R465, R466). -/
def execPowerGood (slotPins : Nat) (holdupL : Bool) (s : State) : Result :=
  .next (onlyIf (!s.start.powerGood && s.start.resetL) s
    (({ s with start := { s.start with pwrGood := true, holdupL := holdupL } } : State).beginStart slotPins))

/-- PWR_GOOD_FALL ends power good at once (R465). -/
def execPwrGoodFall (s : State) : Result :=
  .next (onlyIf s.start.powerGood s
    (let t := s.powerLoss
    { t with start := { t.start with pwrGood := false, resetL := true } }))

/-- INPUT_UNDERVOLTAGE: an input below 36 V for 1 ms ends power good (R461). -/
def execInputUndervoltage (mv : Nat) (s : State) : Result :=
  .next (onlyIf (s.start.powerGood && decide (mv < 36000)) s
    (let t := s.powerLoss
    { t with start := { t.start with resetL := true } }))

/-- HARD_RESET: `RESET_L` low for at least 10 µs while power good holds; the rails stay up, and the module waits for the release (R467). -/
def execHardReset (lowNs : Nat) (s : State) : Result :=
  .next (onlyIf (s.start.powerGood && decide (10000 ≤ lowNs)) s
    (let t := s.stopped
    { t with start := { t.start with powerGood := true, resetL := false } }))

/-- RESET_RELEASE counts as power good for R348 and for stage 1 (R466, R467). -/
def execResetRelease (slotPins : Nat) (s : State) : Result :=
  .next (onlyIf (s.start.powerGood && !s.start.resetL) s
    (({ s with start := { s.start with resetL := true } } : State).beginStart slotPins))

/-! ### Stages (R470 to R472) -/

/-- ROM_BOOT: the ROM has checked the selvage records and read the boot record; what was interrupted is already resolved. Later than 0.5 s it leaves the
ROM state (R469, R470); after a hardware trip start-up does not go on (R473). -/
def execRomBoot (s : State) : Result :=
  .next (onlyIf (s.start.powerGood && s.start.resetL && decide (s.start.stage = 1) && !s.start.rom && !s.start.hwTrip) s
    (if s.start.stageStart + 500000000 < s.now then s.enterRom
     else { s with start := { s.start with stage := 2, stageStart := s.now } }))

/-- MEMORY_TRAINING: all 8 stacks trained ends stage 3; a stack that fails three attempts, or the limit of 6 s passed, brings the safe state and a DEGRADED
record (R406, R470).
In the ROM state memory is trained without a stage (R472). -/
def execMemoryTraining (trained : List Bool) (s : State) : Result :=
  .next (onlyIf (s.start.powerGood && decide (trained.length = 8 ∧ s.start.stage = 3) && !s.start.rom && !s.start.safe) s
    (if trained.all id && decide (s.now ≤ s.start.stageStart + 6000000000) then { s with start := { s.start with stage := 4, stageStart := s.now } }
     else
       ({ s with
          start := { s.start with safe := true, memoryFailed := true }
          time := { s.time with withdrawn := true, lock := 3, holdoverSince := s.now } } : State).drivePins.ev 15 3 0 kModule 0
         (leBytes 1 kStack ++ leBytes 2 (trained.filter id).length ++ leBytes 1 0)))

/-- Whether a bride's classing no longer holds stage 4: its input is not GOOD, it is unused or classed, or it has no partner planned and found none within
2 s (R322, R470). -/
def State.classedEnough (s : State) (b : Nat) : Bool :=
  let l := Tab.get Light.init s.fabric.light (b / 4)
  decide (l.state ≠ 3) || s.unusedBride b || (s.bride b).classed || ((s.expected b).isNone && decide (l.since + 2000000000 ≤ s.now))

/-- LINKS_UP ends stage 4: brides classed and the host port up, or 4 s gone by; election converged, the time unit LOCKED and its one step taken
(R351, R357, R470). The arrays that may begin warm-up do so (R174, R471). -/
def execLinksUp (s : State) : Result :=
  .next (
    let ready := ((List.range 32).all s.classedEnough && (s.port.up || !portLightGood s)) || decide (s.start.stageStart + 4000000000 ≤ s.now)
    onlyIf (s.start.powerGood && decide (s.start.stage = 4) && !s.start.safe && ready &&
        s.time.groupRef.isSome && decide (s.time.lock = 2) && s.time.stepped) s
      ({ s with start := { s.start with stage := 5, stageStart := s.now } } : State).startArrays)

/-- Whether an addressable array has left WARMUP and CONFIRM, or will not come back on its present array (R172, R470). -/
def State.calibrated (s : State) (a : Nat) : Bool :=
  match s.workOf a with
  | none => true
  | some p => decide ((s.phys p).calState = 3) || (s.array a).retire.isSome ||
      (match (s.phys p).cells with
       | some h => decide ((s.motif h.motif).state = 3 ∧ (s.motif h.motif).gen.toNat = h.gen)
       | none => false)

/-- MODULE_READY ends stage 5: the mirrors of READY motifs are present, and every array of the calibration schedule has left WARMUP and CONFIRM (R470). -/
def execModuleReady (s : State) : Result :=
  .next (onlyIf (s.start.powerGood && decide (s.start.stage = 5) && !s.start.safe && s.mirrorsPresent && (List.range Config.arrays).all s.calibrated) s
    { s with start := { s.start with stage := 6, stageStart := s.now } })

end Sys2Proof.Machine
end

