-- ==== Sys2Proof/Machine/Dispatch.lean ====
section
/-! DEFINITION. One arm per command, each a direct call of its meaning. -/

namespace Sys2Proof.Machine

/-- The effect of a command on everything but the queue. -/
def exec (i : Instr) (s : State) : Host.Outcome State Fault Refusal :=
  match i with
  | .hostWrite qp addr data => Sys2Proof.Machine.execHostWrite qp addr data s
  | .mailboxEntryWrite qp addr data => Sys2Proof.Machine.execMailboxEntryWrite qp addr data s
  | .readCountWrite m value => Sys2Proof.Machine.execReadCountWrite m value s
  | .eventLogReadCountWrite value => Sys2Proof.Machine.execEventLogReadCountWrite value s
  | .captureReadCountWrite value => Sys2Proof.Machine.execCaptureReadCountWrite value s
  | .doorbell qp len => Sys2Proof.Machine.execDoorbell qp len s
  | .ringScan => Sys2Proof.Machine.execRingScan s
  | .mailboxConsume m => Sys2Proof.Machine.execMailboxConsume m s
  | .statusWordUpdate m => Sys2Proof.Machine.execStatusWordUpdate m s
  | .identify m => Sys2Proof.Machine.execIdentify m s
  | .configRead m => Sys2Proof.Machine.execConfigRead m s
  | .configStage m => Sys2Proof.Machine.execConfigStage m s
  | .configCommit m => Sys2Proof.Machine.execConfigCommit m s
  | .configRevert m => Sys2Proof.Machine.execConfigRevert m s
  | .motifLoad m => Sys2Proof.Machine.execMotifLoad m s
  | .motifLoadReplace m => Sys2Proof.Machine.execMotifLoadReplace m s
  | .motifSwitch m => Sys2Proof.Machine.execMotifSwitch m s
  | .motifDrop m => Sys2Proof.Machine.execMotifDrop m s
  | .motifQuery m => Sys2Proof.Machine.execMotifQuery m s
  | .seqOpen m => Sys2Proof.Machine.execSeqOpen m s
  | .seqAppend m => Sys2Proof.Machine.execSeqAppend m s
  | .seqGenerate m => Sys2Proof.Machine.execSeqGenerate m s
  | .cancel m => Sys2Proof.Machine.execCancel m s
  | .seqFork m => Sys2Proof.Machine.execSeqFork m s
  | .seqClose m => Sys2Proof.Machine.execSeqClose m s
  | .pagesBind m => Sys2Proof.Machine.execPagesBind m s
  | .calFreeze m => Sys2Proof.Machine.execCalFreeze m s
  | .calThaw m => Sys2Proof.Machine.execCalThaw m s
  | .calCommit m => Sys2Proof.Machine.execCalCommit m s
  | .healthRead m => Sys2Proof.Machine.execHealthRead m s
  | .monitorProgram m => Sys2Proof.Machine.execMonitorProgram m s
  | .timeRead m => Sys2Proof.Machine.execTimeRead m s
  | .takeover m => Sys2Proof.Machine.execTakeover m s
  | .handback m => Sys2Proof.Machine.execHandback m s
  | .fwStage m => Sys2Proof.Machine.execFwStage m s
  | .fwActivate m => Sys2Proof.Machine.execFwActivate m s
  | .fwRevert m => Sys2Proof.Machine.execFwRevert m s
  | .ownerLockSet m => Sys2Proof.Machine.execOwnerLockSet m s
  | .ownerLockClear m => Sys2Proof.Machine.execOwnerLockClear m s
  | .attest m => Sys2Proof.Machine.execAttest m s
  | .doneRecordWrite m => Sys2Proof.Machine.execDoneRecordWrite m s
  | .prefillStepStart motif seq => Sys2Proof.Machine.execPrefillStepStart motif seq s
  | .generationStepStart motif seq => Sys2Proof.Machine.execGenerationStepStart motif seq s
  | .companionStep main seq logits => Sys2Proof.Machine.execCompanionStep main seq logits s
  | .tree tag nodes => Sys2Proof.Machine.execTree tag nodes s
  | .rotation tag matrix row seeds values => Sys2Proof.Machine.execRotation tag matrix row seeds values s
  | .vectorLatch array v => Sys2Proof.Machine.execVectorLatch array v s
  | .picotCheckReport array => Sys2Proof.Machine.execPicotCheckReport array s
  | .internalVector phys bits => Sys2Proof.Machine.execInternalVector phys bits s
  | .chainPartial key position => Sys2Proof.Machine.execChainPartial key position s
  | .tambourTile array key position v => Sys2Proof.Machine.execTambourTile array key position v s
  | .chainEndPromote key => Sys2Proof.Machine.execChainEndPromote key s
  | .matrixOutput key => Sys2Proof.Machine.execMatrixOutput key s
  | .precisionWindowEnd motif layer => Sys2Proof.Machine.execPrecisionWindowEnd motif layer s
  | .act tag firstRow rows => Sys2Proof.Machine.execAct tag firstRow rows s
  | .query source tag last rows => Sys2Proof.Machine.execQuery source tag last rows s
  | .slot source tag slots => Sys2Proof.Machine.execSlot source tag slots s
  | .workUnit pipe tag group run => Sys2Proof.Machine.execWorkUnit pipe tag group run s
  | .workUnitEnd pipe => Sys2Proof.Machine.execWorkUnitEnd pipe s
  | .moduleMerge tag group => Sys2Proof.Machine.execModuleMerge tag group s
  | .partialRows source tag recs => Sys2Proof.Machine.execPartialRows source tag recs s
  | .merged tag recs => Sys2Proof.Machine.execMerged tag recs s
  | .check tag c => Sys2Proof.Machine.execCheck tag c s
  | .checkSend tag => Sys2Proof.Machine.execCheckSend tag s
  | .commitDecision tag => Sys2Proof.Machine.execCommitDecision tag s
  | .commit tag relay c => Sys2Proof.Machine.execCommit tag relay c s
  | .compact tag slot => Sys2Proof.Machine.execCompact tag slot s
  | .recallRaise tag cause layer array => Sys2Proof.Machine.execRecallRaise tag cause layer array s
  | .recall tag r => Sys2Proof.Machine.execRecall tag r s
  | .replay tag => Sys2Proof.Machine.execReplay tag s
  | .arm port knot threshold guard count serves => Sys2Proof.Machine.execArm port knot threshold guard count serves s
  | .add port knot delta guard => Sys2Proof.Machine.execAdd port knot delta guard s
  | .fetchAdd port knot delta guard => Sys2Proof.Machine.execFetchAdd port knot delta guard s
  | .rearm port knot threshold guard count => Sys2Proof.Machine.execRearm port knot threshold guard count s
  | .free port knot => Sys2Proof.Machine.execFree port knot s
  | .knotAdd bride knot delta guard => Sys2Proof.Machine.execKnotAdd bride knot delta guard s
  | .heartbeatSend => Sys2Proof.Machine.execHeartbeatSend s
  | .heartbeat peer time => Sys2Proof.Machine.execHeartbeat peer time s
  | .heartbeatMissing peer => Sys2Proof.Machine.execHeartbeatMissing peer s
  | .badType bride type source => Sys2Proof.Machine.execBadType bride type source s
  | .messageForward bride msg => Sys2Proof.Machine.execMessageForward bride msg s
  | .loadOrder source o => Sys2Proof.Machine.execLoadOrder source o s
  | .shardFetchEnd motif => Sys2Proof.Machine.execShardFetchEnd motif s
  | .programmingRoundEnd motif failed multi => Sys2Proof.Machine.execProgrammingRoundEnd motif failed multi s
  | .loadReport r => Sys2Proof.Machine.execLoadReport r s
  | .loadComplete motif => Sys2Proof.Machine.execLoadComplete motif s
  | .shardCopy source motif gen offset data => Sys2Proof.Machine.execShardCopy source motif gen offset data s
  | .pageCopy source seq motif layer localIndex home data checksum => Sys2Proof.Machine.execPageCopy source seq motif layer localIndex home data checksum s
  | .switch motif gen => Sys2Proof.Machine.execSwitch motif gen s
  | .oldCopyRelease motif => Sys2Proof.Machine.execOldCopyRelease motif s
  | .headSync h => Sys2Proof.Machine.execHeadSync h s
  | .role r => Sys2Proof.Machine.execRole r s
  | .unplannedTakeover peer => Sys2Proof.Machine.execUnplannedTakeover peer s
  | .mirrorRestore motif source => Sys2Proof.Machine.execMirrorRestore motif source s
  | .calServiceWindowEnd phys => Sys2Proof.Machine.execCalServiceWindowEnd phys s
  | .windowTopUp phys => Sys2Proof.Machine.execWindowTopUp phys s
  | .shadowCommit phys => Sys2Proof.Machine.execShadowCommit phys s
  | .warmupWindowEnd phys => Sys2Proof.Machine.execWarmupWindowEnd phys s
  | .confirmWindowEnd phys => Sys2Proof.Machine.execConfirmWindowEnd phys s
  | .freezeEnd => Sys2Proof.Machine.execFreezeEnd s
  | .refresh array readings margin => Sys2Proof.Machine.execRefresh array readings margin s
  | .standaloneMarginRun array margin => Sys2Proof.Machine.execStandaloneMarginRun array margin s
  | .marginWindow island => Sys2Proof.Machine.execMarginWindow island s
  | .arrayRetire array reason => Sys2Proof.Machine.execArrayRetire array reason s
  | .spareProgrammed array => Sys2Proof.Machine.execSpareProgrammed array s
  | .islandRetire island reason => Sys2Proof.Machine.execIslandRetire island reason s
  | .degraded kind => Sys2Proof.Machine.execDegraded kind s
  | .arrayAudit key => Sys2Proof.Machine.execArrayAudit key s
  | .auditDropped key => Sys2Proof.Machine.execAuditDropped key s
  | .duplicateAudit tag island r0 r1 r2 => Sys2Proof.Machine.execDuplicateAudit tag island r0 r1 r2 s
  | .scrubPass corrected => Sys2Proof.Machine.execScrubPass corrected s
  | .uncorrectable kind index addr word reader tag => Sys2Proof.Machine.execUncorrectable kind index addr word reader tag s
  | .regionRetired stack region => Sys2Proof.Machine.execRegionRetired stack region s
  | .rebuilt stack addr sourceRow data motif array => Sys2Proof.Machine.execRebuilt stack addr sourceRow data motif array s
  | .flit bride data corrected uncorrectable => Sys2Proof.Machine.execFlit bride data corrected uncorrectable s
  | .nak bride mask marker expected => Sys2Proof.Machine.execNak bride mask marker expected s
  | .brideDown bride => Sys2Proof.Machine.execBrideDown bride s
  | .laneOut bride lane => Sys2Proof.Machine.execLaneOut bride lane s
  | .lossOfLock bride => Sys2Proof.Machine.execLossOfLock bride s
  | .routeSwitch bride => Sys2Proof.Machine.execRouteSwitch bride s
  | .linkNotice n => Sys2Proof.Machine.execLinkNotice n s
  | .linkNoticeTimeout bride => Sys2Proof.Machine.execLinkNoticeTimeout bride s
  | .groupLinks group topoVersion joined => Sys2Proof.Machine.execGroupLinks group topoVersion joined s
  | .groupLinksSend => Sys2Proof.Machine.execGroupLinksSend s
  | .topoReady peer topoVersion => Sys2Proof.Machine.execTopoReady peer topoVersion s
  | .training bride rec1 rec2 rtt lanes => Sys2Proof.Machine.execTraining bride rec1 rec2 rtt lanes s
  | .trainingRetry bride locked => Sys2Proof.Machine.execTrainingRetry bride locked s
  | .brideClassing bride => Sys2Proof.Machine.execBrideClassing bride s
  | .hold bride => Sys2Proof.Machine.execHold bride s
  | .reshapeDrainEnd bride => Sys2Proof.Machine.execReshapeDrainEnd bride s
  | .lightSupplyChange input present low => Sys2Proof.Machine.execLightSupplyChange input present low s
  | .lightSupplyGood input => Sys2Proof.Machine.execLightSupplyGood input s
  | .timingFlitSend bride => Sys2Proof.Machine.execTimingFlitSend bride s
  | .timingFlit bride f rx => Sys2Proof.Machine.execTimingFlit bride f rx s
  | .phaseCorrection => Sys2Proof.Machine.execPhaseCorrection s
  | .timeStep reference => Sys2Proof.Machine.execTimeStep reference s
  | .slew => Sys2Proof.Machine.execSlew s
  | .lockStateChange => Sys2Proof.Machine.execLockStateChange s
  | .timeElectSend => Sys2Proof.Machine.execTimeElectSend s
  | .timeElect source scope c => Sys2Proof.Machine.execTimeElect source scope c s
  | .candidateExpiry scope id => Sys2Proof.Machine.execCandidateExpiry scope id s
  | .timeOffset source state stratum gateLink master offset delay => Sys2Proof.Machine.execTimeOffset source state stratum gateLink master offset delay s
  | .gateLinkChange => Sys2Proof.Machine.execGateLinkChange s
  | .ppsInEdge => Sys2Proof.Machine.execPpsInEdge s
  | .referenceValidity input intervals hz => Sys2Proof.Machine.execReferenceValidity input intervals hz s
  | .ptpAnnounceSend => Sys2Proof.Machine.execPtpAnnounceSend s
  | .ptpSyncSend => Sys2Proof.Machine.execPtpSyncSend s
  | .delayReq clock sequence => Sys2Proof.Machine.execDelayReq clock sequence s
  | .announce clock => Sys2Proof.Machine.execAnnounce clock s
  | .req transport priv priority mtu => Sys2Proof.Machine.execReq transport priv priority mtu s
  | .rdmaWrite qp rkey addr data => Sys2Proof.Machine.execRdmaWrite qp rkey addr data s
  | .rdmaRead qp rkey addr len => Sys2Proof.Machine.execRdmaRead qp rkey addr len s
  | .unsupportedOperation qp => Sys2Proof.Machine.execUnsupportedOperation qp s
  | .ackTimeout qp => Sys2Proof.Machine.execAckTimeout qp s
  | .frameDrop reason => Sys2Proof.Machine.execFrameDrop reason s
  | .arp kind addr => Sys2Proof.Machine.execArp kind addr s
  | .pause priority quanta => Sys2Proof.Machine.execPause priority quanta s
  | .pauseSend priority fill => Sys2Proof.Machine.execPauseSend priority fill s
  | .ceMark qp => Sys2Proof.Machine.execCeMark qp s
  | .congestionNotification qp => Sys2Proof.Machine.execCongestionNotification qp s
  | .rateRise qp => Sys2Proof.Machine.execRateRise qp s
  | .lldpSend => Sys2Proof.Machine.execLldpSend s
  | .lldp frame => Sys2Proof.Machine.execLldp frame s
  | .hostPortLink up => Sys2Proof.Machine.execHostPortLink up s
  | .sensorReading sensor value => Sys2Proof.Machine.execSensorReading sensor value s
  | .throttleUp => Sys2Proof.Machine.execThrottleUp s
  | .throttleDown => Sys2Proof.Machine.execThrottleDown s
  | .trip => Sys2Proof.Machine.execTrip s
  | .hardwareTrip a b => Sys2Proof.Machine.execHardwareTrip a b s
  | .sensorGood sensor => Sys2Proof.Machine.execSensorGood sensor s
  | .safeExit => Sys2Proof.Machine.execSafeExit s
  | .governorInterval mv ma power => Sys2Proof.Machine.execGovernorInterval mv ma power s
  | .inputLow mv => Sys2Proof.Machine.execInputLow mv s
  | .inputRestored mv => Sys2Proof.Machine.execInputRestored mv s
  | .monitorEntry entry samples => Sys2Proof.Machine.execMonitorEntry entry samples s
  | .late entry => Sys2Proof.Machine.execLate entry s
  | .fwConfirm => Sys2Proof.Machine.execFwConfirm s
  | .fwBootFailed reason => Sys2Proof.Machine.execFwBootFailed reason s
  | .powerGood slotPins holdupL => Sys2Proof.Machine.execPowerGood slotPins holdupL s
  | .pwrGoodFall => Sys2Proof.Machine.execPwrGoodFall s
  | .inputUndervoltage mv => Sys2Proof.Machine.execInputUndervoltage mv s
  | .hardReset lowNs => Sys2Proof.Machine.execHardReset lowNs s
  | .resetRelease slotPins => Sys2Proof.Machine.execResetRelease slotPins s
  | .romBoot => Sys2Proof.Machine.execRomBoot s
  | .memoryTraining trained => Sys2Proof.Machine.execMemoryTraining trained s
  | .linksUp => Sys2Proof.Machine.execLinksUp s
  | .moduleReady => Sys2Proof.Machine.execModuleReady s
  | .rdmaResponse qp kind owner ok data => Sys2Proof.Machine.execRdmaResponse qp kind owner ok data s
  | .disconnect qp => Sys2Proof.Machine.execDisconnect qp s
  | .dutyWindowEnd => Sys2Proof.Machine.execDutyWindowEnd s
  | .reshapeMissing bride => Sys2Proof.Machine.execReshapeMissing bride s
  | .marginWindowEnd island result => Sys2Proof.Machine.execMarginWindowEnd island result s
  | .ppsOutEdge => Sys2Proof.Machine.execPpsOutEdge s

end Sys2Proof.Machine
end

