-- ==== Sys2Proof/Machine/Tick.lean ====
section
/-! DEFINITION. What passes while no command waits: module time moves on by one nanosecond at the rate in force (R9, R348, R349, R358). -/

namespace Sys2Proof.Machine

/-- Module time gained per nanosecond, in 2^-16 ns: normal, half or one and a half times (R349). -/
def rateStep (rate : Nat) : Nat := if rate = 1 then 32768 else if rate = 2 then 98304 else 65536

/-- The time unit one nanosecond on, with the frequency correction in force. -/
def TimeUnit.tick (u : TimeUnit) : TimeUnit :=
  let total := u.fine + rateStep u.rate * (1000000000 + u.ppb).toNat
  { u with t16 := u.t16 + total / 1000000000, fine := total % 1000000000 }

/-- Whether the module's clock runs: from power good, and not while `RESET_L` holds the module (R348, R467). -/
def State.clockRuns (s : State) : Bool := s.start.powerGood && s.start.resetL

/-- One idle nanosecond while the clock runs: module time moves on, `PPS_OUT` falls 100 ms after its edge (R464), and time spent above level 0 is counted (R416). -/
def idle (s : State) : State :=
  onlyIf s.clockRuns s { s with
    time := s.time.tick
    start := { s.start with ppsOut := s.start.ppsOut && decide (s.time.tick.t16 / 65536 % 1000000000 < 100000000) }
    thermal := { s.thermal with throttled := s.thermal.throttled + b2n (decide (0 < s.level)) } }

end Sys2Proof.Machine
end

