-- ==== Sys2Proof/Safety.lean ====
section
/-! DEFINITION. What the statements speak of: commands that can run, commands that have completed, and what a good state of the module is. -/

namespace Sys2Proof.Machine

/-- A command with the entry `e` and the opcode `op` is in progress on mailbox `m`, its firmware runs, and its DONE record will find a free slot. -/
def Ready (s : State) (m op : Nat) (e : Bytes) : Prop :=
  m < 64 ∧ s.restarting = false ∧ (s.box m).cur.map (·.entry) = some e ∧ entryOp e = op ∧ (s.box m).doneWait = none ∧
  (s.box m).records - (s.box m).readCount < 16383 ∧ s.cfg.breakQps = false

/-- Between `s` and `t` the command on mailbox `m` has completed: its DONE record is in the ring and DONE, the status and the progress are visible (R72, R78);
no other mailbox has changed. -/
def Completes (s t : State) (m status detail progress result : Nat) : Prop :=
  (t.box m).cur = none ∧ (t.box m).doneWait = none ∧ (t.box m).done = true ∧ (t.box m).idle = true ∧ (t.box m).status = status ∧
  (t.box m).detail = detail ∧ (t.box m).progress = progress ∧ (t.box m).records = (s.box m).records + 1 ∧
  Tab.get (zeros 64) (t.box m).results (1 + (s.box m).records % 16383) =
    recordBytes m (s.box m) 2 s.now (doneFields { status := status, detail := detail, progress := progress, result := result }) ∧
  ∀ k, k ≠ m → t.box k = s.box k

/-- The module's memory is in its one canonical form. -/
def State.memCanonical (s : State) : Prop := s.mem.wf = true

/-- What never goes back in the selvage (R432): the version floor never falls and a revoked key stays revoked. -/
def State.keepsTrust (s t : State) : Prop := s.fw.floor ≤ t.fw.floor ∧ s.fw.revoked &&& t.fw.revoked = s.fw.revoked

end Sys2Proof.Machine
end

