-- ==== Sys2Proof/WellFormed.lean ====
section
/-! DEFINITION. Well-formed commands: operands that the spec's numbering (R1, R4) and field widths allow. -/

namespace Sys2Proof

/-- R4: mailbox numbers. -/
def okMailbox (m : Nat) : Bool := decide (m < 64)
/-- R4: addressable arrays. -/
def okArray (a : Nat) : Bool := decide (a < Config.arrays)
/-- R1: physical arrays. -/
def okPhys (p : Nat) : Bool := decide (p < Config.physArrays)
/-- R4: knots. -/
def okKnot (k : Nat) : Bool := decide (k < 4096)
/-- R4: brides. -/
def okBride (b : Nat) : Bool := decide (b < 32)
/-- R4: motifs. -/
def okMotif (m : Nat) : Bool := decide (m < 16)
/-- R4: machine ids. -/
def okMachine (id : Nat) : Bool := decide (id < 4096)
/-- R22: sequence ids, 24 bits. -/
def okSeq (q : Nat) : Bool := decide (q < 16777216)
/-- R399: sensors. -/
def okSensor (i : Nat) : Bool := decide (i < 196)
/-- R315: light-supply inputs. -/
def okInput (i : Nat) : Bool := decide (i < 9)
/-- R192: attention pipelines. -/
def okPipe (p : Nat) : Bool := decide (p < 48)
/-- R380: digital islands. -/
def okIsland (i : Nat) : Bool := decide (i < 252)
/-- R420: sequencer entries. -/
def okEntry (i : Nat) : Bool := decide (i < 32)
/-- R10: a field of `w` bits. -/
def okField (w n : Nat) : Bool := decide (n < 2 ^ w)
/-- R342: queue pair numbers, 24 bits. -/
def okQp (q : Nat) : Bool := okField 24 q
/-- R345: priorities. -/
def okPriority (p : Nat) : Bool := decide (p < 8)
/-- R240: the fields of a step tag. -/
def StepTag.ok (t : StepTag) : Bool :=
  okField 64 t.step && okSeq t.seq && okMotif t.motif && okField 16 t.gen && decide (t.layer < 4096) &&
    (match t.companion with | none => true | some m => okMotif m)
/-- R86: a live vector: 1, 2, 3, 4 or 8 bits, 1,024 elements, an exponent of 8 bits. -/
def LiveVector.ok (v : LiveVector) : Bool := v.tag.ok && decide (v.bits ≤ 8 ∧ v.elems.length = 1024) && okField 8 v.exponent
/-- R132, R273: a chain of a matrix. -/
def ChainKey.ok (k : ChainKey) : Bool := k.tag.ok && okField 8 k.matrix && okField 16 k.outputBlock && okField 16 k.chain && okField 16 k.row
/-- R245: a query row. -/
def QueryRow.ok (r : QueryRow) : Bool :=
  okField 16 r.row && okField 8 r.qHead && okField 8 r.kvHead && okField 8 r.node && okField 32 r.position && okField 32 r.kvLength &&
    decide (r.elems.length = 128 ∧ r.scales.length = 4)
/-- R232: a row partial. -/
def RowPartial.ok (p : RowPartial) : Bool := okField 16 p.row && decide (p.layer < 4096) && decide (p.rank < 16 ∧ p.o.length = 128)
/-- R244: a slot of a SLOT or COMPACT message. -/
def SlotData.ok (x : SlotData) : Bool := okField 32 x.position && okField 8 x.node
/-- R37: at most 64 nodes; a parent lies below its node. -/
def okTree (nodes : List TreeNode) : Bool := decide (nodes.length ≤ 64) && nodes.all fun n => okSeq n.token && decide (n.parent < 64)
/-- R366: positions of a chain, and the units of work. -/
def okPosition (p : Nat) : Bool := decide (p < 16)
/-- R307: a flit's bytes. -/
def okFlit (data : List (BitVec 8)) : Bool := decide (data.length = 512)
/-- R373: a word of 68 symbols. -/
def CodeWord.ok (w : CodeWord) : Bool := decide (w.symbols.length = 68)
/-- R352: a candidacy. -/
def Candidacy.ok (c : Candidacy) : Bool := okMachine c.machineId && okField 8 c.timePriority && okField 64 c.serial
/-- R53: an address of 64 bits and the bytes of a transfer, which are some. -/
def okBytes (addr : Nat) (data : List (BitVec 8)) : Bool := okField 64 addr && decide (data ≠ [])
/-- R378, R379: a cell reading lies in an array. -/
def CellReading.ok (c : CellReading) : Bool := decide (c.row < 1024 ∧ c.column < 576)

/-- Whether every operand of a command is one the spec admits. -/
def Instr.wf : Instr → Bool
  | .hostWrite qp addr data => okQp qp && okBytes addr data
  | .mailboxEntryWrite qp addr data => okQp qp && okBytes addr data
  | .readCountWrite m value => okMailbox m && okField 64 value
  | .eventLogReadCountWrite value => okField 64 value
  | .captureReadCountWrite value => okField 64 value
  | .doorbell qp _ => okQp qp
  | .ringScan => true
  | .mailboxConsume m => okMailbox m
  | .statusWordUpdate m => okMailbox m
  | .identify m => okMailbox m
  | .configRead m => okMailbox m
  | .configStage m => okMailbox m
  | .configCommit m => okMailbox m
  | .configRevert m => okMailbox m
  | .motifLoad m => okMailbox m
  | .motifLoadReplace m => okMailbox m
  | .motifSwitch m => okMailbox m
  | .motifDrop m => okMailbox m
  | .motifQuery m => okMailbox m
  | .seqOpen m => okMailbox m
  | .seqAppend m => okMailbox m
  | .seqGenerate m => okMailbox m
  | .cancel m => okMailbox m
  | .seqFork m => okMailbox m
  | .seqClose m => okMailbox m
  | .pagesBind m => okMailbox m
  | .calFreeze m => okMailbox m
  | .calThaw m => okMailbox m
  | .calCommit m => okMailbox m
  | .healthRead m => okMailbox m
  | .monitorProgram m => okMailbox m
  | .timeRead m => okMailbox m
  | .takeover m => okMailbox m
  | .handback m => okMailbox m
  | .fwStage m => okMailbox m
  | .fwActivate m => okMailbox m
  | .fwRevert m => okMailbox m
  | .ownerLockSet m => okMailbox m
  | .ownerLockClear m => okMailbox m
  | .attest m => okMailbox m
  | .doneRecordWrite m => okMailbox m
  | .prefillStepStart motif seq => okMotif motif && okSeq seq
  | .generationStepStart motif seq => okMotif motif && okSeq seq
  | .companionStep main seq _ => okMotif main && okSeq seq
  | .tree tag nodes => tag.ok && okTree nodes
  | .rotation tag matrix row _ _ => tag.ok && okField 8 matrix && okField 16 row
  | .vectorLatch array v => okArray array && v.ok
  | .picotCheckReport array => okArray array
  | .internalVector phys bits => okPhys phys && decide (bits ≤ 8)
  | .chainPartial key position => key.ok && okPosition position
  | .tambourTile array key position v => okArray array && key.ok && okPosition position && v.ok
  | .chainEndPromote key => key.ok
  | .matrixOutput key => key.ok
  | .precisionWindowEnd motif layer => okMotif motif && decide (layer < 4096)
  | .act tag firstRow _ => tag.ok && okField 16 firstRow
  | .query source tag _ x => okMachine source && tag.ok && x.rows.all QueryRow.ok && x.heads.all fun h => decide (h.length = 128)
  | .slot source tag x => okMachine source && tag.ok && x.slots.all SlotData.ok && x.heads.all fun h => h.all fun x => decide (x.1.length = 128 ∧ x.2.length = 128)
  | .workUnit pipe tag _ _ => okPipe pipe && tag.ok
  | .workUnitEnd pipe => okPipe pipe
  | .moduleMerge tag _ => tag.ok
  | .partialRows source tag recs => okMachine source && tag.ok && recs.all RowPartial.ok
  | .merged tag recs => tag.ok && recs.all RowPartial.ok
  | .check tag _ => tag.ok
  | .checkSend tag => tag.ok
  | .commitDecision tag => tag.ok
  | .commit tag _ _ => tag.ok
  | .compact tag data => tag.ok && data.ok
  | .recallRaise tag cause layer array => tag.ok && decide (1 ≤ cause ∧ cause ≤ 6 ∧ layer < 4096) && okField 16 array
  | .recall tag _ => tag.ok
  | .replay tag => tag.ok
  | .arm port knot _ _ _ _ => okField 16 port && okKnot knot
  | .add port knot _ _ => okField 16 port && okKnot knot
  | .fetchAdd port knot _ _ => okField 16 port && okKnot knot
  | .rearm port knot _ _ _ => okField 16 port && okKnot knot
  | .free port knot => okField 16 port && okKnot knot
  | .knotAdd bride knot _ _ => okBride bride && okKnot knot
  | .heartbeatSend => true
  | .heartbeat peer time => okMachine peer && okField 64 time
  | .heartbeatMissing peer => okMachine peer
  | .badType bride type source => okBride bride && okField 8 type && okMachine source
  | .messageForward bride msg => okBride bride && okMachine msg.dest
  | .loadOrder source o => okMachine source && okMotif o.motif
  | .shardFetchEnd motif => okMotif motif
  | .programmingRoundEnd motif failed multi => okMotif motif && failed.all (fun f => okArray f.array && decide (f.row < 1024)) && multi.all okArray
  | .loadReport r => okMachine r.machine && okMotif r.motif
  | .loadComplete motif => okMotif motif
  | .shardCopy source motif gen _ _ => okMachine source && okMotif motif && okField 16 gen
  | .pageCopy source seq motif layer localIndex _ _ _ =>
    okMachine source && okSeq seq && okMotif motif && decide (layer < 4096) && okField 32 localIndex
  | .switch motif gen => okMotif motif && okField 16 gen
  | .oldCopyRelease motif => okMotif motif
  | .headSync h => okMailbox h.mailbox
  | .role r => okMachine r.machine && okMachine r.holder
  | .unplannedTakeover peer => okMachine peer
  | .mirrorRestore motif _ => okMotif motif
  | .calServiceWindowEnd phys => okPhys phys
  | .windowTopUp phys => okPhys phys
  | .shadowCommit phys => okPhys phys
  | .warmupWindowEnd phys => okPhys phys
  | .confirmWindowEnd phys => okPhys phys
  | .freezeEnd => true
  | .refresh array readings _ => okArray array && readings.all CellReading.ok
  | .standaloneMarginRun array _ => okArray array
  | .marginWindow island => okIsland island
  | .arrayRetire array reason => okArray array && decide (1 ≤ reason ∧ reason ≤ 7)
  | .spareProgrammed array => okArray array
  | .islandRetire island reason => okIsland island && decide (1 ≤ reason ∧ reason ≤ 3)
  | .degraded kind => okField 8 kind
  | .arrayAudit key => key.ok
  | .auditDropped key => key.ok
  | .duplicateAudit tag island _ _ _ => tag.ok && decide (island < 240)
  | .scrubPass corrected => corrected.all fun c => decide (c.1 < 72)
  | .uncorrectable kind index addr word _ _ =>
    decide ((kind = 7 ∧ index < 8 ∧ addr < Config.memorySize) ∨ (kind = 8 ∧ index < 64)) && word.ok
  | .regionRetired stack region => decide (stack < 8 ∧ region < 33554432)
  | .rebuilt stack addr _ data _ _ => decide (stack < 8 ∧ addr < Config.memorySize ∧ (data.data.length = 64 ∨ data.data = []))
  | .flit bride data _ _ => okBride bride && okFlit data
  | .nak bride _ _ _ => okBride bride
  | .brideDown bride => okBride bride
  | .laneOut bride lane => okBride bride && decide (lane.lane < 8)
  | .lossOfLock bride => okBride bride
  | .routeSwitch bride => okBride bride
  | .linkNotice n => okMachine n.source && okBride n.bride
  | .linkNoticeTimeout bride => okBride bride
  | .groupLinks g _ joined => decide (g.group < 256) && okMachine g.source && joined.all fun g => decide (g < 256)
  | .groupLinksSend => true
  | .topoReady peer _ => okMachine peer
  | .training bride rec1 rec2 _ _ => okBride bride && decide (rec1.length = 64 ∧ rec2.length = 64)
  | .trainingRetry bride _ => okBride bride
  | .brideClassing bride => okBride bride
  | .hold bride => okBride bride
  | .reshapeDrainEnd bride => okBride bride
  | .lightSupplyChange input _ _ => okInput input
  | .lightSupplyGood input => okInput input
  | .timingFlitSend bride => okBride bride
  | .timingFlit bride f _ => okBride bride && decide (f.length = 512)
  | .phaseCorrection => true
  | .timeStep _ => true
  | .slew => true
  | .lockStateChange => true
  | .timeElectSend => true
  | .timeElect source scope c => okMachine source && decide (scope < 2) && c.ok
  | .candidateExpiry scope id => decide (scope < 2) && okMachine id
  | .timeOffset source _ _ _ _ _ _ => okMachine source
  | .gateLinkChange => true
  | .ppsInEdge => true
  | .referenceValidity input _ _ => decide (input < 2)
  | .ppsOutEdge => true
  | .ptpAnnounceSend => true
  | .ptpSyncSend => true
  | .delayReq clock r => okField 64 clock && okField 16 r.sequence && decide (r.transport < 3 ∧ r.domain < 256)
  | .announce clock => okField 64 clock
  | .req _ priv priority _ => decide (priv.length ≤ 64) && okPriority priority
  | .rdmaWrite qp rkey addr data => okQp qp && okField 32 rkey && okBytes addr data
  | .rdmaRead qp rkey addr len => okQp qp && okField 32 rkey && okField 64 addr && okField 32 len
  | .unsupportedOperation qp => okQp qp
  | .ackTimeout qp => okQp qp
  | .frameDrop f => f.tags.all (okField 12)
  | .arp kind _ => decide (kind < 4)
  | .pause priority quanta => okPriority priority && okField 16 quanta
  | .pauseSend priority _ => okPriority priority
  | .ceMark qp => okQp qp
  | .congestionNotification qp => okQp qp
  | .rateRise qp => okQp qp
  | .lldpSend => true
  | .lldp frame => decide (frame.length ≤ 9216)
  | .hostPortLink _ => true
  | .sensorReading sensor _ => okSensor sensor
  | .throttleUp => true
  | .throttleDown => true
  | .trip => true
  | .hardwareTrip a b => okSensor a && okSensor b
  | .sensorGood sensor => okSensor sensor
  | .safeExit => true
  | .governorInterval _ _ _ => true
  | .inputLow _ => true
  | .inputRestored _ => true
  | .monitorEntry entry _ => okEntry entry
  | .late entry => okEntry entry
  | .fwConfirm => true
  | .fwBootFailed reason => decide (1 ≤ reason ∧ reason ≤ 5)
  | .powerGood slotPins _ => decide (slotPins < 16)
  | .pwrGoodFall => true
  | .inputUndervoltage _ => true
  | .hardReset _ => true
  | .resetRelease slotPins => decide (slotPins < 16)
  | .romBoot => true
  | .memoryTraining trained => decide (trained.length = 8)
  | .linksUp => true
  | .moduleReady => true
  | .rdmaResponse qp kind owner _ _ => okQp qp && decide (kind < 2 ∧ owner < 64)
  | .disconnect qp => okQp qp
  | .dutyWindowEnd => true
  | .reshapeMissing bride => okBride bride
  | .marginWindowEnd island _ => okIsland island

end Sys2Proof
end

