-- ==== Sys2Proof/Certificates/Slice0/Obligations.lean ====
section
/-! DEFINITION. The statements for the provers: what each command does in the terms of its rules, what it leaves alone, and what every step keeps. -/

open Sys2Proof Sys2Proof.Machine

/-! ### The step, the queue and reset -/

/-- A step takes the command at the front of the queue and carries it out with the rest of the queue waiting (log 1). With no command waiting, module time
moves on by one nanosecond while the clock runs, and nothing else changes but `PPS_OUT` and the time spent throttled; without power or in reset
nothing changes (log 8). -/
def Obligations.StepRunsTheFrontCommand : Prop :=
  (∀ (c : Instr) (rest : List Instr) (s : State),
     step { s with pending := c :: rest } = exec c { s with pending := rest }) ∧
  (∀ s : State, s.pending = [] →
     (s.start.powerGood = false ∨ s.start.resetL = false → step s = .next s) ∧
     (s.time.ppb = 0 → s.start.powerGood = true → s.start.resetL = true → ∃ t, step s = .next t ∧ t = { s with time := t.time, start := t.start, thermal := t.thermal } ∧
       t.start = { s.start with ppsOut := t.start.ppsOut } ∧ t.thermal = { s.thermal with throttled := t.thermal.throttled } ∧
       (s.time.rate = 0 → t.time = { s.time with t16 := s.time.t16 + 65536 + s.time.fine / 1000000000, fine := s.time.fine % 1000000000 }) ∧
       (s.level = 0 → t.thermal.throttled = s.thermal.throttled) ∧
       (0 < s.level → t.thermal.throttled = s.thermal.throttled + 1)))

/-- No command changes the queue: whatever a command does, the commands that wait are those that waited (log 1). -/
def Obligations.CommandsLeaveTheQueue : Prop :=
  ∀ (c : Instr) (s t : State), exec c s = .next t → t.pending = s.pending

/-- Every well-formed command is carried out in every state, and no command is refused in any: the only stops are those of a number that names no object
of the module (log 1). -/
def Obligations.EveryCommandIsAnswered : Prop :=
  (∀ (c : Instr) (s : State), c.wf = true → ∃ t, exec c s = .next t) ∧ ∀ (c : Instr) (s : State) (r : Refusal), exec c s ≠ .refused r

/-- A number that names no object of the module stops the command with the fault that says so (the model's choice, log 2): mailboxes above 63, knots above
4,095, brides above 31, motifs above 15, arrays above 32,767 and physical arrays above 33,279, sensors above 195, light-supply inputs above 8,
pipelines above 47, digital islands above 251, sequencer entries above 31, stacks above 7. -/
def Obligations.NumbersOfNoObjectStopTheCommand : Prop :=
  ∀ (n : Nat) (s : State),
    (64 ≤ n → (∀ v, exec (.readCountWrite n v) s = .fault .noSuchMailbox) ∧
      ∀ c ∈ [Instr.mailboxConsume n, .statusWordUpdate n, .identify n, .configRead n, .configStage n, .configCommit n, .configRevert n, .motifLoad n,
        .motifLoadReplace n, .motifSwitch n, .motifDrop n, .motifQuery n, .seqOpen n, .seqAppend n, .seqGenerate n, .cancel n, .seqFork n, .seqClose n,
        .pagesBind n, .calFreeze n, .calThaw n, .calCommit n, .healthRead n, .monitorProgram n, .timeRead n, .takeover n, .handback n, .fwStage n,
        .fwActivate n, .fwRevert n, .ownerLockSet n, .ownerLockClear n, .attest n, .doneRecordWrite n], exec c s = .fault .noSuchMailbox) ∧
    (4096 ≤ n → ∀ (port : Nat) (x g c : BitVec 32) (sv : Option StepTag),
      exec (.arm port n x g c sv) s = .fault .noSuchKnot ∧ exec (.add port n x g) s = .fault .noSuchKnot ∧
      exec (.fetchAdd port n x g) s = .fault .noSuchKnot ∧ exec (.rearm port n x g c) s = .fault .noSuchKnot ∧
      exec (.free port n) s = .fault .noSuchKnot ∧ exec (.knotAdd port n x g) s = .fault .noSuchKnot) ∧
    (32 ≤ n → ∀ c ∈ [Instr.brideDown n, .lossOfLock n, .routeSwitch n, .linkNoticeTimeout n, .brideClassing n, .hold n, .reshapeDrainEnd n,
      .timingFlitSend n, .reshapeMissing n], exec c s = .fault .noSuchBride) ∧
    (16 ≤ n → ∀ c ∈ [Instr.shardFetchEnd n, .loadComplete n, .oldCopyRelease n], exec c s = .fault .noSuchMotif) ∧
    (32768 ≤ n → ∀ c ∈ [Instr.picotCheckReport n, .spareProgrammed n], exec c s = .fault .noSuchArray) ∧
    (33280 ≤ n → ∀ c ∈ [Instr.calServiceWindowEnd n, .windowTopUp n, .shadowCommit n, .warmupWindowEnd n, .confirmWindowEnd n],
      exec c s = .fault .noSuchArray) ∧
    (196 ≤ n → (∀ v, exec (.sensorReading n v) s = .fault .noSuchSensor) ∧ exec (.sensorGood n) s = .fault .noSuchSensor) ∧
    (9 ≤ n → exec (.lightSupplyGood n) s = .fault .noSuchInput) ∧ (48 ≤ n → exec (.workUnitEnd n) s = .fault .noSuchPipeline) ∧
    (252 ≤ n → exec (.marginWindow n) s = .fault .noSuchIsland ∧ ∀ why, exec (.islandRetire n why) s = .fault .noSuchIsland) ∧
    (32 ≤ n → exec (.late n) s = .fault .noSuchEntry) ∧ (8 ≤ n → ∀ region, exec (.regionRetired n region) s = .fault .noSuchStore)

/-- Right after module start every status word shows DONE and IDLE, its mailbox number and zeros (R71), every bride is DARK with no partner (R318), every
array is uncalibrated with the default set (R156, R160), every knot is free (R247), and no motif, sequence or step is there. -/
def Obligations.ResetLeavesTheGivenValues : Prop :=
  (∀ m, m < 64 → statusBytes m (State.reset.box m) = 0xA0 :: BitVec.ofNat 8 m :: zeros 62) ∧
  (∀ b, (State.reset.bride b).state = 1 ∧ (State.reset.bride b).partnerId = 0xFFFF ∧ (State.reset.bride b).partnerBride = 0xFF) ∧
  (∀ p, (State.reset.phys p).calState = 0 ∧ (State.reset.phys p).coef = CoefSet.default ∧ (State.reset.phys p).auditRms = 0xFFFF) ∧
  (∀ k, (State.reset.knot k).state = 0 ∧ (State.reset.knot k).owner = 0xFFFF) ∧
  State.reset.log.written = 0 ∧ State.reset.now = 0 ∧ State.reset.time.lock = 0 ∧ State.reset.seqs.open_ = [] ∧ State.reset.steps.live = []

/-! ### What every step keeps -/

/-- Every step keeps the memory window in its one canonical form: offsets strictly rising, and no entry for a byte that reads as 0 (log 10). -/
def Obligations.MemoryStaysCanonical : Prop :=
  ∀ s t : State, s.memCanonical → step s = .next t → t.memCanonical

/-- The memory window is in its canonical form right after reset. -/
def Obligations.ResetMemoryIsCanonical : Prop :=
  State.reset.memCanonical

/-- No step lets the version floor fall or takes a revocation back (R432), through power loss and reset too. -/
def Obligations.TrustNeverGoesBack : Prop :=
  ∀ s t : State, step s = .next t → s.keepsTrust t

/-! ### Mailboxes and windows (R53 to R80) -/

/-- An access that lies in no window gets the remote access error, and its queue pair enters the error state; nothing else changes. A host write to the
identity block or to the status words is discarded; what changes is the event log alone, where a DISCARDED record that is not suppressed names the
window and the offset. A read of a window over a live queue pair with the window's rkey answers what the window holds: a status word, the memory
window's host area, and zeros outside that area. Only the port's outbox changes. A write to the memory window stores into the host area exactly the
bytes that lie in it, and leaves every other byte of the memory window. -/
def Obligations.WindowsAnswerTheHost : Prop :=
  (∀ (qp rkey addr len : Nat) (data : Bytes) (s : State),
     (∀ w, w < 8 → ¬ ((windowOf w).1 ≤ addr ∧ addr + len ≤ (windowOf w).1 + (windowOf w).2)) → data.length = len →
     ∃ t, exec (.hostWrite qp addr data) s = .next t ∧
       (s.qpOk qp = true → exec (.rdmaWrite qp rkey addr data) s = .next t ∧ exec (.rdmaRead qp rkey addr len) s = .next t) ∧
       t = { s with port := { s.port with qps := t.port.qps, out := (s.breakQp qp).frame (.nakAccess qp) :: s.port.out } } ∧
       t.port.qps = s.port.qps.map fun q => if q.qpn = qp then { q with error := true } else q) ∧
  (∀ (qp w off : Nat) (data : Bytes) (s : State), w < 2 → 0 < data.length → off + data.length ≤ 0x1000 →
     ∃ t, exec (.hostWrite qp (w * 0x1000 + off) data) s = .next t ∧ t = { s with log := t.log } ∧
       ((s.log.recent.all fun r => r.1 != (12, 1, kWindow * 2 ^ 24 + w)) = true →
         t.log.written = s.log.written + 1 ∧ t.log.suppressed = s.log.suppressed ∧
         Tab.get (zeros 64) t.log.slots (1 + s.log.written % 262143) =
           eventBytes s { cls := 12, code := 1, op := 11, kind := kWindow, index := w, tag := none, epoch := 0, detail := leBytes 5 off })) ∧
  (∀ (qp rkey : Nat) (s : State), s.qpOk qp = true →
     (∀ m, m < 64 → s.port.rkeys.getD 1 0 = rkey →
       exec (.rdmaRead qp rkey (0x1000 + m * 0x40) 64) s = .next (s.toHost (.readResponse qp (statusBytes m (s.box m))))) ∧
     (∀ off n, off + n ≤ 2 ^ 40 → s.port.rkeys.getD 7 0 = rkey → s.mem.flagged = [] →
       ∃ data, exec (.rdmaRead qp rkey (0x10000000000 + off) n) s = .next (s.toHost (.readResponse qp data)) ∧ data.length = n ∧
         ∀ i, i < n → data.getD i 0 = (if s.cfg.cur.hostOffset ≤ off + i ∧ off + i + 1 ≤ s.cfg.cur.hostOffset + s.cfg.cur.hostSize
           then memByte s.mem (off + i) else 0))) ∧
  (∀ (qp rkey off : Nat) (data : Bytes) (s : State), s.qpOk qp = true → s.port.rkeys.getD 7 0 = rkey → 0 < data.length → off + data.length ≤ 2 ^ 40 →
     ∃ t, exec (.rdmaWrite qp rkey (0x10000000000 + off) data) s = .next t ∧
       (∀ a, memByte t.mem a = if off ≤ a ∧ a < off + data.length ∧ s.inHostArea a 1 = true then data.getD (a - off) 0 else memByte s.mem a) ∧
       t = { s with mem := t.mem, log := t.log, port := { s.port with out := s.frame (.ack qp) :: s.port.out } } ∧
       ((∀ a, off ≤ a → a < off + data.length → s.inHostArea a 1 = true) → t.log = s.log))

/-- A host write of one whole aligned entry whose OWN bit is 0 replaces it, notes the queue pair that posted it, and changes nothing else; one in the very
instant in which the entry was consumed is also logged, as a COLLISION record that names the field. A host write of an entry whose OWN bit is 1, of
part of an entry or of more than one entry is discarded: the entries stay, `discarded` and `updates` count one more, and only the mailbox and the
event log change. -/
def Obligations.EntryWritesAreTakenOrDiscarded : Prop :=
  (∀ (qp m e : Nat) (data : Bytes) (s : State), m < 64 → e < 4096 → data.length = 64 → entryOwn (entryBytes (s.box m) e) = false →
     ∃ t, exec (.mailboxEntryWrite qp (0x10000 + m * 0x40000 + e * 64) data) s = .next t ∧
       exec (.hostWrite qp (0x10000 + m * 0x40000 + e * 64) data) s = .next t ∧
       entryBytes (t.box m) e = data ∧ Tab.get 0 (t.box m).posted e = qp ∧
       (∀ j, j ≠ e → entryBytes (t.box m) j = entryBytes (s.box m) j ∧ Tab.get 0 (t.box m).posted j = Tab.get 0 (s.box m).posted j) ∧
       t.box m = { s.box m with entries := (t.box m).entries, posted := (t.box m).posted } ∧
       (∀ k, k ≠ m → t.box k = s.box k) ∧ t = { s with boxes := { s.boxes with box := t.boxes.box }, log := t.log } ∧
       ((s.box m).cleared ≠ some (e, s.now) → t.log = s.log) ∧
       ((s.box m).cleared = some (e, s.now) → (s.log.recent.all fun r => r.1 != (12, 3, kWindow * 2 ^ 24 + 2)) = true →
         t.log.written = s.log.written + 1 ∧ Tab.get (zeros 64) t.log.slots (1 + s.log.written % 262143) =
           eventBytes { s with boxes := t.boxes } { cls := 12, code := 3, op := 11, kind := kWindow, index := 2, tag := none, epoch := 0,
                                                    detail := leBytes 5 (m * 0x40000 + e * 64) })) ∧
  (∀ (qp m off : Nat) (data : Bytes) (s : State), m < 64 → off < 0x40000 → 0 < data.length → m * 0x40000 + off + data.length ≤ 0x1000000 →
     (off % 64 ≠ 0 ∨ data.length ≠ 64 ∨ entryOwn (entryBytes (s.box m) (off / 64)) = true) →
     ∃ t, exec (.mailboxEntryWrite qp (0x10000 + m * 0x40000 + off) data) s = .next t ∧
       exec (.hostWrite qp (0x10000 + m * 0x40000 + off) data) s = .next t ∧
       (t.box m).entries = (s.box m).entries ∧ (t.box m).posted = (s.box m).posted ∧
       (t.box m).discarded = (s.box m).discarded + 1 ∧ (t.box m).updates = (s.box m).updates + 1 ∧
       (t.box m).consume = (s.box m).consume ∧ (t.box m).cur = (s.box m).cur ∧ (t.box m).results = (s.box m).results ∧
       (∀ k, k ≠ m → t.box k = s.box k) ∧ t = { s with boxes := { s.boxes with box := t.boxes.box }, log := t.log })

/-- A host write of read_count takes the value, reduced to the records written, and keeps the largest so taken; the event log and the capture queue follow
the same rule with their own counts. A scan, by a doorbell of 0 to 64 bytes or by itself, notes exactly the mailboxes whose entry at the consume index
is posted and that have no command in progress, lowest first; in the ROM state only mailbox 0. A longer SEND is completed, counted and ignored. -/
def Obligations.ReadCountsAndDoorbells : Prop :=
  (∀ (m value : Nat) (s : State), m < 64 →
     (∃ t, exec (.readCountWrite m value) s = .next t ∧ (t.box m).readCount = max (s.box m).readCount (min value (s.box m).records) ∧
       t.box m = { s.box m with readCount := (t.box m).readCount } ∧ (∀ k, k ≠ m → t.box k = s.box k) ∧
       t = { s with boxes := t.boxes, log := t.log, take := t.take, fabric := t.fabric } ∧
       (value ≤ (s.box m).records → (s.box m).readCount ≤ value → t.log = s.log)) ∧
     (∃ t, exec (.eventLogReadCountWrite value) s = .next t ∧ t.log.readCount = max s.log.readCount (min value s.log.written) ∧
       t = { s with log := t.log } ∧ (value ≤ s.log.written → s.log.readCount ≤ value → t.log.written = s.log.written ∧ t.log.slots = s.log.slots)) ∧
     (∃ t, exec (.captureReadCountWrite value) s = .next t ∧ t.monitor.readCount = max s.monitor.readCount (min value s.monitor.written) ∧
       t.monitor = { s.monitor with readCount := t.monitor.readCount } ∧ t = { s with monitor := t.monitor, log := t.log } ∧
       (value ≤ s.monitor.written → s.monitor.readCount ≤ value → t.log = s.log))) ∧
  (∀ (qp len : Nat) (s : State),
     (∃ t, exec .ringScan s = .next t ∧ t = { s with boxes := { s.boxes with noted := t.boxes.noted } } ∧ t.boxes.noted.Pairwise (· < ·) ∧
       (∀ m, m ∈ t.boxes.noted ↔ s.bobbinRuns = true ∧ m < 64 ∧ (s.start.rom = true → m = 0) ∧ (s.box m).cur = none ∧
         entryOwn (entryBytes (s.box m) (s.box m).consume) = true) ∧
       (s.qpOk qp = true → s.restarting = false → len ≤ 64 →
         exec (.doorbell qp len) s = .next (t.toHost (.ack qp)))) ∧
     (s.qpOk qp = true → s.restarting = false → 64 < len →
       exec (.doorbell qp len) s = .next { s with port := { s.port with longSends := s.port.longSends + 1, out := s.frame (.ack qp) :: s.port.out } }))

/-- Consumption takes a snapshot of the entry with its queue pair, clears OWN, moves the index on by one, from 4,095 back to 0, and the status word then
describes the command as pending, when the checks of R62 that name no object pass and nothing turns the command away. But for the word to the group
spare, of a head's command or of a first load, nothing else changes. A consumed entry that fails a check completes with the status of the first check
that fails, in the order of R62, and with no other effect. -/
def Obligations.ConsumptionTakesAndChecksEntries : Prop :=
  (∀ (m : Nat) (s : State), m < 64 → s.bobbinRuns = true → s.boxes.noted.head? = some m → (s.box m).cur = none →
     entryOwn (entryBytes (s.box m) (s.box m).consume) = true →
     entryCheck s (s.box m) (entryBytes (s.box m) (s.box m).consume) = none →
     updateRefusal s (entryOp (entryBytes (s.box m) (s.box m).consume)) = none →
     ∃ t, exec (.mailboxConsume m) s = .next t ∧
       entryBytes (t.box m) (s.box m).consume = clearOwn (entryBytes (s.box m) (s.box m).consume) ∧
       (∀ j, j ≠ (s.box m).consume → entryBytes (t.box m) j = entryBytes (s.box m) j) ∧
       (t.box m).consume = ((s.box m).consume + 1) % 4096 ∧
       ((t.box m).cur.map fun c => (c.entry, c.index, c.qp)) =
         some (entryBytes (s.box m) (s.box m).consume, (s.box m).consume, Tab.get 0 (s.box m).posted (s.box m).consume) ∧
       (t.box m).done = false ∧ (t.box m).idle = false ∧ (t.box m).status = 0x0003 ∧ (t.box m).progress = 0 ∧
       (t.box m).opcode = field (entryBytes (s.box m) (s.box m).consume) 2 2 ∧
       (t.box m).hostTag = field (entryBytes (s.box m) (s.box m).consume) 4 4 ∧ (t.box m).entryIdx = (s.box m).consume ∧
       (t.box m).firstRecord = (s.box m).records ∧ (t.box m).records = (s.box m).records ∧ (t.box m).results = (s.box m).results ∧
       (t.box m).updates = (s.box m).updates + 1 ∧ (∀ k, k ≠ m → t.box k = s.box k) ∧ t.boxes.noted = s.boxes.noted.tail ∧
       t = { s with boxes := t.boxes, fabric := t.fabric } ∧
       (s.isHead = false → field (entryBytes (s.box m) (s.box m).consume) 2 2 ≠ 0x0020 → t.fabric = s.fabric)) ∧
  (∀ (m : Nat) (s : State), m < 64 → s.bobbinRuns = true → s.boxes.noted.head? = some m → (s.box m).cur = none →
     entryOwn (entryBytes (s.box m) (s.box m).consume) = true → s.start.rom = false → s.cfg.breakQps = false →
     (s.box m).doneWait = none → (s.box m).records - (s.box m).readCount < 16383 →
     let e := entryBytes (s.box m) (s.box m).consume
     let ends (st d : Nat) : Prop := ∃ t, exec (.mailboxConsume m) s = .next t ∧ (t.box m).cur = none ∧ (t.box m).doneWait = none ∧
       (t.box m).done = true ∧ (t.box m).idle = true ∧ (t.box m).status = st ∧ (t.box m).detail = d % 2 ^ 32 ∧
       (t.box m).records = (s.box m).records + 1 ∧ (∀ k, k ≠ m → t.box k = s.box k) ∧ t = { s with boxes := t.boxes, fabric := t.fabric } ∧
       (s.isHead = false → field e 2 2 ≠ 0x0020 → t.fabric = s.fabric)
     (field e 2 2 ≠ 0x0001 → (s.box m).version = none → ends 0x0103 0) ∧
     (((s.box m).version ≠ none ∨ field e 2 2 = 0x0001) →
       (field e 2 2 ∉ opcodes → ends 0x0100 (field e 2 2)) ∧
       (field e 2 2 ∈ opcodes → ∀ i, firstReserved e (field e 2 2) = some i → ends 0x0101 i) ∧
       (field e 2 2 ∈ opcodes → firstReserved e (field e 2 2) = none → ∀ i, firstBad e (field e 2 2) = some i → ends 0x0102 i)))

/-- `IDENTIFY` chooses the highest version in both ranges, `TIME_READ` gives module time, and each completes at once with one DONE record where a record
slot is free; without a common version `IDENTIFY` leaves the mailbox without one. While a command is in progress its status word can be updated, which
moves `updates` on and nothing of the command; a DONE record that waited is written when a slot is free, and it, DONE, the final status and the final
progress become visible in one update. -/
def Obligations.StatusWordsAndSimpleCommands : Prop :=
  (∀ (m : Nat) (s : State), m < 64 → s.restarting = false → s.isHead = false → s.cfg.breakQps = false →
     (s.box m).records - (s.box m).readCount < 16383 → (s.box m).doneWait = none →
     ∀ c, (s.box m).cur = some c →
     let lo := max (field c.entry 8 2) s.fw.runningSlot.ifMin
     let hi := min (field c.entry 0xA 2) s.fw.runningSlot.ifMax
     let doneAt (t : State) (st result : Nat) : Prop := (t.box m).cur = none ∧ (t.box m).done = true ∧ (t.box m).idle = true ∧ (t.box m).status = st ∧
       (t.box m).records = (s.box m).records + 1 ∧ (t.box m).doneWait = none ∧
       Tab.get (zeros 64) (t.box m).results (1 + (s.box m).records % 16383) =
         recordBytes m { s.box m with version := (t.box m).version } 2 s.now (doneFields ⟨st, (t.box m).detail, (t.box m).progress, result⟩) ∧
       (∀ k, k ≠ m → t.box k = s.box k) ∧ t = { s with boxes := t.boxes }
     (entryOp c.entry = 0x0001 → lo ≤ hi → ∃ t, exec (.identify m) s = .next t ∧ (t.box m).version = some hi ∧ doneAt t 0 hi) ∧
     (entryOp c.entry = 0x0001 → hi < lo → ∃ t, exec (.identify m) s = .next t ∧ (t.box m).version = none ∧
       (t.box m).detail = s.fw.runningSlot.ifMax % 2 ^ 32 ∧ doneAt t 0x0104 0) ∧
     (entryOp c.entry = 0x0060 → ∃ t, exec (.timeRead m) s = .next t ∧ doneAt t 0 s.now ∧ (t.box m).version = (s.box m).version)) ∧
  (∀ (m : Nat) (s : State), m < 64 →
     ((s.box m).cur.isSome = true → ∃ t, exec (.statusWordUpdate m) s = .next t ∧ (t.box m).updates = (s.box m).updates + 1 ∧ (t.box m).time = s.now ∧
       t.box m = { s.box m with updates := (t.box m).updates, time := (t.box m).time, oldGen := (t.box m).oldGen, slow := (t.box m).slow } ∧
       (∀ k, k ≠ m → t.box k = s.box k) ∧ t = { s with boxes := t.boxes }) ∧
     (∀ d, (s.box m).doneWait = some d → s.cfg.breakQps = false → (s.box m).records - (s.box m).readCount < 16383 →
       ∃ t, exec (.doneRecordWrite m) s = .next t ∧ (t.box m).records = (s.box m).records + 1 ∧ (t.box m).done = true ∧ (t.box m).status = d.status ∧
         (t.box m).progress = d.progress ∧ (t.box m).cur = none ∧ (t.box m).updates = (s.box m).updates + 1 ∧ (t.box m).doneWait = none ∧
         Tab.get (zeros 64) (t.box m).results (1 + (s.box m).records % 16383) = recordBytes m (s.box m) 2 s.now (doneFields d) ∧
         (∀ k, k ≠ m → t.box k = s.box k) ∧ t = { s with boxes := t.boxes, fabric := t.fabric } ∧ (s.tells m = false → t.fabric = s.fabric)) ∧
     (∀ d, (s.box m).doneWait = some d → 16383 ≤ (s.box m).records - (s.box m).readCount → exec (.doneRecordWrite m) s = .next s))

/-! ### The host port (R337 to R347) -/

/-- An operation that is not supported gets NAK invalid request and breaks the queue pair; a timeout after seven retries breaks it, an earlier one counts
a retry; a disconnect removes it. Other queue pairs are left alone. The port comes up once light-supply input 8 has been GOOD for 100 ms and the
start-up has reached the links or the module is in the ROM or the safe state; when it goes down every queue pair is lost. A connect request with the
right magic gets a queue pair below the limit of 512; one with shorter private data, another magic, or when 512 are in use is rejected for want of
resources. -/
def Obligations.QueuePairsComeAndGo : Prop :=
  (∀ (qp : Nat) (s : State),
     (s.qpOk qp = true → exec (.unsupportedOperation qp) s =
       .next { s with port := { s.port with qps := s.port.qps.map fun q => if q.qpn = qp then { q with error := true } else q,
                                            out := (s.breakQp qp).frame (.nakInvalid qp) :: s.port.out } }) ∧
     exec (.ackTimeout qp) s = .next { s with port := { s.port with qps := s.port.qps.map fun q =>
       if q.qpn = qp then (if 7 ≤ q.retries then { q with error := true } else { q with retries := q.retries + 1 }) else q } } ∧
     exec (.disconnect qp) s = .next { s with port := { s.port with qps := s.port.qps.filter fun q => q.qpn ≠ qp } }) ∧
  (∀ (priv : Bytes) (priority mtu : Nat) (s : State),
     ((Tab.get Light.init s.fabric.light 8).state = 3 → (Tab.get Light.init s.fabric.light 8).since + 100000000 ≤ s.now → s.start.powerGood = true →
       4 ≤ s.start.stage → exec (.hostPortLink true) s = .next { s with port := { s.port with up := true } }) ∧
     exec (.hostPortLink false) s = .next { s with port := { s.port with up := false, qps := [], pausedTx := [], pausedRx := [] } } ∧
     (s.port.up = true → 1024 ≤ mtu →
       (priv.length < 16 ∨ field priv 0 4 ≠ 0x51485746 ∨ 512 ≤ s.port.qps.length →
         exec (.req 0 priv priority mtu) s = .next { s with port := { s.port with out := s.frame (.reject true) :: s.port.out } }) ∧
       (16 ≤ priv.length → field priv 0 4 = 0x51485746 → s.port.qps.length < 512 →
         ∃ t q, exec (.req 0 priv priority mtu) s = .next t ∧ t.port.qps = s.port.qps ++ [q] ∧ q.load = bit (field priv 4 1) 0 ∧ q.error = false ∧
           q.priority = priority ∧ q.mtu = min mtu 4096 ∧ (s.qpnsUsed.length < 2 ^ 24 → ∀ r ∈ s.port.qps, r.qpn ≠ q.qpn) ∧
           (∃ f, t.port.out = f :: s.port.out ∧ f.body = .rep q.qpn (repBytes s q.qpn)) ∧
           t = { s with port := { s.port with qps := t.port.qps, out := t.port.out }, draws := s.draws + 1 })))

/-- A frame with two or more tags, with a tag other than the configured VLAN's or of more than 9,216 bytes is dropped and counted, then an IP fragment,
then a UD packet; any other is accepted. ARP, neighbour discovery and echo are answered for the port's own addresses; LLDP goes out with the
configured addresses and the last frame received is kept. PAUSE is honoured on `pfc_a` and `pfc_b` and on no other priority: it holds that priority,
and the frames of it that still wait, until its quanta are over, and no other frame; PAUSE is sent at 75 % of a receive buffer and released at 50 %.
Congestion: one notification per queue pair and 50 µs for marked packets; a notification received halves the send rate, not below 1 Gbit/s; 55 µs
without one raise it by 5 % of line rate, not above line rate. -/
def Obligations.FramesPausesAndCongestion : Prop :=
  (∀ (f : FrameIn) (kind addr : Nat) (frame : Bytes) (s : State),
     let bad : Prop := 2 ≤ f.tags.length ∨ 9216 < f.length ∨ ∃ v ∈ f.tags, v ≠ s.portCfg.vlan
     (bad → exec (.frameDrop f) s = .next { s with port := { s.port with badFrames := s.port.badFrames + 1 } }) ∧
     (¬ bad → f.fragment = true → exec (.frameDrop f) s = .next { s with port := { s.port with fragments := s.port.fragments + 1 } }) ∧
     (¬ bad → f.fragment = false → f.ud = true → exec (.frameDrop f) s = .next { s with port := { s.port with udDropped := s.port.udDropped + 1 } }) ∧
     (¬ bad → f.fragment = false → f.ud = false → exec (.frameDrop f) s = .next s) ∧
     (s.port.up = true →
       (ownAddress s kind addr = true → exec (.arp kind addr) s = .next (s.toHost (.answer kind addr))) ∧
       (ownAddress s kind addr = false → exec (.arp kind addr) s = .next s) ∧
       exec (.lldp frame) s = .next { s with port := { s.port with lastLldp := some frame } } ∧
       exec .lldpSend s = .next (s.toHost (.lldp s.fw.mac [0x68, 0x6F, 0x73, 0x74] (systemName s.machineId)
         (if s.portCfg.ipv4Prefix = 0 then none else some s.portCfg.ipv4) (if s.portCfg.ipv6Prefix = 0 then none else some s.portCfg.ipv6))))) ∧
  (∀ (p fill quanta : Nat) (s : State),
     (p ≠ s.portCfg.pfcA → p ≠ s.portCfg.pfcB → exec (.pause p quanta) s = .next s ∧ exec (.pauseSend p fill) s = .next s) ∧
     (p = s.portCfg.pfcA ∨ p = s.portCfg.pfcB →
       (∃ t, exec (.pause p quanta) s = .next t ∧ t = { s with port := { s.port with pausedTx := t.port.pausedTx, out := t.port.out } } ∧
         (∀ j u, (j, u) ∈ t.port.pausedTx ↔ (if j = p then quanta ≠ 0 ∧ u = s.now + pauseNs quanta else (j, u) ∈ s.port.pausedTx)) ∧
         t.port.out.map (·.body) = s.port.out.map (·.body) ∧
         (∀ (i : Nat) (f : HostFrame), s.port.out[i]? = some f → f.priority ≠ some p → t.port.out[i]? = some f) ∧
         ∀ (i : Nat) (f : HostFrame) (u : Nat), s.port.out[i]? = some f → f.priority = some p → f.held = some u → s.now < u →
           t.port.out[i]? = some { f with held := if quanta = 0 then none else some (s.now + pauseNs quanta) }) ∧
       (75 ≤ fill → p ∉ s.port.pausedRx → ∃ t, exec (.pauseSend p fill) s = .next t ∧ (∀ j, j ∈ t.port.pausedRx ↔ j = p ∨ j ∈ s.port.pausedRx) ∧
         t = { s with port := { s.port with pausedRx := t.port.pausedRx, out := s.frame (.pause p true) :: s.port.out } }) ∧
       (fill ≤ 50 → p ∈ s.port.pausedRx → ∃ t, exec (.pauseSend p fill) s = .next t ∧ (∀ j, j ∈ t.port.pausedRx ↔ j ≠ p ∧ j ∈ s.port.pausedRx) ∧
         t = { s with port := { s.port with pausedRx := t.port.pausedRx, out := s.frame (.pause p false) :: s.port.out } }) ∧
       (50 < fill → fill < 75 → exec (.pauseSend p fill) s = .next s))) ∧
  (∀ (qp : Nat) (q : QueuePair) (s : State), s.port.qps.find? (fun r => r.qpn = qp) = some q →
     let rest (t : State) : Prop := t = { s with port := { s.port with qps := t.port.qps, out := t.port.out } } ∧
       t.port.qps.filter (fun r => r.qpn ≠ qp) = s.port.qps.filter (fun r => r.qpn ≠ qp)
     let now' (t : State) : Option QueuePair := t.port.qps.find? fun r => r.qpn = qp
     (∃ t, exec (.congestionNotification qp) s = .next t ∧ rest t ∧ t.port.out = s.port.out ∧
       now' t = some { q with rate := max 1000000000 (q.rate / 2), cnpGot := some s.now }) ∧
     (∀ u, q.cnpGot = some u → u + 55000 ≤ s.now → ∃ t, exec (.rateRise qp) s = .next t ∧ rest t ∧ t.port.out = s.port.out ∧
       now' t = some { q with rate := min 1600000000000 (q.rate + 80000000000), cnpGot := some s.now }) ∧
     (q.cnpSent = none ∨ (∃ u, q.cnpSent = some u ∧ u + 50000 ≤ s.now) → ∃ t, exec (.ceMark qp) s = .next t ∧ rest t ∧
       now' t = some { q with cnpSent := some s.now } ∧ t.port.out = s.frame (.cnp qp s.portCfg.dscpCnp s.portCfg.pcpCnp) :: s.port.out) ∧
     (∀ u, q.cnpSent = some u → s.now < u + 50000 → exec (.ceMark qp) s = .next s))

/-! ### Sequences (R20 to R46) -/

/-- `SEQ_OPEN` of a free id creates the sequence in OPEN with no token and what the command carries, and its companion where it names a draft motif whose
vocabulary is the same; it completes with `ST_OK`. `SEQ_OPEN` refused: the status is the first that applies of `ST_SEQ_EXISTS`, `ST_VOCAB_MISMATCH`,
`ST_NO_SEQ`, and no sequence is created (a draft motif that another member of the configuration may hold is left open, log 16). `SEQ_CLOSE` of an OPEN
sequence with no step in flight frees its id and completes; with a step in flight the sequence is CLOSING and the command waits; a sequence that is
CLOSING for another command accepts no other close. -/
def Obligations.SequencesOpenAndClose : Prop :=
  (∀ (m : Nat) (e : Bytes) (p : Pricking) (s : State), Ready s m 0x30 e → s.seqWaits m = false → s.take.vacatedTo = none →
     s.seqMotif (field e 8 1) = some (.ok p) → s.fabric.reshape = none → s.findSeq (field e 8 1) (field e 0xC 3) = none → s.openCount < 4096 →
     (field e 0xA 1 ≠ 0xFF → (s.motif (field e 0xA 1)).state = 2 ∧ (s.motif (field e 0xA 1)).vocabDigest = p.vocabDigest) →
     ∃ t q, exec (.seqOpen m) s = .next t ∧
       q = Seq.start (field e 8 1) (field e 0xC 3) (field e 0x10 8) (decide (field e 9 1 = 1))
         (if field e 0xA 1 = 0xFF then none else some (field e 0xA 1)) none (samplingOf e 0x18) ∧
       q.state = .opened ∧ q.tokens = [] ∧ q.nextStep = 1 ∧
       t.seqs = { s.seqs with open_ := s.seqs.open_ ++ [q] ++ (if field e 0xA 1 = 0xFF then [] else [companionOf q (field e 0xA 1)]) } ∧
       Completes s t m 0 0 (s.box m).target 0 ∧ t = { s with boxes := t.boxes, seqs := t.seqs, fabric := t.fabric }) ∧
  (∀ (m : Nat) (e : Bytes) (p : Pricking) (s : State), Ready s m 0x30 e → s.seqWaits m = false → s.take.vacatedTo = none →
     s.seqMotif (field e 8 1) = some (.ok p) → s.fabric.reshape = none →
     (∀ d, field e 0xA 1 = d → d ≠ 0xFF → (s.motif d).state ≠ 1 ∧ s.loadConsumed d = false ∧
       ((s.motif d).state = 0 → ∀ x ∈ s.cfg.cur.members, x.machineId = s.machineId)) →
     let fails (st d : Nat) : Prop := ∃ t, exec (.seqOpen m) s = .next t ∧ Completes s t m st d (s.box m).progress 0 ∧
       t = { s with boxes := t.boxes, fabric := t.fabric }
     let exists_ : Prop := (s.findSeq (field e 8 1) (field e 0xC 3)).isSome = true
     let vocab : Prop := field e 0xA 1 ≠ 0xFF ∧ ((s.motif (field e 0xA 1)).state ≠ 2 ∨ (s.motif (field e 0xA 1)).vocabDigest ≠ p.vocabDigest)
     (exists_ → fails 0x0202 0) ∧ (¬ exists_ → vocab → fails 0x0106 (field e 0xA 1)) ∧ (¬ exists_ → ¬ vocab → 4096 ≤ s.openCount → fails 0x0300 0)) ∧
  (∀ (m : Nat) (e : Bytes) (p : Pricking) (q : Seq) (s : State), Ready s m 0x34 e → s.seqWaits m = false → s.take.vacatedTo = none →
     s.seqMotif (field e 8 1) = some (.ok p) → s.findSeq (field e 8 1) (field e 0xC 3) = some q →
     (∀ b ∈ s.boxes.box, ∀ c, b.2.cur = some c → fetching c = false) →
     (q.state = .opened → q.gen = none → q.append = none → s.seqBusy q = false →
       ∃ t, exec (.seqClose m) s = .next t ∧ Completes s t m 0 0 (s.box m).target 0 ∧ t.findSeq q.motif q.id = none ∧
         t.seqs.frames = (s.seqs.frames.filter fun f => !(decide (f.motif = q.motif ∧ f.seq = q.id ∧ f.companion = none) ||
           decide (q.draft = some f.motif ∧ f.seq = q.id ∧ f.companion = some q.motif))) ∧ t.mem = s.mem) ∧
     (∀ k, q.state = .closing → q.closeBox = some k → k ≠ m → ∃ t, exec (.seqClose m) s = .next t ∧ Completes s t m 0x0203 3 (s.box m).progress 0 ∧
       t = { s with boxes := t.boxes, fabric := t.fabric }) ∧
     (q.state ≠ .closing → (∃ r, s.seqInFlight (seqTag q) = [r] ∧ r.replay = none) →
       ∃ t, exec (.seqClose m) s = .next t ∧ t.findSeq q.motif q.id = some { q with state := .closing, closeBox := some m } ∧
         (∀ k, k ≠ m → t.box k = s.box k) ∧ t = { s with seqs := t.seqs, boxes := t.boxes }))

/-- An append first reads its tokens over the queue pair that posted it, once that has fewer than 16 reads of the module's own outstanding; then it moves
an OPEN sequence to APPENDING with the positions it creates as its target, the first token of an empty sequence becoming its pending token without a
step; a single such token completes at once with token length 1. A fork of a host-managed sequence without a draft motif copies its committed tokens
and sampling set, takes seed and id from the command, inherits page mode and draft motif and starts in OPEN; the source stays as it is. The refusals
create nothing. -/
def Obligations.SequencesAppendAndFork : Prop :=
  (∀ (m : Nat) (c : Cmd) (p : Pricking) (q : Seq) (s : State), Ready s m 0x31 c.entry → (s.box m).cur = some c → c.begun = false → c.continued = false →
     s.seqWaits m = false → s.take.vacatedTo = none → s.seqMotif (field c.entry 8 1) = some (.ok p) →
     s.findSeq (field c.entry 8 1) (field c.entry 0xC 3) = some q → s.beyond p q = false →
     (c.xfer = .none → s.qpOk c.qp = true → s.readRoom c.qp = true → ∃ t, exec (.seqAppend m) s = .next t ∧
       t.port.out = s.frame (.readRequest c.qp 0 m (field c.entry 0x10 8) (field c.entry 0x18 4) (field c.entry 0x1C 4)) :: s.port.out ∧
       (t.box m).cur = some { c with xfer := .reading, want := field c.entry 0x1C 4, via := c.qp } ∧
       t = { s with boxes := t.boxes, port := { s.port with out := t.port.out } }) ∧
     (c.xfer = .none → s.qpOk c.qp = true → s.readRoom c.qp = false → exec (.seqAppend m) s = .next s) ∧
     (c.xfer = .readFailed → ∃ t, exec (.seqAppend m) s = .next t ∧ Completes s t m 0x0400 (s.machineId % 2 ^ 32) (s.box m).progress q.tokens.length ∧
       t = { s with boxes := t.boxes, fabric := t.fabric }) ∧
     (c.xfer = .readDone → (tokensOf c.data).all (fun x => decide (x < p.vocabSize)) = true → tokensOf c.data ≠ [] →
       (q.state ≠ .opened → ∃ t, exec (.seqAppend m) s = .next t ∧ Completes s t m 0x0203 q.state.code (s.box m).progress q.tokens.length ∧ t.seqs = s.seqs) ∧
       (q.state = .opened → 16777216 < q.tokens.length + (tokensOf c.data).length →
         ∃ t, exec (.seqAppend m) s = .next t ∧ Completes s t m 0x0301 0 (s.box m).progress q.tokens.length ∧ t.seqs = s.seqs) ∧
       (q.state = .opened → q.tokens ≠ [] → q.tokens.length + (tokensOf c.data).length ≤ 16777216 →
         ∃ t q', exec (.seqAppend m) s = .next t ∧ t.findSeq q.motif q.id = some q' ∧ q'.state = .appending ∧ q'.tokens = q.tokens ∧
           q'.append = some { mailbox := m, tokens := tokensOf c.data, target := (tokensOf c.data).length, started := 0, committed := 0 } ∧
           (t.box m).target = (tokensOf c.data).length ∧ t = { s with boxes := t.boxes, seqs := t.seqs, fabric := t.fabric }) ∧
       (q.state = .opened → q.gen = none → q.tokens = [] → (tokensOf c.data).length = 1 →
         ∃ t q', exec (.seqAppend m) s = .next t ∧ t.findSeq q.motif q.id = some q' ∧ q'.state = .opened ∧ q'.tokens = tokensOf c.data ∧
           (t.box m).cur = none ∧ (t.box m).done = true ∧ (t.box m).status = 0))) ∧
  (∀ (m : Nat) (e : Bytes) (p : Pricking) (q : Seq) (s : State), Ready s m 0x33 e → s.seqWaits m = false → s.take.vacatedTo = none →
     s.seqMotif (field e 8 1) = some (.ok p) → s.findSeq (field e 8 1) (field e 0xC 3) = some q → s.beyond p q = false →
     let fails (st d : Nat) : Prop := ∃ t, exec (.seqFork m) s = .next t ∧ Completes s t m st d (s.box m).progress 0 ∧
       t = { s with boxes := t.boxes, fabric := t.fabric }
     (q.state = .closing → fails 0x0203 3) ∧
     (q.state ≠ .closing → (s.findSeq q.motif (field e 0x10 3)).isSome = true → fails 0x0202 0) ∧
     (q.state ≠ .closing → s.findSeq q.motif (field e 0x10 3) = none → 4096 ≤ s.openCount → fails 0x0300 0) ∧
     (q.state ≠ .closing → s.findSeq q.motif (field e 0x10 3) = none → s.openCount < 4096 → q.hostPages = true → q.draft = none →
       ∃ t, exec (.seqFork m) s = .next t ∧ Completes s t m 0 0 (s.box m).target 0 ∧
         t.seqs = { s.seqs with open_ := s.seqs.open_ ++
           [{ Seq.start q.motif (field e 0x10 3) (field e 0x18 8) q.hostPages q.draft none q.sampling with tokens := s.forkTokens m q }] } ∧
         t = { s with boxes := t.boxes, seqs := t.seqs, fabric := t.fabric }))

/-- `SEQ_GENERATE` with a count on an OPEN sequence starts its generation; without a token it completes with `ST_SEQ_EMPTY`, at token length 2^24 with
`ST_SEQ_FULL` and progress 0, and in another state with `ST_SEQ_BUSY`, each leaving every sequence as it is. A cancel completes at once with `ST_OK`;
sent to an OPEN sequence it has no other effect, and to a GENERATING one with a step in flight it marks the running generation as cancelled, which
goes on until that step's commit. -/
def Obligations.GenerationsBeginAndAreCancelled : Prop :=
  (∀ (m : Nat) (e : Bytes) (p : Pricking) (q : Seq) (s : State), Ready s m 0x32 e → begunOn s m = false → field e 0x10 4 ≠ 0 →
     s.seqWaits m = false → s.take.vacatedTo = none → s.seqMotif (field e 8 1) = some (.ok p) → s.findSeq (field e 8 1) (field e 0xC 3) = some q →
     s.beyond p q = false → generateBad p q e = none →
     let fails (st d progress result : Nat) : Prop := ∃ t, exec (.seqGenerate m) s = .next t ∧ Completes s t m st d progress result ∧
       t = { s with boxes := t.boxes, fabric := t.fabric }
     (q.state ≠ .opened → fails 0x0203 q.state.code (s.box m).progress q.tokens.length) ∧
     (q.state = .opened → q.tokens = [] → fails 0x0209 0 (s.box m).progress 0) ∧
     (q.state = .opened → 16777216 ≤ q.tokens.length → fails 0x0301 0 0 q.tokens.length) ∧
     (q.state = .opened → q.tokens ≠ [] → q.tokens.length < 16777216 →
       ∃ t q', exec (.seqGenerate m) s = .next t ∧ t.findSeq q.motif q.id = some q' ∧
         q' = { q with
           state := .generating
           nextTree := none
           sampling := if bit (field e 9 1) 0 then samplingOf e 0x14 else q.sampling
           gen := some { mailbox := m, count := field e 0x10 4, delivered := 0, stops := stopsOf e, branches := branchesOf e, cancelled := false } } ∧
         (t.box m).target = field e 0x10 4 ∧ (∀ k, k ≠ m → t.box k = s.box k) ∧ t = { s with boxes := t.boxes, seqs := t.seqs })) ∧
  (∀ (m : Nat) (e : Bytes) (p : Pricking) (q : Seq) (s : State), Ready s m 0x32 e → field e 0x10 4 = 0 →
     s.seqWaits m = false → s.take.vacatedTo = none → s.seqMotif (field e 8 1) = some (.ok p) →
     s.findSeq (field e 8 1) (field e 0xC 3) = some q → generateBad p q e = none →
     (q.state = .opened → ∃ t, exec (.cancel m) s = .next t ∧ Completes s t m 0 0 0 q.tokens.length ∧ t = { s with boxes := t.boxes, fabric := t.fabric }) ∧
     (∀ g, q.state = .generating → q.gen = some g → s.seqBusy q = true →
       ∃ t, exec (.cancel m) s = .next t ∧ Completes s t m 0 0 0 q.tokens.length ∧
         t.findSeq q.motif q.id = some { q with gen := some { g with cancelled := true } } ∧ t = { s with boxes := t.boxes, seqs := t.seqs, fabric := t.fabric }))

/-- `PAGES_BIND` of layers of the motif on a host-managed sequence, with its table in the host area, binds the table; where no bound table covers any of
its layers it completes at once. A parameter out of range fails with its offset and binds nothing. -/
def Obligations.PagesBindBindsATable : Prop :=
  ∀ (m : Nat) (e : Bytes) (p : Pricking) (q : Seq) (s : State), Ready s m 0x38 e → begunOn s m = false → s.seqWaits m = false → s.take.vacatedTo = none →
    s.seqMotif (field e 8 1) = some (.ok p) →
    s.findSeq (field e 8 1) (field e 0xC 3) = some q →
    let b : Binding := { motif := q.motif, seq := q.id, firstLayer := field e 0x10 2, layerCount := field e 0x12 2, descOffset := field e 0x18 8 }
    let fails (d : Nat) : Prop := ∃ t, exec (.pagesBind m) s = .next t ∧ Completes s t m 0x0102 d (s.box m).progress 0 ∧
      t = { s with boxes := t.boxes, fabric := t.fabric }
    (q.hostPages = false → fails 0x0C) ∧
    (q.hostPages = true → p.layers.length ≤ b.firstLayer → fails 0x10) ∧
    (q.hostPages = true → b.firstLayer < p.layers.length → p.layers.length < b.firstLayer + b.layerCount → fails 0x12) ∧
    (q.hostPages = true → b.firstLayer < p.layers.length → b.firstLayer + b.layerCount ≤ p.layers.length →
      s.inHostArea b.descOffset (32 * b.layerCount) = false → fails 0x18) ∧
    (q.hostPages = true → b.firstLayer < p.layers.length → b.firstLayer + b.layerCount ≤ p.layers.length →
      s.inHostArea b.descOffset (32 * b.layerCount) = true → q.state ≠ .closing → (s.seqs.bindings.any fun x => x.overlaps b) = false →
      ∃ t, exec (.pagesBind m) s = .next t ∧ Completes s t m 0 0 (s.box m).target 0 ∧ b ∈ t.seqs.bindings ∧
        t = { s with boxes := t.boxes, seqs := { s.seqs with bindings := t.seqs.bindings }, fabric := t.fabric })

/-! ### Knots (R247, R248) -/

/-- The operations of R248. ARM takes a FREE knot for the issuing port and answers the owner of any other; ADD, its message and FETCH_ADD add to a knot
that is not FREE and carries the same guard, and count a refusal on any other; REARM and FREE are the owner's. A knot that is ARMED fires when count
minus threshold, read as signed, is 0 or above: it is FIRED then and one wake goes to its owner; an ADD to a FIRED knot is applied without one. An
operation that others of the same instant follow leaves the firing test to the last of them (log 72). Every other knot, and everything but the knots,
is as before. -/
def Obligations.KnotOperations : Prop :=
  ∀ (port bride n : Nat) (x g c d : BitVec 32) (sv : Option StepTag) (s : State), n < 4096 →
    let k := s.knot n
    let only (t : State) : Prop := (∀ j, j ≠ n → t.knot j = s.knot j) ∧ t = { s with knots := t.knots }
    let fires (k' : Knot) : Prop := k'.state = 1 ∧ 0 ≤ (k'.count - k'.threshold).toInt
    let lands (t : State) (k' : Knot) : Prop :=
      (fires k' → t.knot n = { k' with state := 2 } ∧ t.knots.wakes = (k'.owner, n) :: s.knots.wakes) ∧
      (¬ fires k' → t.knot n = k' ∧ t.knots.wakes = s.knots.wakes)
    let stored (t : State) (k' : Knot) : Prop := t.knot n = k' ∧ t.knots.wakes = s.knots.wakes
    let armedBy (sv : Option StepTag) : Knot := { owner := port, state := 1, refused := 0, guard := g, threshold := x, count := c, serves := sv }
    (k.state = 0 → ∃ t, exec (.arm port n x g c sv) s = .next t ∧ (s.orderedFollows port n = false → lands t (armedBy sv)) ∧
      (s.orderedFollows port n = true → stored t (armedBy sv)) ∧ only t) ∧
    (k.state ≠ 0 → ∃ t, exec (.arm port n x g c sv) s = .next t ∧ t.knots = { s.knots with reply := .owner k.owner } ∧ only t) ∧
    (k.owner = port → ∃ t, exec (.rearm port n x g c) s = .next t ∧ (s.orderedFollows port n = false → lands t (armedBy k.serves)) ∧
      (s.orderedFollows port n = true → stored t (armedBy k.serves)) ∧ only t) ∧
    (k.owner = port → ∃ t, exec (.free port n) s = .next t ∧ t.knot n = Knot.init ∧ t.knots.wakes = s.knots.wakes ∧ only t) ∧
    (k.state ≠ 0 → k.guard = g →
      (s.addFollows n = false → ∃ t, exec (.add port n d g) s = .next t ∧ lands t { k with count := k.count + d } ∧ only t) ∧
      (s.addFollows n = true → ∃ t, exec (.add port n d g) s = .next t ∧ stored t { k with count := k.count + d } ∧ only t) ∧
      (∃ t, exec (.fetchAdd port n d g) s = .next t ∧ (s.orderedFollows port n = false → lands t { k with count := k.count + d }) ∧
        (s.orderedFollows port n = true → stored t { k with count := k.count + d }) ∧ t.knots.reply = .count k.count ∧ only t) ∧
      (s.addFollows n = false → ∃ t, exec (.knotAdd bride n d g) s = .next t ∧ lands t { k with count := k.count + d } ∧ only t)) ∧
    (k.state = 0 ∨ k.guard ≠ g → s.orderedFollows port n = false → ∃ t, exec (.add port n d g) s = .next t ∧
      lands t { k with refused := min (k.refused + 1) 255 } ∧ only t ∧ exec (.fetchAdd port n d g) s = .next t ∧
      exec (.knotAdd bride n d g) s = .next { t with knots := { t.knots with reply := s.knots.reply } })

/-! ### Arrays and the data path (R81 to R146) -/

/-- A converter whose least significant bit is `u` units of charge: the code is the whole k with (k - 1/2) u ≤ y < (k + 1/2) u, and outside the range it
is clamped with OVR. That is with every tap at 16; with other trims the low 4 bits are the last fine step whose edge, the delays of the taps before
it, lies at or below the charge. -/
def Obligations.ConverterCodes : Prop :=
  ∀ (u : Nat) (y : Int), 0 < u →
    (∀ taps, (255 * (u : Int) ≤ 2 * y → quantise taps u y = (127, true)) ∧ (2 * y < -257 * (u : Int) → quantise taps u y = (-128, true))) ∧
    (∀ k : Int, -128 ≤ k → k ≤ 127 → (2 * k - 1) * (u : Int) ≤ 2 * y → 2 * y < (2 * k + 1) * (u : Int) → quantise [] u y = (k, false)) ∧
    (∀ (taps : Tab Nat) (group r f : Nat), group < 16 → r < 32 * u → f < 16 → 2 * y = -257 * (u : Int) + 32 * (u : Int) * group + r →
      tapEdge taps f * (2 * u) ≤ 64 * r → (f = 15 ∨ 64 * r < tapEdge taps (f + 1) * (2 * u)) →
      quantise taps u y = (16 * (group : Int) + f - 128, false))

/-- A vector offered to an array that serves its tile is latched when no vector waits and the duty window has room for its evaluation, or when it is a
zero vector: its output follows the earlier ones, a zero vector's with no sums, no check and a clean report. Before the first vector of a batch a
READY set of coefficients comes into force. Where there is no room the vector waits behind the others. A duty window's end, 10 µs after its start,
lets the waiting vectors go in their order: with nothing waiting the window only starts anew, with the share then in force. Before that it does
nothing. The first vector of an array whose check has not been reported is reported: clean, it enters the statistics of the physical array and nothing
is counted; suspect, with its step over or superseded, it counts one suspect of the array and of the module. Later outputs are left as they are. An
array in warm-up whose turn it is runs an internal I8B vector while the duty window has room for it with all its planes retried and no vector waits
for the array, outside the safe state: its vector count and the draws move on, no other array's calibration changes, and no service output is made. -/
def Obligations.VectorsAreLatchedAndChecked : Prop :=
  (∀ (array p : Nat) (v : LiveVector) (s : State), array < 32768 → s.workOf array = some p → s.latchOk array v = true →
     let first : Prop := latchedOf (s.array array) v.tag = 0 ∧ s.batchOver array = true
     (s.arrays.dutyWait = [] → s.dutyFits array p v = true →
       ∃ t o, exec (.vectorLatch array v) s = .next t ∧ (t.array array).outs = (s.array array).outs ++ [o] ∧ o.vec = v ∧ o.epoch = (t.phys p).epoch ∧
         (zeroVector v = true → o.zero = true ∧ o.sums = [] ∧ o.fail = none ∧ o.reported = true ∧ t.arrays.dutyUsed = s.arrays.dutyUsed ∧
           t.arrays.macs = s.arrays.macs) ∧
         (zeroVector v = false → o.zero = false ∧ o.planes = v.bits ∧ o.reported = false ∧
           t.arrays.dutyUsed = s.arrays.dutyUsed + (4 * v.bits + 2 * o.retries) ∧ t.arrays.macs = s.arrays.macs + 524288) ∧
         ((s.phys p).shadow = none ∨ ¬ first → t.phys p = s.phys p ∧ ∀ a, a ≠ array → t.array a = s.array a) ∧
         (∀ c, (s.phys p).shadow = some c → first → (s.phys p).shadowHost = true ∨ s.arrays.freezeUntil = none →
           (t.phys p).coef = c ∧ (t.phys p).epoch = (s.phys p).epoch + 1 ∧ (t.phys p).shadow = none) ∧
         (∀ q, q ≠ p → t.phys q = s.phys q) ∧ t = { s with arrays := t.arrays, counters := t.counters, draws := t.draws }) ∧
     (s.arrays.dutyWait ≠ [] ∨ s.dutyFits array p v = false →
       ∃ t, exec (.vectorLatch array v) s = .next t ∧ t.arrays = { s.arrays with dutyWait := s.arrays.dutyWait ++ [(array, v)] } ∧
         t = { s with arrays := t.arrays, steps := t.steps })) ∧
  (∀ s : State,
     (s.arrays.dutyWait = [] → s.arrays.dutyStart + 10000 ≤ s.now → exec .dutyWindowEnd s = .next { s with arrays := { s.arrays with
       dutyUsed := 0, dutyStart := s.now, freeUsed := 0, dutyWait := []
       share := if s.start.stage < 6 then 40 else min s.thermal.shareGov (ladderShare s.level) } }) ∧
     (s.arrays.dutyStart ≤ s.now → s.now < s.arrays.dutyStart + 10000 → exec .dutyWindowEnd s = .next s)) ∧
  (∀ (array p : Nat) (o : ArrayOut) (s : State), array < 32768 → s.physOf array = p → unreported (s.array array) = some o →
     (o.fail = none → ∃ t, exec (.picotCheckReport array) s = .next t ∧ t.array array = reportFirst (s.array array) ∧
       (t.phys p).stats = (s.phys p).stats.addOut o ∧ t.phys p = { s.phys p with stats := (t.phys p).stats } ∧
       (∀ a, a ≠ array → t.array a = s.array a) ∧ (∀ q, q ≠ p → t.phys q = s.phys q) ∧ t = { s with arrays := t.arrays }) ∧
     (∀ f r, o.fail = some f → s.stepOf o.vec.tag = some r → r.ended = true →
       ∃ t, exec (.picotCheckReport array) s = .next t ∧ (t.array array).suspects = min ((s.array array).suspects + 1) 65535 ∧
         (t.array array).outs = (reportFirst (s.array array)).outs ∧ t.counters = { s.counters with suspects := min (s.counters.suspects + 1) (2 ^ 64 - 1) } ∧
         (∀ a, a ≠ array → t.array a = s.array a) ∧ t = { s with arrays := t.arrays, counters := t.counters, log := t.log })) ∧
  (∀ (phys a : Nat) (s : State), phys < 33280 → s.indexOf phys = some a → (s.phys phys).calState = 1 → s.start.safe = false → s.mayWarm a = true → s.warmTurn phys = true →
     s.arrays.dutyUsed + 48 ≤ dutyLimit s → (∀ w ∈ s.arrays.dutyWait, w.1 ≠ a) →
     ∃ t, exec (.internalVector phys 8) s = .next t ∧ (t.phys phys).vectors = (s.phys phys).vectors + 1 ∧
       (t.phys phys).stats.vectors = (s.phys phys).stats.vectors + 1 ∧ t.draws = s.draws + 1 ∧ (t.phys phys).coef = (s.phys phys).coef ∧
       (∀ q, q ≠ phys → t.phys q = s.phys q) ∧ (t.array a).outs = (s.array a).outs ∧
       t = { s with arrays := t.arrays, counters := t.counters, log := t.log, draws := t.draws })

/-- The node at position 0 of a chain starts the partial, with the exponent and the format of the matrix input; the node at a position above 0 adds its
array's output to the partial of the position before, or, where its array does not serve the step or the tambour has the tile's vector, forwards the
partial past it. The partial of the position before is gone and the array's output is taken. The tambour computes a tile that no array serves,
exactly, from the weight mirror, when no vector before it in the order of R281 waits: each column of its contribution is twice the product of the
vector with the tile's cells. It counts the tile as served for the step. A vector that comes while one of its own or an earlier class waits is put
behind those that wait. At the chain end the complete partial of a chain with no tambour contribution goes into the wide accumulator as G times its
sums less the column sums of its present arrays, and its counts into the layer's window. -/
def Obligations.ChainsOfPartials : Prop :=
  (∀ (key : ChainKey) (position : Nat) (tile : Tile) (s : State), s.chainTile key position = some tile → s.usable key.tag = true →
     (∀ c, 0 < position → s.data.parts.find? (fun c => decide (c.key = key ∧ c.position + 1 = position)) = some c →
       (∀ o, outFor (s.array tile.array) key = some o → ∃ t, exec (.chainPartial key position) s = .next t ∧
         t.data.parts = c.add position o :: s.data.parts.filter (fun x => x.key ≠ key) ∧
         t.array tile.array = takeOut (s.array tile.array) key ∧ (∀ a, a ≠ tile.array → t.array a = s.array a) ∧ t = { s with arrays := t.arrays, data := t.data }) ∧
       (outFor (s.array tile.array) key = none → s.arrayServes tile.array key.tag = false ∨ s.tambourHas key position = true →
         ∃ t, exec (.chainPartial key position) s = .next t ∧ t.data.parts = c.skip position :: s.data.parts.filter (fun x => x.key ≠ key) ∧
           t = { s with data := t.data })) ∧
     (∀ x o, position = 0 → (∀ c ∈ s.data.parts, c.key ≠ key) → s.rotOf key.tag key.matrix key.row = some x → outFor (s.array tile.array) key = some o →
       ∃ t c, exec (.chainPartial key 0) s = .next t ∧ t.data.parts = c :: s.data.parts ∧ c = (ChainPart.start key x).add 0 o ∧
         c.exponent = x.exponent ∧ c.bits = formatBits x.format ∧
         t = { s with arrays := t.arrays, data := t.data, steps := t.steps, draws := t.draws })) ∧
  (∀ (array position : Nat) (key : ChainKey) (v : LiveVector) (tile : Tile) (r : LayerRec) (s : State), array < 32768 →
     s.tileOf array v = some tile → chainOf tile v = key → tile.position = position → s.chainTile key position = some tile → s.layerT key.tag = some r →
     s.vectorFor tile v = true → (s.motif key.tag.motif).spoilt.contains array = false →
     s.usable key.tag = true → s.arrayServes array key.tag = false → s.arrayHas array key position = false → s.tambourHas key position = false →
     let j : TambourJob := { array := array, key := key, position := position, vec := v }
     ((∀ x ∈ s.data.tambourWait, s.jobClass j < s.jobClass x) →
       ∃ t o, exec (.tambourTile array key position v) s = .next t ∧ o ∈ t.data.tambour ∧ o.key = key ∧ o.position = position ∧
         (∀ j, Tab.get 0 o.sums j = ((tile.weights.filter fun w => w.2.1 = j).map fun w =>
           2 * v.elems.getD w.1 0 * (if r.w3 then 2 * w.2.2 else w.2.2)).sum) ∧ t.data.tambourWait = s.data.tambourWait ∧
         t.data.parts = s.data.parts ∧ t.data.wide = s.data.wide ∧ t = { s with data := t.data, steps := t.steps }) ∧
     ((∃ x ∈ s.data.tambourWait, s.jobClass x ≤ s.jobClass j) →
       exec (.tambourTile array key position v) s = .next { s with data := { s.data with tambourWait := s.data.tambourWait ++ [j] } })) ∧
  (∀ (key : ChainKey) (r : LayerRec) (c : ChainPart) (s : State), s.layerT key.tag = some r → s.usable key.tag = true →
     let tiles := (s.blockTiles key).filter fun x => x.chain = key.chain
     s.data.parts.find? (fun c => decide (c.key = key ∧ c.position + 1 = tiles.length)) = some c → (∀ x ∈ s.data.tambour, x.key ≠ key) →
     ∃ t w, exec (.chainEndPromote key) s = .next t ∧ t.data.parts = s.data.parts.filter (fun x => x.key ≠ key) ∧
       t.data.wide = w :: s.data.wide.filter (fun x => !wideFor key x) ∧ w.acc = addTab (s.wideOf key).acc (chainContribution r.gainTap c tiles) ∧
       w.exponent = max (s.wideOf key).exponent c.exponent ∧ w.chains = key.chain :: (s.wideOf key).chains ∧ t.data.tambour = s.data.tambour ∧
       (t.prec key.tag.motif key.tag.gen key.tag.layer).ovr = (s.prec key.tag.motif key.tag.gen key.tag.layer).ovr + c.ovrFirst ∧
       (t.prec key.tag.motif key.tag.gen key.tag.layer).conversions = (s.prec key.tag.motif key.tag.gen key.tag.layer).conversions + c.conversions ∧
       t = { s with data := t.data, motifs := t.motifs, steps := t.steps, draws := t.draws })

/-- A rotation of a layer this module owns, for a step in flight and with the seeds the pricking gives, forms one matrix input with the step's format,
requantised from the rotated values with one exponent, in place of an earlier one of the same row; a matrix that follows attention waits for the
merged rows, one that takes the attention output takes that row of it, and the output projection takes the final norm of the retained row. A block
with every chain and tambour contribution in is scaled to FP32 values, column by column, with the block's scales and exponent; of the output
projection the columns beyond the vocabulary are discarded. A precision window that has its positions is closed: the counters move to the record and
start from 0; a layer with fall-back on whose rate exceeds a limit goes to I8B, and one in I8B goes back to its base format after its return windows
within half of every limit. -/
def Obligations.MatrixInputsAndOutputs : Prop :=
  (∀ (tag : StepTag) (matrix row over_ : Nat) (seeds : List Nat) (values input : List Fp32) (r : LayerRec) (s : State),
     s.layerT tag = some r → s.usable tag = true → s.owns r = true → values.length = 1024 * seeds.length → s.seedsOk tag matrix seeds = true →
     s.attnIn tag matrix row = true → s.fromAttention tag matrix row values = true → s.matrixInput tag matrix row values = some (input, over_) →
     ∃ t o, exec (.rotation tag matrix row seeds values) s = .next t ∧
       t.data = { s.data with unitAudits := t.data.unitAudits, rotated := o :: s.data.rotated.filter fun x => !decide (x.tag = tag ∧ x.matrix = matrix ∧ x.row = row) } ∧
       o.tag = tag ∧ o.matrix = matrix ∧ o.row = row ∧ o.seeds = seeds ∧ o.format = s.formatOf tag ∧
       o.exponent = (requant (formatBits o.format) (rotateAll seeds input)).exponent ∧
       o.elems = (requant (formatBits o.format) (rotateAll seeds input)).elems ∧
       (t.prec tag.motif tag.gen tag.layer).elements = (s.prec tag.motif tag.gen tag.layer).elements + o.elems.length ∧
       t = { s with data := t.data, steps := t.steps, motifs := t.motifs, draws := t.draws }) ∧
  (∀ (key : ChainKey) (r : LayerRec) (s : State), s.layerT key.tag = some r → s.usable key.tag = true →
     blockComplete (s.blockTiles key) (s.wideOf key) = true →
     let cols := if s.outputMatrix key.tag = some key.matrix then min 512 (s.vocabT key.tag - 512 * key.outputBlock) else 512
     ∃ t o, exec (.matrixOutput key) s = .next t ∧
       t.data.outs = o :: s.data.outs.filter (fun x => !decide (x.tag = key.tag ∧ x.matrix = key.matrix ∧ x.outputBlock = key.outputBlock ∧ x.row = key.row)) ∧
       o.tag = key.tag ∧ o.matrix = key.matrix ∧ o.outputBlock = key.outputBlock ∧ o.row = key.row ∧ o.values.length = cols ∧
       (∀ j, j < cols → o.values.getD j 0 = outputColumn (Tab.get 0 (s.wideOf key).acc j) (Tab.get (0 : Fp32) (blockScales (s.blockTiles key)) j)
         (s.wideOf key).exponent r.w3) ∧
       t.data.wide = s.data.wide.filter (fun x => !wideFor key x) ∧
       (t.prec key.tag.motif key.tag.gen key.tag.layer).outputs = (s.prec key.tag.motif key.tag.gen key.tag.layer).outputs + 512 ∧ t = { s with data := t.data, motifs := t.motifs }) ∧
  (∀ (motif layer gen : Nat) (r : LayerRec) (s : State), motif < 16 → s.windowGen motif layer = gen →
     ((((s.motif motif).prickFor gen).map fun p => p.placed (movedNow s.take.moves)).bind fun p => layerOf p layer) = some r → s.owns r = true →
     r.fbWindow ≤ (s.prec motif gen layer).positions →
     let q := s.prec motif gen layer
     let beyond : Prop := exceeds q.ovr q.conversions r.ovrLimit = true ∨ exceeds q.nsat q.outputs r.nsatLimit = true ∨ exceeds q.zeroed q.elements r.zeroedLimit = true
     let half : Prop := within q.ovr q.conversions r.ovrLimit = true ∧ within q.nsat q.outputs r.nsatLimit = true ∧ within q.zeroed q.elements r.zeroedLimit = true
     ∃ t, exec (.precisionWindowEnd motif layer) s = .next t ∧ t = { s with motifs := { s.motifs with layers := t.motifs.layers }, log := t.log } ∧
       (t.prec motif gen layer).windows = q.windows + 1 ∧ (t.prec motif gen layer).rElements = q.elements ∧ (t.prec motif gen layer).elements = 0 ∧
       (t.prec motif gen layer).positions = 0 ∧
       (q.format ≠ 3 → r.fallback = true → beyond → (t.prec motif gen layer).format = 3 ∧ (t.prec motif gen layer).fallbacks = q.fallbacks + 1 ∧ (t.prec motif gen layer).quiet = 0) ∧
       (q.format ≠ 3 → ¬ (r.fallback = true ∧ beyond) → (t.prec motif gen layer).format = q.format ∧ t.log = s.log) ∧
       (q.format = 3 → half → q.quiet + 1 = r.returnWindows → (t.prec motif gen layer).format = r.baseFormat ∧ (t.prec motif gen layer).quiet = 0) ∧
       (q.format = 3 → half → q.quiet + 1 ≠ r.returnWindows → (t.prec motif gen layer).format = 3 ∧ (t.prec motif gen layer).quiet = q.quiet + 1 ∧ t.log = s.log) ∧
       (q.format = 3 → ¬ half → (t.prec motif gen layer).format = 3 ∧ (t.prec motif gen layer).quiet = 0 ∧ t.log = s.log))

/-! ### Steps, attention, commit and recall (R33 to R40, R192 to R262) -/

/-- A prefill step of an append starts with the next step number, the generation in force and at most the chunk of the step level and the positions that
remain as its width; the sequence then counts it as started. A generation step starts over the nodes of its tree, node 0 the pending token, when no
step of the sequence is in flight, no close of it has been consumed and 64 record slots of its mailbox are free; with fewer free slots it waits and
the status word shows it. A tree that a draft motif delivers waits for the main sequence's next step. A companion step starts over the pending token
of a tree not begun, with the number and the generation of its own sequence; when its logits are in it ends, the tree gains a depth, and one as deep
as its shape goes to the main sequence. A `MOTIF_SWITCH` of the draft motif counts a step of the old generation that ends. -/
def Obligations.StepsAndTreesStart : Prop :=
  (∀ (motif seq : Nat) (p : Pricking) (q : Seq) (a : AppendInfo) (s : State), motif < 16 → s.mayStart motif = some p → s.findSeq motif seq = some q →
     q.state = .appending → q.append = some a → a.started < a.target → (s.seqInFlight (seqTag q)).all leftFirstLayer = true →
     s.barred motif seq = false → s.roomForStep p (min (min (ladderChunk (s.stepLevel motif)) 4096) (a.target - a.started)) = true →
     ∃ t r q', exec (.prefillStepStart motif seq) s = .next t ∧ r ∈ t.steps.live ∧ r.motif = motif ∧ r.seq = seq ∧ r.step = q.nextStep ∧
       r.gen = (s.motif motif).gen.toNat ∧ r.prefill = true ∧ r.width ≤ ladderChunk (s.stepLevel motif) ∧ r.width ≤ 4096 ∧
       r.width ≤ a.target - a.started ∧ r.nodes.length = r.width ∧ r.ended = false ∧ t.findSeq motif seq = some q' ∧
       q' = { q with nextStep := q.nextStep + 1
                     append := some { a with started := a.started + min (min (ladderChunk (s.stepLevel motif)) 4096) (a.target - a.started) } } ∧
       t = { s with seqs := t.seqs, steps := t.steps, motifs := t.motifs }) ∧
  (∀ (motif seq : Nat) (p : Pricking) (q : Seq) (g : GenInfo) (s : State), motif < 16 → s.mayStart motif = some p → s.findSeq motif seq = some q →
     q.state = .generating → q.gen = some g → s.seqBusy q = false → s.barred motif seq = false →
     (freeSlots (s.box g.mailbox) < 64 → (s.boxes.box.filter fun e => namesSeq e.2 motif seq).map (·.1) = [g.mailbox] →
       ∃ t, exec (.generationStepStart motif seq) s = .next t ∧ t.steps = s.steps ∧ t.seqs = { s.seqs with slow := t.seqs.slow } ∧
         (t.box g.mailbox).slowAt.head? = some (7, s.now) ∧ (t.box g.mailbox).updates = (s.box g.mailbox).updates + 1 ∧
         (∀ k, k ≠ g.mailbox → t.box k = s.box k) ∧ t = { s with boxes := t.boxes, seqs := t.seqs }) ∧
     (∀ nodes cut, 64 ≤ freeSlots (s.box g.mailbox) → nextNodes s p q g = some (nodes, cut) → s.roomForStep p nodes.length = true →
       ∃ t r q', exec (.generationStepStart motif seq) s = .next t ∧ r ∈ t.steps.live ∧ r.motif = motif ∧ r.seq = seq ∧ r.step = q.nextStep ∧
         r.gen = (s.motif motif).gen.toNat ∧ r.prefill = false ∧ r.n = q.tokens.length ∧ r.nodes = nodes ∧ r.width = nodes.length ∧
         t.findSeq motif seq = some q' ∧ q' = { q with nextStep := q.nextStep + 1, nextTree := none } ∧
         t = { s with seqs := t.seqs, steps := t.steps, motifs := t.motifs }) ∧
     (g.branches = [] → nextNodes s p q g = some ([{ token := q.tokens.getLastD 0, parent := 0 }], false))) ∧
  (∀ (main seq d : Nat) (logits : List (List Fp32)) (q c : Seq) (g : GenInfo) (s : State), main < 16 → s.findSeq main seq = some q →
     q.draft = some d → s.findCompanion d main seq = some c →
     (∀ (tag : StepTag) (nodes : List TreeNode), tag.companion = some main → tag.seq = seq → tag.motif = d → treeOk nodes = true →
       ∃ t, exec (.tree tag nodes) s = .next t ∧ t.findSeq main seq = some { q with nextTree := some nodes } ∧ t = { s with seqs := t.seqs }) ∧
     (∀ p, q.gen = some g → g.branches ≠ [] → q.nextTree = none → c.nextTree = none → s.seqInFlight (seqTag c) = [] → s.seqInFlight (seqTag q) = [] →
       s.mayStart d = some p → s.roomForStep p 1 = true →
       ∃ t r, exec (.companionStep main seq logits) s = .next t ∧ r ∈ t.steps.live ∧ r.motif = d ∧ r.seq = seq ∧ r.companion = some main ∧
         r.step = c.nextStep ∧ r.gen = (s.motif d).gen.toNat ∧ r.width = 1 ∧ r.nodes = [{ token := q.tokens.getLastD 0, parent := 0 }] ∧
         t.findCompanion d main seq = some { c with nextStep := c.nextStep + 1, nextTree := some [{ token := q.tokens.getLastD 0, parent := 0 }] } ∧
         t = { s with seqs := t.seqs, steps := t.steps, motifs := t.motifs }) ∧
     (∀ p r nodes, q.gen = some g → s.seqInFlight (seqTag c) = [r] → s.stepOf (r.tag 0 0) = some r → s.prickT (r.tag 0 0) = some p → s.tailOf p = false →
       logits.length = r.width → (∀ l ∈ logits, l.length = p.vocabSize) → c.nextTree = some nodes → g.branches.length ≤ treeDepth nodes + 1 →
       ∃ t, exec (.companionStep main seq logits) s = .next t ∧
         t.findSeq main seq = some { q with nextTree := some (growTree nodes (g.branches.getD (treeDepth nodes) 0) logits) } ∧
         t.findCompanion d main seq = some { c with nextTree := none } ∧ t.seqInFlight (seqTag c) = [] ∧
         t.mem.window = s.mem.window ∧ (s.motifs.switches = [] → t.boxes = s.boxes) ∧
         t = { s with seqs := t.seqs, steps := t.steps, data := t.data, attn := t.attn, arrays := t.arrays, mem := t.mem, boxes := t.boxes }))

/-- A slot written into a frame of its layer reads back as it was, and every byte outside the slot's keys, values and scales keeps its value. Slots and
compacted slots reach the frames of their page on this module and no other byte of memory. A COMPACT writes its slot into the frames held for the page
once this module has applied the step's commit, and waits before that; a slot is written once the layer's lists are latched here, and waits before
that. Query rows that reach a module of the layer's spread are kept with the lists latched for them, and counted in the layer's record. The layer
module forms its rows, rotated and requantised, and sends them to the spread: to the one other module of a spread that does not hold the layer module. -/
def Obligations.SlotsAndQueryRowsAreKept : Prop :=
  (∀ (m : Memory) (b h frame t : Nat) (d : SlotData), (b = 4 ∨ b = 8) → t < 16 → slotFits b h d = true →
     readSlot (writeSlot m b h frame t d) b h frame t d.position d.node = d ∧
     ∀ a, (∀ g, g < h → (a < frame + keyOff b g t ∨ frame + keyOff b g t + headBytes b ≤ a) ∧
         (a < frame + valueOff b g t ∨ frame + valueOff b g t + headBytes b ≤ a) ∧
         (a < frame + keyScaleOff b h g t ∨ frame + keyScaleOff b h g t + 4 ≤ a) ∧
         (a < frame + valueScaleOff b h g t ∨ frame + valueScaleOff b h g t + 4 ≤ a)) →
       memByte (writeSlot m b h frame t d) a = memByte m a) ∧
  (∀ (source : Nat) (tag : StepTag) (d : SlotData) (heads : List (List (List Fp32 × List Fp32))) (p : Pricking) (r : LayerRec) (s : State),
     s.prickT tag = some p → s.layerT tag = some r → slotFits (kvBits p) r.kvHeads d = true →
     (s.stepOver tag = true → ∃ t, exec (.compact tag d) s = .next t ∧
       t.mem = (s.framesFor tag (d.position / 16)).foldl (fun m f => writeSlot m (kvBits p) r.kvHeads f (d.position % 16) d) s.mem ∧
       t = { s with mem := t.mem, attn := { s.attn with compactDue := t.attn.compactDue } }) ∧
     (s.stepOver tag = false → exec (.compact tag d) s = .next { s with attn := { s.attn with compactWait := s.attn.compactWait ++ [(tag, d)] } }) ∧
     (∀ u, s.arrive tag = (u, true) → source ≠ s.machineId → u.ranksHeld r ≠ [] →
       (u.latchOf tag = none → exec (.slot source tag ⟨[d], heads⟩) s = .next { u with attn := { u.attn with slotsWait := u.attn.slotsWait ++ [(tag, d)] } }) ∧
       (∀ c v l, (u.latchOf tag).isSome = true → u.stepOf tag = some c → c.ownsSlot d = true → u.latchPages tag d.position = (v, true) → v.latchOf tag = some l →
         ∃ t, exec (.slot source tag ⟨[d], heads⟩) s = .next t ∧
           t.mem = (framesOf l (d.position / 16)).foldl (fun m f => writeSlot m (kvBits p) r.kvHeads f (d.position % 16) d) v.mem ∧
           t = { v with mem := t.mem, attn := { v.attn with written := t.attn.written } }))) ∧
  (∀ (source : Nat) (tag : StepTag) (last : Bool) (rows : List QueryRow) (heads : List (List Fp32)) (r : LayerRec) (s : State), s.layerT tag = some r →
     (∀ u rec, source ≠ s.machineId → s.arrive tag = (u, true) → u.stepOf tag = some rec → u.ranksHeld r ≠ [] →
       let known := rec.learn rows (addRows tag rows u.attn.rows |>.filter (·.1 = tag)).length r.qHeads last
       ∀ v, (u.setStep tag fun c => c.learn rows (addRows tag rows u.attn.rows |>.filter (·.1 = tag)).length r.qHeads last).latchPages tag
           (lastSlot known rows) = (v, true) → (∀ x ∈ v.attn.slotsWait, x.1 ≠ tag) →
       ∃ t, exec (.query source tag last ⟨rows, heads⟩) s = .next t ∧ t.attn.rows = addRows tag rows v.attn.rows ∧ (last = true → tag ∈ t.attn.closed) ∧
         (t.prec tag.motif tag.gen tag.layer).rows = (v.prec tag.motif tag.gen tag.layer).rows + rows.length ∧ t.mem = v.mem ∧
         t = { v with attn := t.attn, motifs := t.motifs }) ∧
     (∀ d, source = s.machineId → s.usable tag = true → s.owns r = true → heads.length = rows.length → s.spreadIds r = [d] → d ≠ s.machineId → r.k = 1 →
       ∃ t m, exec (.query source tag last ⟨rows, heads⟩) s = .next t ∧ t.fabric.out = m :: s.fabric.out ∧ m.dest = d ∧ m.last = last ∧ m.tag = some tag ∧
         m.body = .query ((List.zip rows heads).map fun e => (formRow r e.1 e.2).1) ∧ t.mem = s.mem ∧ t.attn = s.attn ∧
         t = { s with steps := t.steps, motifs := t.motifs, fabric := t.fabric }))

/-- A free pipeline starts the unit of a complete row group and a run, in ascending order, once the slots of its pages are written and the compaction of
earlier steps is finished: it computes one partial per row over the pages of its run, in their order. Its end hands the unit to the merge and frees
the pipeline. A merge holder of a layer on one module keeps the module partials of a row group, merges each of its rows and takes the merged rows at
once; a void row's output is zeros. Partials that reach a merge holder wait until all k of a row are in; merged rows that reach the layer module
become its attention outputs, o divided by L or zeros for an EMPTY row, and void rows are counted. -/
def Obligations.AttentionUnitsAndMerges : Prop :=
  (∀ (pipe group run : Nat) (tag : StepTag) (p : Pricking) (r : LayerRec) (l : Latch) (s : State), pipe < 48 →
     (∀ groups rows, s.prickT tag = some p → s.layerT tag = some r → s.latchOf tag = some l → s.groupCount tag r = some groups →
       s.rowGroup tag r group = some rows →
       let pages := s.pagesServed tag r l
       let runs := runCount groups pages.length
       let mine := runOf pages runs run
       s.usable tag = true → group < groups → run < runs → (s.island (192 + pipe)).state = 0 →
       (∀ e ∈ s.attn.pipes, e.1 ≠ pipe) → s.unitKnown tag group run runs = false → s.unitTurn tag group run runs = true → s.compacted tag = true →
       (∀ e ∈ mine, s.slotsReady tag e.1 = true ∧ s.frameFlagged e.2 (frameSize p) = false) →
       ∃ t, exec (.workUnit pipe tag group run) s = .next t ∧
         t.attn.pipes = (pipe, s.computeUnit tag r (kvBits p) group run rows mine) :: s.attn.pipes ∧
         t.mem = s.mem ∧ t.data = { s.data with unitAudits := t.data.unitAudits } ∧
         t = { s with attn := t.attn, motifs := t.motifs, steps := t.steps, log := t.log, data := t.data, draws := t.draws }) ∧
     (∀ u, s.attn.pipes.find? (fun e => e.1 = pipe) = some u → exec (.workUnitEnd pipe) s =
       .next { s with attn := { s.attn with pipes := s.attn.pipes.filter fun x => x.1 ≠ pipe, units := u.2 :: s.attn.units } })) ∧
  (∀ (tag : StepTag) (group : Nat) (r : LayerRec) (l : Latch) (s : State), s.layerT tag = some r → s.latchOf tag = some l → s.usable tag = true →
     ∀ groups q, s.groupCount tag r = some groups → s.rowGroup tag r group = some [q] →
     let runs := runCount groups (s.pagesServed tag r l).length
     let units := s.attn.units.filter fun u => decide (u.tag = tag ∧ u.group = group)
     group < groups → (∀ u ∈ units, u.run ≠ runs) → (∀ i, i < runs → ∃ u ∈ units, u.run = i) →
     r.k = 1 → s.ranksHeld r = [0] → (∀ row, s.mergeHolder r row = s.machineId) → s.holder r.owner = s.machineId → s.attn.parts = [] → s.attn.merged = [] →
     ∃ t, exec (.moduleMerge tag group) s = .next t ∧ t.attn.parts = [] ∧ t.attn.merged.map (·.1) = [tag] ∧
       (∀ x ∈ t.attn.merged, x.2.row = q.row ∧ x.2.merged = true ∧ (x.2.m, x.2.l, x.2.o, x.2.empty) =
         (let w := mergeParts [modulePart units q]; (w.m, w.l, w.o, w.empty))) ∧
       t.attn.outs.length = s.attn.outs.length + 1 ∧ t.mem = s.mem ∧ t.fabric = s.fabric) ∧
  (∀ (source : Nat) (tag : StepTag) (recs : List RowPartial) (r : LayerRec) (u s : State), s.layerT tag = some r → s.arrive tag = (u, true) →
     (u.attn.parts = [] → 2 ≤ r.k → (recs.map (·.row)).Nodup → (∀ x ∈ recs, x.rank < r.k) →
       ∃ t, exec (.partialRows source tag recs) s = .next t ∧ t.attn.parts = (recordsFor u r u.machineId recs).map (fun x => (tag, x)) ∧
         t = { u with attn := { u.attn with parts := t.attn.parts } }) ∧
     (u.owns r = true → u.attn.merged = [] → ∃ t, exec (.merged tag recs) s = .next t ∧ t.attn.merged = recs.map (fun x => (tag, x)) ∧
       t.attn.outs = u.attn.outs ++ recs.map (fun x => (tag, x.row, if x.empty then List.replicate 128 0 else x.o.map fun v => fpDiv v x.l)) ∧
       t.counters.voidRows = (if (recs.filter (·.empty)).length = 0 then u.counters.voidRows
         else min (u.counters.voidRows + (recs.filter (·.empty)).length) (2 ^ 64 - 1)) ∧
       ((∀ x ∈ recs, x.shadow = false) → t.steps = u.steps) ∧ t = { u with attn := t.attn, motifs := t.motifs, counters := t.counters, steps := t.steps }))

/-- The output rows of an own layer are requantised, retained, and forwarded to the module of the next layer, with the step's tag; rows that come from the
layer before enter as input at the lineage then in force, or wait for room. A CHECK of the layers before is kept with its lineage; and a layer module
whose own run of layers is done sends the verdict on, with one module more and the larger level; what it told in the CHECK of an earlier run of its
layers is not told twice. -/
def Obligations.RowsAndChecksTravel : Prop :=
  (∀ (tag : StepTag) (first : Nat) (rows : List Bytes) (out : List (List Fp32)) (p : Pricking) (s : State), s.prickT tag = some p →
     (∀ nx r, tag.layer ∈ s.ownLayers p → s.usable tag = true → (∀ v ∈ out, v.length = p.width) → out ≠ [] → out.length ≤ 62 →
       layerOf p (tag.layer + 1) = some nx → s.owns nx = false → s.stepOf tag = some r →
       (∀ x ∈ r.outputs, ¬ (x.layer = tag.layer ∧ x.lineage = tag.lineage ∧ x.first = first)) →
       ∃ t m r', exec (.act tag first ⟨rows, out⟩) s = .next t ∧ t.fabric.out = m :: s.fabric.out ∧ m.body = .act first (out.map (requantRow 8)) ∧
         m.dest = s.holder nx.owner ∧ m.tag = some tag ∧ m.source = s.machineId ∧ t.stepOf tag = some r' ∧
         r'.outputs = r.outputs ++ [{ layer := tag.layer, lineage := tag.lineage, first := first, rows := out.map (requantRow 8) }] ∧ r'.inputs = r.inputs ∧
         t = { s with steps := t.steps, fabric := t.fabric, motifs := t.motifs }) ∧
     (tag.layer ∉ s.ownLayers p → tag.layer + 1 ∈ s.ownLayers p → (∀ x ∈ rows, x.length = rowBytes p) → s.stepOver tag = false →
       (s.mayEnter p tag = false → exec (.act tag first ⟨rows, out⟩) s =
         .next { s with steps := { s.steps with actWait := s.steps.actWait ++ [(tag, first, rows)] } }) ∧
       (∀ u r, s.mayEnter p tag = true → s.arrive tag = (u, true) → (∀ x ∈ rows, rowBad p x = false) → u.stepOf tag = some r →
         let lam := lineMax tag.lineage (floorAt r (tag.layer + 1))
         (∀ x ∈ r.inputs, ¬ (x.layer = tag.layer + 1 ∧ x.lineage = lam ∧ x.first = first)) →
         ∃ t r', exec (.act tag first ⟨rows, out⟩) s = .next t ∧ t.stepOf tag = some r' ∧
           r'.inputs = r.inputs ++ [{ layer := tag.layer + 1, lineage := lam, first := first, rows := rows }] ∧ r'.outputs = r.outputs ∧
           t = { u with steps := t.steps, motifs := t.motifs }))) ∧
  (∀ (tag : StepTag) (p : Pricking) (r : StepRec) (s : State), s.prickT tag = some p → s.stepOf tag = some r → r.ended = false →
     (∀ c : CheckBody, s.stepOver tag = false → c.through + 1 ∈ s.ownLayers p → floorAt r tag.layer = tag.lineage →
       ∃ t r', exec (.check tag c) s = .next t ∧ t.stepOf tag = some r' ∧ (tag.lineage, c) ∈ r'.checks ∧ r'.inputs = r.inputs ∧ r'.floors = r.floors ∧
         (s.steps.live.any (s.bygone tag) = false → t = { s with steps := t.steps })) ∧
     (∀ (nx : LayerRec) (c : CheckBody), tag.layer ∈ s.ownLayers p → layerOf p (tag.layer + 1) = some nx → s.owns nx = false →
       checkBefore r (segFirst (s.ownLayers p) tag.layer) = some c → r.checkSent.contains (tag.layer, floorAt r tag.layer) = false →
       s.layersDone r (segFirst (s.ownLayers p) tag.layer) tag.layer = true → s.start.safe = false →
       ∃ t m, exec (.checkSend tag) s = .next t ∧ t.fabric.out = m :: s.fabric.out ∧ m.dest = s.holder nx.owner ∧
         m.body = .check (s.checkBody r (segFirst (s.ownLayers p) tag.layer) tag.layer c) ∧
         (toldBefore r (segFirst (s.ownLayers p) tag.layer) = none → m.body = .check
           { modules := c.modules + 1, through := tag.layer, replays := c.replays + r.replays,
             tambourTiles := min (c.tambourTiles + servedTiles r) 65535, slow := c.slow ||| r.slow, level := max c.level s.level }) ∧
         t = { s with steps := t.steps, fabric := t.fabric }))

/-- On the tail a step whose layers are done and whose replays have finished is committed, after every earlier step of its sequence, a generation step
once the sampler has its verdict: its COMMIT goes to every other module of the group that holds part of the motif, the step ends here, and its
retained rows are released. A step recalled without replay ends uncommitted. A COMMIT on a module that is not the head ends the step there and
releases what was retained for it; one that compacts nothing, of a prefill step or an uncommitted end, leaves memory as it is. A COMMIT of a
generation step that ends nothing, on the head, delivers its tokens: they are appended to the sequence, one TOKEN record is written for each, the
progress rises by their number, and the step ends there. On the head the commit of a generation step that ends nothing appends the delivered tokens to
the sequence, the last of them pending, writes one TOKEN record for each, and raises the progress by their number. A generation ends with the first
condition that holds, in the order stop token, count reached, token length 2^24, cancel. -/
def Obligations.StepsAreCommitted : Prop :=
  (∀ (tag : StepTag) (p : Pricking) (r : StepRec) (s : State), s.prickT tag = some p → s.stepOf tag = some r → s.tailOf p = true → r.ended = false →
     s.start.safe = false → s.headOf p = false → s.role ≠ 1 → s.turnToCommit r = true → r.gen = tag.gen → r.companion = none → s.steps.actWait = [] →
     let last := p.layers.length - 1
     let ends (body : CommitBody) : Prop := ∃ t r', exec (.commitDecision tag) s = .next t ∧ t.stepOf tag = some r' ∧ r'.ended = true ∧
       r'.uncommitted = body.uncommitted ∧ r'.after = body.tokenLength ∧ r'.inputs = [] ∧ r'.outputs = [] ∧ (s.motifs.switches = [] → t.boxes = s.boxes) ∧
       (body.prefill = true ∨ body.uncommitted = true → t.mem.window = s.mem.window) ∧
       ∀ d ∈ s.motifModules p, d ≠ s.machineId → groupOf d = groupOf s.machineId →
         ∃ m ∈ t.fabric.out, m.dest = d ∧ m.body = .commit body ∧ m.tag = some (r.tag last (floorAt r last))
     (∀ chk, r.noReplay = none → s.dependsOnEnded r = false → checkBefore r (segFirst (s.ownLayers p) last) = some chk →
       s.layersDone r (segFirst (s.ownLayers p) last) last = true → floorAt r last = r.maxLineage →
       (r.prefill = true → ends (s.commitBody r chk [] [])) ∧
       (∀ path tokens, r.prefill = false → s.verdict p r (r.tag last (floorAt r last)) = some (path, tokens) → ends (s.commitBody r chk path tokens))) ∧
     (∀ f, r.noReplay = some f → ends (s.uncommittedBody r))) ∧
  (∀ (tag : StepTag) (c : CommitBody) (p : Pricking) (r : StepRec) (s : State), s.prickT tag = some p → s.stepOf tag = some r → s.stepOver tag = false →
     s.headOf p = false → s.role ≠ 1 → s.steps.actWait = [] → s.steps.live.any (s.bygone tag) = false →
     ∃ t r', exec (.commit tag false c) s = .next t ∧ t.stepOf tag = some r' ∧ r'.ended = true ∧ r'.uncommitted = c.uncommitted ∧ r'.after = c.tokenLength ∧
       r'.inputs = [] ∧ r'.outputs = [] ∧ (s.motifs.switches = [] → t.boxes = s.boxes) ∧ t.seqs = s.seqs ∧
       (c.prefill = true ∨ c.uncommitted = true → t.mem.window = s.mem.window ∧
         t = { s with steps := t.steps, data := t.data, attn := t.attn, arrays := t.arrays, mem := t.mem, boxes := t.boxes })) ∧
  (∀ (tag : StepTag) (c : CommitBody) (p : Pricking) (r : StepRec) (q : Seq) (g : GenInfo) (s : State), s.prickT tag = some p → s.stepOf tag = some r →
     s.stepOver tag = false → s.headOf p = true → r.companion = none → s.steps.actWait = [] → c.uncommitted = false → c.prefill = false →
     s.findSeq r.motif r.seq = some q → q.state = .generating → q.gen = some g → s.seqs.binds = [] → s.take.vacatedTo = none → s.motifs.switches = [] →
     endCondition { g with delivered := g.delivered + c.delivered } (c.tokens.take c.delivered) (q.tokens ++ c.tokens.take c.delivered).length false = none →
     ∃ t q' r', exec (.commit tag false c) s = .next t ∧ t.findSeq r.motif r.seq = some q' ∧ q'.tokens = q.tokens ++ c.tokens.take c.delivered ∧
       q'.state = .generating ∧ q'.gen = some { g with delivered := g.delivered + c.delivered } ∧
       (t.box g.mailbox).records = (s.box g.mailbox).records + c.delivered ∧ (t.box g.mailbox).progress = g.delivered + c.delivered ∧
       t.stepOf tag = some r' ∧ r'.ended = true ∧ r'.uncommitted = false) ∧
  (∀ (q : Seq) (g : GenInfo) (r : StepRec) (c : CommitBody) (s : State), s.seqs.open_ = [q] → q.companion = none → q.state = .generating → q.gen = some g →
     endCondition { g with delivered := g.delivered + c.delivered } (c.tokens.take c.delivered) (q.tokens ++ c.tokens.take c.delivered).length false = none →
     ∃ q', (s.headGenerate q g r c).findSeq q.motif q.id = some q' ∧ q'.tokens = q.tokens ++ c.tokens.take c.delivered ∧ q'.state = .generating ∧
       q'.gen = some { g with delivered := g.delivered + c.delivered } ∧
       ((s.headGenerate q g r c).box g.mailbox).records = (s.box g.mailbox).records + c.delivered ∧
       ((s.headGenerate q g r c).box g.mailbox).progress = g.delivered + c.delivered ∧
       ((∀ e ∈ s.boxes.box, namesSeq e.2 r.motif r.seq = true → e.1 = g.mailbox) →
         ∀ k, k ≠ g.mailbox → (s.headGenerate q g r c).box k = s.box k) ∧ (s.headGenerate q g r c).mem = s.mem) ∧
  (∀ (g : GenInfo) (toks : List Nat) (n : Nat) (closing : Bool),
     let stop : Prop := ∃ t ∈ toks, t ∈ g.stops
     (stop → ∃ t, t ∈ toks ∧ t ∈ g.stops ∧ endCondition g toks n closing = some (0x0001, t)) ∧
     (¬ stop → g.count ≤ g.delivered → endCondition g toks n closing = some (0x0000, 0)) ∧
     (¬ stop → g.delivered < g.count → 16777216 ≤ n → endCondition g toks n closing = some (0x0301, 0)) ∧
     (¬ stop → g.delivered < g.count → n < 16777216 → (g.cancelled = true ∨ closing = true) → endCondition g toks n closing = some (0x0002, 0)) ∧
     (¬ stop → g.delivered < g.count → n < 16777216 → g.cancelled = false → closing = false → endCondition g toks n closing = none))

/-- A recall raised here for a step in flight takes the next attempt as its lineage, and leaves a replay of its first layer to come, or of the layer of a
replay that waits already where that lies before; with cause 5 the step ends without a replay instead. The array that a picot check or an audit names
is flagged for the step. Where no later step of the sequence is in flight, one recall is counted. Of a step that is over, or not known, nothing is
recalled. A recall above the floor of its first layer raises the floor here, discards what it supersedes, and leaves a replay to come where this
module owns that layer; one without replay ends the step's replays from that layer on. A repeated one changes nothing, nor does one of a step that is
over. A replay whose superseded vectors have all reported begins: the input rows of the layer take the new lineage and it is counted; until then it
waits. -/
def Obligations.RecallsAndReplays : Prop :=
  (∀ (tag : StepTag) (cause layer array : Nat) (s : State),
     (∀ r, s.stepOf tag = some r → r.ended = false → r.noReplay = none →
       attemptOf r.maxLineage < 8 → 1 ≤ cause → cause ≤ 6 →
       let named : Prop := (cause = 1 ∨ cause = 2) ∧ array < 32768
       ∃ t r' a, exec (.recallRaise tag cause layer array) s = .next t ∧ t.stepOf tag = some r' ∧ (named → a = array) ∧ (¬ named → a = 0xFFFF) ∧
         r'.floors = (layer, lineageOf (attemptOf r.maxLineage + 1) layer) :: r.floors ∧
         r'.maxLineage = lineMax r.maxLineage (lineageOf (attemptOf r.maxLineage + 1) layer) ∧
         r'.flagged = (if a = 0xFFFF then r.flagged else (layer, array) :: r.flagged) ∧
         (cause ≠ 5 → r'.noReplay = none ∧ r'.replay = some ((match r.replay with | some x => min x.1 layer | none => layer),
           lineageOf (attemptOf r.maxLineage + 1) layer, { cause := cause, noReplay := false, layer := layer, array := a, origin := s.machineId, time := s.now })) ∧
         (cause = 5 → r'.replay = r.replay ∧ r'.noReplay = some layer) ∧
         (s.dependents tag = [] → t.counters = { s.counters with recalls := min (s.counters.recalls + 1) (2 ^ 64 - 1) }) ∧ t.mem = s.mem ∧ t.boxes = s.boxes ∧
         t.seqs = { s.seqs with open_ := t.seqs.open_ } ∧
         t.seqs.open_.map (fun q => { q with nextTree := none }) = s.seqs.open_.map (fun q => { q with nextTree := none })) ∧
     ((∀ r, s.stepOf tag = some r → r.ended = true) → exec (.recallRaise tag cause layer array) s = .next s)) ∧
  (∀ (tag : StepTag) (b : RecallBody) (s : State),
     (∀ r, s.stepOf tag = some r → r.ended = false → s.stepOver tag = false → s.steps.live.any (s.bygone tag) = false → b.cause ≠ 4 →
       let mine : Prop := b.noReplay = false ∧ ∃ p l, s.prickT tag = some p ∧ layerOf p b.layer = some l ∧ s.owns l = true
       ((floorAt r b.layer).toNat < tag.lineage.toNat →
         ∃ t r', exec (.recall tag b) s = .next t ∧ t.stepOf tag = some r' ∧ r'.floors = (b.layer, tag.lineage) :: r.floors ∧
           r'.maxLineage = lineMax r.maxLineage tag.lineage ∧ (mine → r'.replay = some (b.layer, tag.lineage, b)) ∧ (¬ mine → r'.replay = r.replay) ∧
           (b.noReplay = true → r.noReplay = none → r'.noReplay = some b.layer) ∧ (b.noReplay = false → r'.noReplay = r.noReplay) ∧
           (∀ x ∈ t.data.rotated, stale tag b.layer tag.lineage x.tag = false) ∧ t.mem = s.mem ∧ t.boxes = s.boxes ∧
            (s.dependents tag = [] → t.counters = s.counters)) ∧
       (b.noReplay = false → tag.lineage.toNat ≤ (floorAt r b.layer).toNat → tag.lineage.toNat ≤ r.maxLineage.toNat →
         exec (.recall tag b) s = .next s)) ∧
     (s.stepOver tag = true → b.noReplay = false → exec (.recall tag b) s = .next s)) ∧
  (∀ (tag : StepTag) (f : Nat) (body : RecallBody) (lam : Lineage) (r : StepRec) (s : State), s.stepOf tag = some r → r.ended = false → s.start.safe = false →
     r.replay = some (f, lam, body) →
     (s.replayWaits r f lam = false →
       ∃ t r', exec (.replay tag) s = .next t ∧ t.stepOf tag = some r' ∧ r'.replay = none ∧ r'.replays = r.replays + 1 ∧
         r'.inputs = r.inputs.map (fun x => if x.layer = f then { x with lineage := lam } else x) ∧ r'.outputs = r.outputs ∧
         t.counters = { s.counters with replays := min (s.counters.replays + 1) (2 ^ 64 - 1) } ∧ t.mem.window = s.mem.window ∧ t.boxes = s.boxes ∧
         t.seqs = s.seqs) ∧
     (s.replayWaits r f lam = true → exec (.replay tag) s = .next s))

/-! ### Loading, copying and standing in (R17 to R20, R70, R261, R270 to R300) -/

/-- A load command first reads the header of its region over the load queue pair; without one, or when a read fails, it completes with `ST_FETCH_FAIL`.
Once header and tables have passed every check it sends its `LOAD_ORDER` to every other module of the placement, and the motif is loading, or builds
its second copy. A failure gives the generation in force as its result. -/
def Obligations.LoadsBeginOnTheHead : Prop :=
  ∀ (m : Nat) (c : Cmd) (s : State), Ready s m 0x20 c.entry → (s.box m).cur = some c → c.begun = false → c.continued = false →
    (∀ b ∈ s.boxes.box, activeCmd b.2 0x30 = false) →
    let replace := bit (field c.entry 9 1) 0
    let motif := entryMotif c.entry
    let run := if replace then exec (.motifLoadReplace m) s else exec (.motifLoad m) s
    let inForce := if (s.motif motif).state = 2 ∨ (s.motif motif).state = 3 then (s.motif motif).gen.toNat else 0
    let fails (st d : Nat) : Prop := ∃ t, run = .next t ∧ Completes s t m st (d % 2 ^ 32) (s.box m).progress inForce ∧
      t = { s with boxes := t.boxes, fabric := t.fabric }
    (c.xfer = .none → field c.entry 0x20 8 < 64 → fails 0x0105 0) ∧
    (c.xfer = .none → 64 ≤ field c.entry 0x20 8 → s.loadQp = none → fails 0x0400 s.machineId) ∧
    (∀ qp, c.xfer = .none → 64 ≤ field c.entry 0x20 8 → s.loadQp = some qp → s.qpOk qp = true → s.readRoom qp = true → ∃ t, run = .next t ∧
      t.port.out = s.frame (.readRequest qp 0 m (bufAddr c.entry) (bufRkey c.entry) 64) :: s.port.out ∧
      (t.box m).cur = some { c with xfer := .reading, want := 64, via := qp } ∧ t = { s with boxes := t.boxes, port := { s.port with out := t.port.out } }) ∧
    (c.xfer = .readFailed → fails 0x0400 s.machineId) ∧
    (c.xfer = .readDone → 64 < c.data.length → headerAlien c.data = none → s.holder (field c.data 0x20 2) = s.machineId →
      s.loadRefusal m motif c.order replace = none → (replace = true → (s.motif motif).copy = 0 → (s.motif motif).prick2 = none) →
      tablesBad s c.data (field c.entry 0x20 8) = none → s.tablesRefusal motif replace (readPricking c.data) (layerTableAt c.data) = none →
      (∀ x ∈ (readPricking c.data).shards, s.lostForGood x.machineId = false) →
      ∃ t, run = .next t ∧
        (∀ x ∈ (readPricking c.data).shards, s.holder x.machineId ≠ s.machineId →
          s.msg (s.holder x.machineId) none (.loadOrder { motif := motif, replace := replace, regionAddr := bufAddr c.entry, rkey := bufRkey c.entry,
                                                              regionLen := field c.entry 0x20 8, entry := x }) ∈ t.fabric.out) ∧
        ((∀ x ∈ (readPricking c.data).shards, s.holder x.machineId ≠ s.machineId) →
          (t.box m).target = ((readPricking c.data).shards.map (·.tiles)).sum ∧ begunOn t m = true ∧ t.port = s.port ∧
          (replace = false → t.motif motif = loadingEntry (s.motif motif) false (readPricking c.data) ∧ (t.motif motif).state = 1) ∧
          (replace = true → (t.motif motif).copy = 1 ∧ (t.motif motif).copyGen = (s.motif motif).gen + 1 ∧
            (t.motif motif).prick2 = some (readPricking c.data) ∧ (t.motif motif).prick = (s.motif motif).prick)))

/-- A module of the placement takes its order by reading the region's header over its load queue pair, or reports at once that it has no room. What a
transfer answers goes to the command or the load it was for. The head turns a report of progress into a LOAD record and progress, and counts the
copies that a group spare reports whole in its group mirror; the first failure completes the command, and the motif table entry is as it was. -/
def Obligations.LoadOrdersTransfersAndReports : Prop :=
  (∀ (source : Nat) (o : LoadOrder) (s : State), o.motif < 16 →
    (s.holder o.entry.machineId ≠ s.machineId → exec (.loadOrder source o) s = .next s) ∧
    (∀ qp, s.holder o.entry.machineId = s.machineId → s.loadOf o.motif = none → s.doneLoad o.motif = none → o.replace = false →
      s.shortOfRoom { LoadState.begin o.motif o.replace (s.motif o.motif) with source := source, order := some o } o.entry = false → s.loadQp = some qp →
      s.readRoom qp = true →
      ∃ t, exec (.loadOrder source o) s = .next t ∧ t.port.out = s.frame (.readRequest qp 1 o.motif o.regionAddr o.rkey 64) :: s.port.out ∧
        t.loadOf o.motif = some { LoadState.begin o.motif o.replace (s.motif o.motif) with source := source, order := some o, want := 64, via := qp } ∧
        t = { s with port := { s.port with out := t.port.out }, motifs := { s.motifs with loads := t.motifs.loads } }) ∧
    (s.holder o.entry.machineId = s.machineId → s.loadOf o.motif = none → s.doneLoad o.motif = none → o.replace = false →
      s.shortOfRoom { LoadState.begin o.motif o.replace (s.motif o.motif) with source := source, order := some o } o.entry = true →
      ∃ t, exec (.loadOrder source o) s = .next t ∧ t.loadOf o.motif = none ∧ t.motif o.motif = s.motif o.motif ∧
        t.fabric.out = s.msg source none (.loadReport { machine := s.machineId, motif := o.motif, status := 0x0304, detail := s.machineId, programmed := 0,
                                                        reprogrammed := 0, remapped := 0, shardArrays := o.entry.tiles }) :: s.fabric.out ∧
        t = { s with motifs := t.motifs, fabric := t.fabric })) ∧
  (∀ (qp owner : Nat) (data : Bytes) (c : Cmd) (s : State), (s.box owner).cur = some c → c.via = qp → s.qpOk qp = true →
    (∀ l ∈ s.motifs.loads, l.waits = none) →
    let answered (t : State) : Prop := t.port = { s.port with qps := s.port.qps.map fun q => if q.qpn = qp then { q with retries := 0 } else q }
    (c.xfer = .reading →
      (data.length = c.want → ∃ t, exec (.rdmaResponse qp 0 owner true data) s = .next t ∧ (t.box owner).cur = some { c with xfer := .readDone, data := data } ∧
        (∀ k, k ≠ owner → t.box k = s.box k) ∧ answered t ∧ t = { s with boxes := t.boxes, port := t.port }) ∧
      (∃ t, exec (.rdmaResponse qp 0 owner false data) s = .next t ∧ (t.box owner).cur = some { c with xfer := .readFailed } ∧
        (∀ k, k ≠ owner → t.box k = s.box k) ∧ t = { s with boxes := t.boxes })) ∧
    (c.xfer = .writing → Ready s owner (entryOp c.entry) c.entry →
      (∃ t, exec (.rdmaResponse qp 0 owner true data) s = .next t ∧ Completes s t owner 0 0 (s.box owner).target 0 ∧ answered t ∧
        t = { s with boxes := t.boxes, fabric := t.fabric, port := t.port }) ∧
      (∃ t, exec (.rdmaResponse qp 0 owner false data) s = .next t ∧ Completes s t owner 0x0402 0 (s.box owner).progress (s.resultOf c.entry) ∧
        t = { s with boxes := t.boxes, fabric := t.fabric }))) ∧
  (∀ (qp kind motif : Nat) (data : Bytes) (l : LoadState) (s : State), kind ≠ 0 → s.loadOf motif = some l → l.want ≠ 0 → l.fetchDone = false →
    l.via = qp → s.qpOk qp = true → (∀ x ∈ s.motifs.loads, x.waits = none) → l.phase = 2 → data.length = l.want →
    ∃ t, exec (.rdmaResponse qp kind motif true data) s = .next t ∧ t.loadOf motif = some { l with fetched := data, fetchDone := true, want := 0 } ∧
      t.port = { s.port with qps := s.port.qps.map fun q => if q.qpn = qp then { q with retries := 0 } else q } ∧
      t = { s with motifs := { s.motifs with loads := t.motifs.loads }, port := t.port }) ∧
  (∀ (r : LoadReport) (l : LoadState) (p : Pricking) (m : Nat) (s : State), s.loadOf r.motif = some l → l.mailbox = some m → l.prick = some p →
    (∃ x ∈ p.shards, s.holder x.machineId = r.machine) →
    let spare : Prop := r.programmed = 0 ∧ r.machine ∈ p.groups.filterMap s.spareOf
    (r.status = 0 → spare → ∃ t, exec (.loadReport r) s = .next t ∧
      t.loadOf r.motif = some { l with mirrored := Tab.put 0 l.mirrored r.machine (Tab.get 0 l.mirrored r.machine + 1) } ∧
      t = { s with motifs := { s.motifs with loads := t.motifs.loads } }) ∧
    (r.status = 0 → ¬ spare → ∃ t, exec (.loadReport r) s = .next t ∧ (t.box m).progress = ((Tab.put 0 l.progress r.machine r.programmed).map (·.2)).sum ∧
      ((s.box m).records - (s.box m).readCount < 16383 → (t.box m).records = (s.box m).records + 1 ∧
        Tab.get (zeros 64) (t.box m).results (1 + (s.box m).records % 16383) = recordBytes m (s.box m) 3 s.now
          [(0x18, 4, r.machine), (0x1C, 4, r.programmed), (0x20, 4, r.shardArrays), (0x24, 4, r.reprogrammed), (0x28, 4, r.remapped)]) ∧
      (∀ k, k ≠ m → t.box k = s.box k) ∧ t = { s with boxes := t.boxes, motifs := { s.motifs with loads := t.motifs.loads } }) ∧
    (∀ e, r.status ≠ 0 → Ready s m 0x20 e → entryMotif e = r.motif → l.replace = false → (∀ b ∈ s.boxes.box, activeCmd b.2 0x30 = false) → ∃ t, exec (.loadReport r) s = .next t ∧
      Completes s t m r.status (r.detail % 2 ^ 32) (s.box m).progress (if l.prior.state = 2 ∨ l.prior.state = 3 then l.prior.gen.toNat else 0) ∧ t.loadOf r.motif = none ∧ t.motif r.motif = l.prior))

/-- A shard whose digest differs is reported and released; one that is right and fits becomes the mirror, and its arrays are taken OUT to be programmed. A
round's arrays that verify hold their tiles and begin confirmation; one that fails is retired. A spare, once programmed, takes the index over. A load
that is complete makes the motif resident with the next generation and completes the head's command. -/
def Obligations.ShardsAreVerifiedProgrammedAndCompleted : Prop :=
  (∀ (motif : Nat) (l : LoadState) (s : State), motif < 16 → s.loadOf motif = some l →
    (∀ o p, l.order = some o → l.prick = some p → l.fetchDone = true → l.shard = none → l.replace = false →
      let sh := readShard l.fetched o.entry.tiles
      (shake256 32 l.fetched ≠ o.entry.digest → l.mailbox = none → ∃ t, exec (.shardFetchEnd motif) s = .next t ∧ t.loadOf motif = none ∧
        t.motif motif = l.prior ∧ t.fabric.out = s.msg l.source none (.loadReport (l.report s.machineId 0x0401 s.machineId)) :: s.fabric.out) ∧
      (shake256 32 l.fetched = o.entry.digest → tilesBad p l.fetched o.entry.tiles = none → l.stale = false → (∀ x ∈ sh.tiles, s.unowned x.named = true) →
        ∃ t, exec (.shardFetchEnd motif) s = .next t ∧ (t.motif motif).mirror = some sh ∧ (t.motif motif).mirrorState = 2 ∧
          (t.motif motif).shardDigest = o.entry.digest ∧ (t.motif motif).tiles = o.entry.tiles ∧ (∀ a ∈ shardArrays sh, (t.array a).service = .out) ∧
          t.mem = s.mem)) ∧
    (∀ failed multi, s.motifs.loads.find? (fun x => decide (x.motif = motif ∧ x.toProgram ≠ [])) = some l →
      (∃ t l', exec (.programmingRoundEnd motif failed multi) s = .next t ∧ t.loadOf motif = some l' ∧ l'.toProgram = l.toProgram.drop 4096 ∧ t.mem = s.mem) ∧
      (∀ a p, l.toProgram = [a] → s.workOf a = some p → l.stale = false → ∃ t l', exec (.programmingRoundEnd motif failed multi) s = .next t ∧ t.loadOf motif = some l' ∧
        (failedRow failed a = none → (t.array a).service = .out ∧ (t.phys p).cells = s.tileFor a ∧ (t.phys p).calState = 2 ∧ (t.phys p).programmed = s.now ∧
          l'.programmed = min l.tiles (l.programmed + 1)) ∧
        ((failedRow failed a).isSome = true → t.workOf a = none ∧ t.physOf a = p ∧ p ∈ t.arrays.retired ∧ (t.array a).service = .out ∧ (t.array a).spare = s.chooseSpare p ∧
          l'.programmed = min l.tiles (l.programmed + if (s.chooseSpare p).isSome then 0 else 1)))) ∧
    (s.loadWhole l = true → l.replace = false →
      (l.mailbox = none → ∃ t, exec (.loadComplete motif) s = .next t ∧
        t.motif motif = { s.motif motif with state := 2, gen := (s.motif motif).gen + 1, loadTime := s.now } ∧ t.loadOf motif = none ∧
        (∀ k, k ≠ motif → t.motif k = s.motif k) ∧ t = { s with motifs := t.motifs }) ∧
      (∀ m e, l.mailbox = some m → Ready s m 0x20 e → ∃ t, exec (.loadComplete motif) s = .next t ∧
        t.motif motif = { s.motif motif with state := 2, gen := (s.motif motif).gen + 1, loadTime := s.now } ∧ t.loadOf motif = none ∧
        Completes s t m 0 0 (s.box m).target ((s.motif motif).gen + 1).toNat ∧ t = { s with motifs := t.motifs, boxes := t.boxes, fabric := t.fabric }))) ∧
  (∀ (array p : Nat) (s : State), array < 32768 → (s.array array).spare = some p → s.awaitsMirror array = false →
    ∃ t, exec (.spareProgrammed array) s = .next t ∧ t.physOf array = p ∧ (t.phys p).calState = 2 ∧ (t.phys p).cells = s.tileFor array ∧
      (t.array array).spare = none ∧ (t.array array).service = .out ∧ t.mem = s.mem)

/-- A switch brings the second copy into force on the head and then, by its message, on every module of the placement; the old copy is released when no
step of its generation is in flight. A drop is refused while a sequence uses the motif, else it leaves nothing of it but its generation. A query
delivers the motif's record. -/
def Obligations.MotifsAreSwitchedDroppedAndQueried : Prop :=
  (∀ (m : Nat) (e : Bytes) (p : Pricking) (s : State), Ready s m 0x21 e → begunOn s m = false → s.prickNow (entryMotif e) = some p →
    (s.motif (entryMotif e)).state ≠ 0 → s.headOf p = true →
    let old := s.motif (entryMotif e)
    (old.copy ≠ 2 → old.copy ≠ 3 → ∃ t, exec (.motifSwitch m) s = .next t ∧ Completes s t m 0x0206 0 (s.box m).progress
        (if old.state = 2 ∨ old.state = 3 then old.gen.toNat else 0) ∧
      t = { s with boxes := t.boxes, fabric := t.fabric }) ∧
    (∀ p2, (old.copy = 2 ∨ old.copy = 3) → old.prick2 = some p2 → (∀ x ∈ p.shards, s.lostForGood x.machineId = false) → ∃ t, exec (.motifSwitch m) s = .next t ∧
      t.motif (entryMotif e) = switchedEntry old s.machineId s.now ∧ (t.box m).target = s.stepsOfGen (entryMotif e) old.gen.toNat ∧ begunOn t m = true ∧
      (∀ x ∈ p2.shards, s.holder (movedNow s.take.moves x.machineId) ≠ s.machineId →
        s.msg (s.holder (movedNow s.take.moves x.machineId)) none (.switch (entryMotif e) (old.gen + 1).toNat) ∈ t.fabric.out) ∧
      (∀ k, k ≠ entryMotif e → t.motif k = s.motif k) ∧ (∀ k, k ≠ m → t.box k = s.box k) ∧ t = { s with boxes := t.boxes, motifs := t.motifs, fabric := t.fabric })) ∧
  (∀ (motif gen : Nat) (s : State), motif < 16 →
    let e := s.motif motif
    ((e.copy = 2 ∨ e.copy = 3) → gen = (e.gen + 1).toNat → ∃ t, exec (.switch motif gen) s = .next t ∧ t.motif motif = switchedEntry e s.machineId s.now ∧
      (∀ k, k ≠ motif → t.motif k = s.motif k) ∧ t = { s with motifs := t.motifs }) ∧
    (gen ≠ (e.gen + 1).toNat → exec (.switch motif gen) s = .next s) ∧
    (∀ p, s.role ≠ 1 → e.state = 2 → e.copy = 0 → e.prick2.isSome = true → e.prick = some p → s.headOf p = true →
      (s.stepsOfGen motif e.gen2 ≠ 0 → exec (.oldCopyRelease motif) s = .next s) ∧
      (s.stepsOfGen motif e.gen2 = 0 → (∀ sh, e.mirror = some sh → ∀ x ∈ sh.tiles, x.array ≠ noArray) → ∃ t, exec (.oldCopyRelease motif) s = .next t ∧
        (t.motif motif).prick2 = none ∧ (t.motif motif).mirror2 = none ∧ (t.motif motif).prick = e.prick ∧ (t.motif motif).mirror = e.mirror ∧
        (∀ sh, e.mirror2 = some sh → ∀ a ∈ shardArrays sh, (t.array a).service = if (s.workOf a).isSome then .free else .out) ∧
        (∀ w b, s.motifs.switches.find? (fun w => w.motif = motif) = some w → Ready s w.mailbox 0x21 b →
          Completes s t w.mailbox 0 0 (s.box w.mailbox).target e.gen.toNat)))) ∧
  (∀ (m : Nat) (e : Bytes) (s : State), Ready s m 0x22 e →
    let motif := entryMotif e
    let fails (st d : Nat) : Prop := ∃ t, exec (.motifDrop m) s = .next t ∧ Completes s t m st (d % 2 ^ 32) (s.box m).progress 0 ∧
      t = { s with boxes := t.boxes, fabric := t.fabric }
    ((s.motif motif).state ≠ 2 → s.loadConsumed motif = true ∨ (s.motif motif).state = 1 → fails 0x0205 0) ∧
    ((s.motif motif).state ≠ 1 → s.loadConsumed motif = false → s.prickNow motif = none → fails 0x0204 0) ∧
    (∀ p, s.prickNow motif = some p → (s.motif motif).state ≠ 0 → (s.motif motif).state ≠ 1 → (s.motif motif).state = 2 ∨ s.loadConsumed motif = false →
      (s.headOf p = false → fails 0x0200 (s.holder p.head)) ∧
      (s.headOf p = true → ((s.motif motif).copy = 1 ∨ s.replaceConsumed m motif = true ∨ 0 < s.usersOf motif) → fails 0x0205 (s.usersOf motif)) ∧
      (s.headOf p = true → (s.motif motif).copy ≠ 1 → s.replaceConsumed m motif = false → s.usersOf motif = 0 → (s.motif motif).oldCopy = false →
        ∃ t, exec (.motifDrop m) s = .next t ∧ t.motif motif = { MotifEntry.init with gen := (s.motif motif).gen } ∧ (∀ k, k ≠ motif → t.motif k = s.motif k) ∧
          (t.box m).done = true ∧ (t.box m).status = 0 ∧ (t.box m).progress = (p.shards.map (·.tiles)).sum ∧ (t.box m).cur = none ∧
          t = { s with boxes := t.boxes, arrays := t.arrays, motifs := t.motifs, fabric := t.fabric }))) ∧
  (∀ (m : Nat) (c : Cmd) (s : State), Ready s m 0x23 c.entry → (s.box m).cur = some c → c.continued = false → c.xfer = .none →
    let data := if entryMotif c.entry = 0xFF then (List.range 16).flatMap (motifRecord s) else motifRecord s (entryMotif c.entry)
    (bufLen c.entry < data.length → ∃ t, exec (.motifQuery m) s = .next t ∧ Completes s t m 0x0403 (data.length % 2 ^ 32) (s.box m).progress 0 ∧
      t = { s with boxes := t.boxes, fabric := t.fabric }) ∧
    (data.length ≤ bufLen c.entry → s.qpOk c.qp = true → ∃ t, exec (.motifQuery m) s = .next t ∧
      t.port.out = s.frame (.writeRequest c.qp m (bufAddr c.entry) (bufRkey c.entry) data) :: s.port.out ∧
      (t.box m).cur = some { c with xfer := .writing, via := c.qp } ∧ t = { s with boxes := t.boxes, port := { s.port with out := t.port.out } }))

/-- A shard being restored arrives in order; the last byte of it makes it the mirror where its digest is right, and drops what arrived where it is not,
and awaits it again. A READY motif without a mirror asks its source, or is STALE where there is none. A page copy whose checksum is right fills the
frame of its page and nothing else of memory; one whose checksum is wrong is noted, to be fetched again. -/
def Obligations.MirrorsAndPagesAreCopied : Prop :=
  (∀ (source motif gen : Nat) (data : Bytes) (x : ShardEntry) (s : State), motif < 16 → (s.motif motif).mirrorState = 1 →
    ((s.motif motif).prickFor gen).isSome = true → s.copyTarget source motif gen = some x →
    let rest := (s.motif motif).arriving.filter fun a => a.1 ≠ source
    (data.length < x.length → ∃ t, exec (.shardCopy source motif gen 0 data) s = .next t ∧ t.motif motif = { s.motif motif with arriving := (source, x.length, data) :: rest } ∧
      (∀ k, k ≠ motif → t.motif k = s.motif k) ∧ t = { s with motifs := t.motifs }) ∧
    (data.length = x.length → shake256 32 data = x.digest → ∃ t, exec (.shardCopy source motif gen 0 data) s = .next t ∧
      (gen = (s.motif motif).gen.toNat → (t.motif motif).mirror = some (s.locateShard motif (readShard data x.tiles))) ∧
      (gen < 65536 → (t.motif motif).gen.toNat = gen) ∧ (t.motif motif).mirrorState = 2 ∧ (t.motif motif).restoring = false ∧
      (∀ k, k ≠ motif → t.motif k = s.motif k) ∧ t = { s with motifs := t.motifs, arrays := t.arrays }) ∧
    (data.length = x.length → shake256 32 data ≠ x.digest → ∃ t, exec (.shardCopy source motif gen 0 data) s = .next t ∧
      t.motif motif = { s.motif motif with arriving := (source, x.length, []) :: rest } ∧ t = { s with motifs := t.motifs })) ∧
  (∀ (motif : Nat) (s : State), motif < 16 → (s.motif motif).state = 2 → (s.motif motif).mirror = none → (s.motif motif).mirrorState ≠ 2 →
    (∃ t, exec (.mirrorRestore motif none) s = .next t ∧ t.motif motif = { s.motif motif with state := 3, mirrorState := 0, arriving := [] } ∧
      (∀ k, k ≠ motif → t.motif k = s.motif k) ∧ t = { s with motifs := t.motifs }) ∧
    (∀ src, s.role ≠ 1 → s.spareId = some src → ∃ t, exec (.mirrorRestore motif (some src)) s = .next t ∧
      t.motif motif = { s.motif motif with mirrorState := 1, arriving := [], restoring := true } ∧ (∀ k, k ≠ motif → t.motif k = s.motif k) ∧
      t = { s with motifs := t.motifs })) ∧
  (∀ (source seq motif layer i : Nat) (home : Bool) (data : Bytes) (checksum : BitVec 32) (s : State), motif < 16 →
    let key := (source, motif, seq, layer, i, home)
    let fetched : State := { s with take := { s.take with refetch := s.take.refetch.filter (· ≠ key) } }
    (crc32c data ≠ checksum → exec (.pageCopy source seq motif layer i home data checksum) s =
      .next { s with take := { s.take with refetch := key :: s.take.refetch.filter (· ≠ key) } }) ∧
    (∀ p r rank u f, crc32c data = checksum → s.role ≠ 1 → (s.motif motif).prick = some p → layerOf p layer = some r → s.copyRank (s.motif motif) r = some rank →
      data.length ≤ pagePayload (kvBits p) r.kvHeads → pagePayload (kvBits p) r.kvHeads ≤ frameSize p → (2 ≤ r.k ∨ home = true) →
      fetched.copyFrame { step := 0, seq := seq, motif := motif, gen := (s.motif motif).gen.toNat, layer := layer, lineage := 0,
                          companion := s.copyCompanion motif seq } p r.k (pageAt r.k rank i home) home = some (u, f) →
      ∃ t, exec (.pageCopy source seq motif layer i home data checksum) s = .next t ∧ (∀ j, j < data.length → memByte t.mem (f + j) = data.getD j 0) ∧
        (∀ a, ¬ (f ≤ a ∧ a < f + data.length) → memByte t.mem a = memByte u.mem a) ∧ t = { u with mem := t.mem }))

/-- A spare keeps its head's consumptions and read counts. A ROLE tells the vacated module first that it is served from the group mirror, then from
arrays, and every other module who holds the roles. `TAKEOVER` and `HANDBACK` begin, wait and complete as their rules say. -/
def Obligations.RolesMoveAndReturn : Prop :=
  (∀ (h : HeadSync) (s : State), h.mailbox < 64 →
    (s.role ≠ 1 → exec (.headSync h) s = .next s) ∧
    (s.role = 1 → h.kind = 0 → h.tokens = [] → ∃ t, exec (.headSync h) s = .next t ∧ (t.box h.mailbox).consume = (h.entryIndex + 1) % 4096 ∧
      (t.box h.mailbox).status = 0x0003 ∧ (t.box h.mailbox).done = false ∧ (t.box h.mailbox).firstRecord = h.firstRecord ∧ t.synced h.mailbox = some h ∧
      (∀ k, k ≠ h.mailbox → t.box k = s.box k) ∧ t = { s with boxes := t.boxes, take := t.take, seqs := t.seqs }) ∧
    (s.role = 1 → 2 ≤ h.kind → ∃ t, exec (.headSync h) s = .next t ∧
      t.box h.mailbox = { s.box h.mailbox with
        records := (t.box h.mailbox).records, readCount := keepCount (s.box h.mailbox).readCount (t.box h.mailbox).records h.readCount } ∧
      ((s.box h.mailbox).opcode = 0x0020 → (s.box h.mailbox).done = false → (t.box h.mailbox).records = max (s.box h.mailbox).records h.readCount) ∧
      ((s.box h.mailbox).opcode ≠ 0x0020 ∨ (s.box h.mailbox).done = true → (t.box h.mailbox).records = (s.box h.mailbox).records) ∧
      (∀ k, k ≠ h.mailbox → t.box k = s.box k) ∧ t = { s with boxes := t.boxes })) ∧
  (∀ (r : RoleMsg) (s : State),
    (r.machine = s.machineId → r.holder ≠ s.machineId → s.take.mailbox = none →
      (s.take.vacatedTo = some r.holder → exec (.role r) s = .next { s with take := { s.take with progress := 2 } }) ∧
      (s.take.vacatedTo ≠ some r.holder → (∀ b ∈ s.boxes.box, ∀ c, b.2.cur = some c → isSeqOp (entryOp c.entry) = false) → ∃ t, exec (.role r) s = .next t ∧ t.take.vacatedTo = some r.holder ∧ t.take.progress = 1 ∧
        t = { s with take := t.take })) ∧
    (r.machine ≠ s.machineId → r.holder ≠ r.machine → ¬ (s.role = 1 ∧ s.take.spareServes = some r.machine) → ¬ (s.role = 1 ∧ r.holder = s.machineId) →
      groupOf r.machine ≠ groupOf s.machineId →
      r.machine ∉ s.fabric.missing → r.reason ≠ roleReason 1 → ∃ t, exec (.role r) s = .next t ∧ movedNow t.take.moves r.machine = r.holder ∧
        (∀ k, k ≠ r.machine → movedNow t.take.moves k = movedNow s.take.moves k) ∧ t = { s with take := { s.take with moves := t.take.moves } }) ∧
    (r.machine ≠ s.machineId → r.holder ≠ r.machine → ¬ (s.role = 1 ∧ s.take.spareServes = some r.machine) → ¬ (s.role = 1 ∧ r.holder = s.machineId) →
      r.machine ∈ s.fabric.missing ∨ r.reason = roleReason 1 → s.holder r.machine ≠ r.holder → ∃ t, exec (.role r) s = .next t ∧ t.holder r.machine = r.holder ∧ t.mem = s.mem)) ∧
  (∀ (peer : Nat) (s : State),
    (s.role ≠ 1 ∨ peer ∉ s.fabric.missing ∨ s.take.spareServes ≠ none ∨ s.take.spareOut = true → exec (.unplannedTakeover peer) s = .next s) ∧
    (s.role = 1 → peer ∈ s.fabric.missing → peer ∈ s.groupPeers → s.take.spareServes = none → s.take.spareOut = false → s.start.powerGood = true →
      s.start.safe = false → s.inFlight = [] → ∃ t, exec (.unplannedTakeover peer) s = .next t ∧ t.take.spareServes = some peer ∧ t.holder peer = s.machineId ∧
        t.mem = s.mem)) ∧
  (∀ (m : Nat) (e : Bytes) (s : State), Ready s m 0x70 e →
    (begunOn s m = false → s.role = 1 → ∃ t, exec (.takeover m) s = .next t ∧ Completes s t m 0 0 2 0 ∧ (t.box m).target = 2 ∧
      t.take.spareOut = true ∧ t.time.withdrawn = true) ∧
    (begunOn s m = false → s.role ≠ 1 → s.take.vacatedTo = none → s.take.mailbox = none → s.spareReady = false → ∃ t, exec (.takeover m) s = .next t ∧
      Completes s t m 0x0505 0 (s.box m).progress 0 ∧ t = { s with boxes := t.boxes, fabric := t.fabric }) ∧
    (begunOn s m = false → s.role ≠ 1 → s.take.vacatedTo = none → s.take.mailbox = none → s.spareReady = true → ∃ t, exec (.takeover m) s = .next t ∧
      t.take.mailbox = some m ∧ t.take.progress = 0 ∧ (t.box m).target = 2 ∧ begunOn t m = true ∧ t.time.withdrawn = true ∧ t.mem = s.mem ∧ t.seqs = s.seqs) ∧
    (begunOn s m = true → s.take.progress = 2 → s.inFlight = [] → ∃ t, exec (.takeover m) s = .next t ∧ Completes s t m 0 0 2 0 ∧ t.take.mailbox = none)) ∧
  (∀ (m : Nat) (e : Bytes) (s : State), Ready s m 0x71 e → s.take.spareOut = false →
    (begunOn s m = false → s.take.vacatedTo = none → s.start.safe = false → ∃ t, exec (.handback m) s = .next t ∧ Completes s t m 0 0 2 0 ∧
      (t.box m).target = 2 ∧ t = { s with boxes := t.boxes, fabric := t.fabric }) ∧
    (begunOn s m = false → s.role ≠ 1 → s.take.vacatedTo ≠ none → s.take.backBox = none → ∃ t, exec (.handback m) s = .next t ∧ t.take.backBox = some m ∧
      (t.box m).target = 2 ∧ begunOn t m = true ∧ t = { s with boxes := t.boxes, take := t.take }) ∧
    (∀ holder, begunOn s m = true → (s.box m).progress = 0 → s.mirrorsPresent = true → s.start.safe = false → s.take.vacatedTo = some holder →
      (s.arraysRight = true → ∃ t r, exec (.handback m) s = .next t ∧ (t.box m).progress = 1 ∧ (t.box m).cur = (s.box m).cur ∧
        t.fabric.out = s.msg holder none (.role r) :: s.fabric.out ∧ r.machine = s.machineId ∧ r.holder = s.machineId ∧
        t = { s with boxes := t.boxes, fabric := t.fabric, arrays := t.arrays }) ∧
      (s.arraysRight = false → (∃ l ∈ s.motifs.loads, l.toProgram ≠ []) → exec (.handback m) s = .next s)))

/-- Every 10 µs a heartbeat goes to each group peer; one received is noted with its time and ends a declaration as missing; a peer from which nothing has
come for 30 µs is declared missing; with no command that needs it, nothing else changes. A message of an undefined type is recorded and has no other
effect. -/
def Obligations.HeartbeatsTellALoss : Prop :=
  (∀ s : State, (s.bridesRun = false → exec .heartbeatSend s = .next s) ∧
    (s.bridesRun = true → ∃ t, exec .heartbeatSend s = .next t ∧
      (∀ d ∈ s.groupPeers, s.msg d none (.heartbeat s.now) ∈ t.fabric.out) ∧
      (s.take.syncDue = [] → t.fabric.out = (s.groupPeers.map fun d => s.msg d none (.heartbeat s.now)).reverse ++ s.fabric.out ∧
        (s.take.spareServes = none ∨ s.take.progress ≠ 3 → t = { s with fabric := t.fabric })) ∧
      (s.role = 1 → s.take.spareServes ≠ none → s.take.progress = 3 → s.inFlight = [] → t.take.spareServes = none ∧ t.take.progress = 0 ∧
        ∀ f ∈ t.seqs.frames, f ∈ s.seqs.frames))) ∧
  (∀ (peer time : Nat) (s : State),
    (peer ∉ s.groupPeers → exec (.heartbeat peer time) s = .next s) ∧
    (peer ∈ s.groupPeers → time < 2 ^ 64 → ∃ t, exec (.heartbeat peer time) s = .next t ∧
      t.fabric.heard = (peer, s.now) :: s.fabric.heard.filter (fun h => h.1 ≠ peer) ∧ t.fabric.missing = s.fabric.missing.filter (· ≠ peer) ∧
      (peer ∉ s.fabric.missing → t = { s with fabric := { s.fabric with heard := t.fabric.heard, missing := t.fabric.missing } }))) ∧
  (∀ (peer : Nat) (h : Nat × Nat) (s : State), s.fabric.heard.find? (fun h => h.1 = peer) = some h → peer ∈ s.groupPeers → peer ∉ s.fabric.missing →
    s.noRouteTo peer = false →
    (s.now < h.2 + 30000 → exec (.heartbeatMissing peer) s = .next s) ∧
    (h.2 + 30000 ≤ s.now → ∃ t, exec (.heartbeatMissing peer) s = .next t ∧ t.fabric.missing = insertAsc peer s.fabric.missing ∧
      t.counters = { s.counters with heartbeatsMissed := min (s.counters.heartbeatsMissed + 1) (2 ^ 64 - 1) } ∧ t.log.written = s.log.written + 1 ∧
      (s.seqs.open_ = [] → s.motifs.loads = [] → s.motifs.switches = [] →
        t = { s with fabric := { s.fabric with missing := t.fabric.missing }, counters := t.counters, log := t.log }))) ∧
  (∀ (bride type source : Nat) (s : State), bride < 32 →
    (definedType type = true → exec (.badType bride type source) s = .next s) ∧
    (definedType type = false → ∃ t, exec (.badType bride type source) s = .next t ∧ t = { s with log := t.log } ∧
      ((s.log.recent.all fun r => r.1 != (4, 17, kBride * 2 ^ 24 + bride)) = true → t.log.written = s.log.written + 1)))

/-! ### Calibration, repair and memory (R160 to R191, R365 to R386) -/

/-- A freeze withdraws the background sets and holds for 60 s from the last command, a thaw ends it at once, and one that is not renewed ends by itself. A
host set of a named FREE or OUT array is in force at once, and the command completes when every named array has its set. -/
def Obligations.CalibrationCommands : Prop :=
  (∀ (m : Nat) (e : Bytes) (s : State), Ready s m 0x40 e →
    (field e 8 1 = 1 → ∃ t, exec (.calFreeze m) s = .next t ∧ Completes s t m 0 0 (s.box m).target 0 ∧
      t = { s with boxes := t.boxes, fabric := t.fabric,
                   arrays := { s.arrays with phys := withdraw s.arrays.phys, freezeUntil := some (s.now + 60000000000) } }) ∧
    (field e 8 1 = 0 → ∃ t, exec (.calThaw m) s = .next t ∧ Completes s t m 0 0 (s.box m).target 0 ∧
      t = { s with boxes := t.boxes, fabric := t.fabric, arrays := { s.arrays with freezeUntil := none } })) ∧
  (∀ (u : Nat) (s : State), s.arrays.freezeUntil = some u →
    (s.now < u → exec .freezeEnd s = .next s) ∧
    (u ≤ s.now → ∃ t, exec .freezeEnd s = .next t ∧ t = { s with arrays := { s.arrays with freezeUntil := none }, log := t.log })) ∧
  (∀ (m a ph : Nat) (e : Bytes) (s : State), Ready s m 0x41 e → begunOn s m = false → namedArrays e = [a] → s.physOf a = ph →
    ((s.array a).service = .free ∨ (s.array a).service = .out) → (s.array a).hostSet = none →
    let j := judgeHalf s ph (loadHalf s a)
    ∃ t, exec (.calCommit m) s = .next t ∧ Completes s t m 0 0 1 0 ∧ (t.phys ph).hostResult = j.1 ∧ (t.phys ph).coef = j.2 ∧
      (t.phys ph).epoch = (s.phys ph).epoch + 1 ∧ (t.phys ph).commitTime = s.now ∧
      (j.1 = 1 → (t.phys ph).calState = 2 ∧ (t.phys ph).needed = 4) ∧ (j.1 = 2 → (t.phys ph).calState = 1 ∧ j.2 = CoefSet.default) ∧
      (j.1 = 3 → (t.phys ph).calState = (s.phys ph).calState ∧ j.2 = (s.phys ph).coef) ∧
      (∀ p, p ≠ ph → t.phys p = s.phys p) ∧ t = { s with boxes := t.boxes, arrays := t.arrays, log := t.log, fabric := t.fabric })

/-- An ended window of a tracking array moves its trims one step, in a shadow set, where background calibration may stage one; a READY set comes into
force at a batch boundary with the next epoch. Warm-up follows its schedule and a confirmation needs its windows in band. -/
def Obligations.CalibrationWindows : Prop :=
  ∀ (phys : Nat) (s : State), phys < 33280 →
    let p := s.phys phys
    (s.start.safe = false → p.calState = 3 → (endedColumns p.stats ≠ [] ∨ 4194304 ≤ histTotal p.stats) →
      let rs := (endedColumns p.stats).flatMap (columnResids s phys) ++ (if 4194304 ≤ histTotal p.stats then tapResids s phys else [])
      ∃ t, exec (.calServiceWindowEnd phys) s = .next t ∧ (t.phys phys).coef = p.coef ∧ (t.phys phys).epoch = p.epoch ∧ (t.phys phys).calState = 3 ∧
        (rs.any (·.out) = false → (t.phys phys).shadow = p.shadow ∧ (t.phys phys).inBand = min (p.inBand + 1) (2 ^ 32 - 1)) ∧
        (rs.any (·.out) = true → (t.phys phys).inBand = 0) ∧
        (rs.any (·.out) = true → s.mayStage phys = true → (t.phys phys).shadow = some (correctSet 1 (p.shadow.getD p.coef) rs)) ∧
        (s.mayStage phys = false → (t.phys phys).shadow = p.shadow) ∧ (∀ q, q ≠ phys → t.phys q = s.phys q) ∧
        t = { s with arrays := t.arrays, log := t.log }) ∧
    (p.calState = 3 → s.physInUse phys = true →
      (∀ c, c < 576 → p.colStart c + 250000000 ≤ s.now → exec (.windowTopUp phys) s = .next (s.setPhys phys { p with topUp := true })) ∧
      ((∀ c, c < 576 → s.now < p.colStart c + 250000000) → exec (.windowTopUp phys) s = .next s)) ∧
    (∀ c, p.shadow = some c →
      (s.batchBoundary phys = false → exec (.shadowCommit phys) s = .next s) ∧
      (p.calState = 3 → p.shadowHost = false → s.arrays.freezeUntil ≠ none → exec (.shadowCommit phys) s = .next s) ∧
      (s.batchBoundary phys = true → (p.calState ≠ 3 ∨ p.shadowHost = true ∨ s.arrays.freezeUntil = none) → ∃ t, exec (.shadowCommit phys) s = .next t ∧
        (t.phys phys).coef = c ∧ (t.phys phys).epoch = p.epoch + 1 ∧ (t.phys phys).commitTime = s.now ∧ (t.phys phys).shadow = none ∧
        (t.phys phys).vectors = 0 ∧ (t.phys phys).auditRms = 0xFFFF ∧ (∀ q, q ≠ phys → t.phys q = s.phys q) ∧ t = { s with arrays := t.arrays })) ∧
    (s.start.safe = false → p.calState = 1 → 262144 ≤ p.stats.vectors →
      let rs := warmResids s phys
      let streak := if rs.any (·.out) then 0 else p.streak + 1
      (p.windows + 1 < 90 → ∃ t, exec (.warmupWindowEnd phys) s = .next t ∧ (t.phys phys).windows = p.windows + 1 ∧ (t.phys phys).streak = streak ∧
        (t.phys phys).calState = 1 ∧ (t.phys phys).coef = p.coef ∧
        (rs.any (·.out) = true → (t.phys phys).shadow = some (correctSet (if p.windows + 1 ≤ 24 then 8 else 1) (p.shadow.getD p.coef) rs)) ∧
        (∀ q, q ≠ phys → t.phys q = s.phys q) ∧ t = { s with arrays := t.arrays }) ∧
      (90 ≤ p.windows + 1 → 4 ≤ streak → (∀ a, s.indexOf phys = some a → (s.array a).hostSet = none) → ∃ t, exec (.warmupWindowEnd phys) s = .next t ∧ (t.phys phys).calState = 3) ∧
      (256 ≤ p.windows + 1 → streak < 4 → ∃ t, exec (.warmupWindowEnd phys) s = .next t ∧ (t.phys phys).calState = 0)) ∧
    (s.start.safe = false → p.calState = 2 → 262144 ≤ p.stats.vectors →
      let rs := warmResids s phys
      (rs.any (·.out) = true → ∃ t, exec (.confirmWindowEnd phys) s = .next t ∧ (t.phys phys).calState = 1 ∧ (t.phys phys).windows = 24 ∧
        (t.phys phys).coef = p.coef ∧ t = { s with arrays := t.arrays }) ∧
      (rs.any (·.out) = false → p.needed ≤ p.streak + 1 → (∀ a, s.indexOf phys = some a → (s.array a).hostSet = none) → ∃ t, exec (.confirmWindowEnd phys) s = .next t ∧ (t.phys phys).calState = 3 ∧ (t.phys phys).coef = p.coef) ∧
      (rs.any (·.out) = false → p.streak + 1 < p.needed → ∃ t, exec (.confirmWindowEnd phys) s = .next t ∧ (t.phys phys).calState = 2 ∧
        (t.phys phys).streak = p.streak + 1 ∧ (t.phys phys).coef = p.coef ∧ t = { s with arrays := t.arrays }))

/-- A due array whose turn it is drains while it serves, and once drained is refreshed: its drifted rows are written anew, and it is OUT and in
confirmation. A margin run counts and notes the hot run. A margin window opens on its island, or is tried again 10 s later, and ends 10 ms after it
began. -/
def Obligations.RefreshAndMargin : Prop :=
  (∀ (a p : Nat) (d : Nat × Nat) (cells : List CellReading) (r : MarginResult) (s : State), a < 32768 → (s.array a).due = some d → s.workOf a = some p →
    s.start.safe = false → s.marginRoom = true → s.refreshable a = true → s.turnOf (d.1, d.2, a) = true → (s.phys p).calState = 3 →
    ((s.array a).outs ≠ [] → (s.array a).service = .serving → ∃ t, exec (.refresh a cells r) s = .next t ∧ (t.array a).service = .draining ∧
      (t.array a).outForService = true ∧ (t.array a).outs = (s.array a).outs ∧ (∀ b, b ≠ a → t.array b = s.array b) ∧ (∀ q, t.phys q = s.phys q) ∧
      t = { s with arrays := t.arrays }) ∧
    ((s.array a).outs = [] → ∃ t, exec (.refresh a cells r) s = .next t ∧ (t.array a).service = .out ∧ (t.array a).due = none ∧ (t.array a).refreshing = true ∧
      t.counters.marginRuns = min (s.counters.marginRuns + 1) (2 ^ 64 - 1) ∧ ((s.array a).hostSet = none → (t.phys p).calState = 2 ∧ (t.phys p).needed = 2 ∧
        (t.phys p).epoch = (s.phys p).epoch + 1) ∧
      (∀ h, (s.phys p).cells = some h → ∀ c ∈ (t.phys p).levels, cellDrifted h.w3 c = false) ∧
      (∀ q, q ≠ p → t.phys q = s.phys q) ∧ t = { s with arrays := t.arrays, counters := t.counters, log := t.log })) ∧
  (∀ (a p : Nat) (r : MarginResult) (s : State), a < 32768 →
    (s.hot = false → exec (.standaloneMarginRun a r) s = .next s) ∧
    (s.marginRoom = false → exec (.standaloneMarginRun a r) s = .next s) ∧
    (s.start.safe = false → s.marginRoom = true → s.hot = true → s.runDue a = true → (s.array a).outForService = true → (s.array a).outs = [] →
      (s.array a).hostSet = none → s.workOf a = some p → r.pass = true →
      ∃ t, exec (.standaloneMarginRun a r) s = .next t ∧ (t.phys p).lastHot = some s.now ∧ (t.phys p).vectors = (s.phys p).vectors + 2048 ∧
        t.arrays.dutyUsed = s.arrays.dutyUsed + 2048 * 16 ∧ t.arrays.macs = s.arrays.macs + 2048 * 1024 * 512 ∧
        (t.array a).outForService = false ∧ ((t.array a).service = .serving ∨ (t.array a).service = .free) ∧
        t.counters = { s.counters with marginRuns := min (s.counters.marginRuns + 1) (2 ^ 64 - 1) } ∧
        (∀ q, q ≠ p → t.phys q = s.phys q) ∧ t = { s with arrays := t.arrays, counters := t.counters })) ∧
  (∀ (i : Nat) (r : MarginResult) (s : State), i < 252 →
    (s.bobbinRuns = true → s.start.safe = false → s.windowNow = some i → (∀ k, k < 252 → (s.island k).state ≠ 1) →
      (s.windowBarred i = false → ∃ t, exec (.marginWindow i) s = .next t ∧ t.island i = { s.island i with state := 1, forced := false } ∧
        t.islands.opened = s.now ∧ t.islands.due = s.now + 10000000000 ∧ (∀ k, k ≠ i → t.island k = s.island k) ∧
        (∀ e, e ∈ t.attn.pipes ↔ e ∈ s.attn.pipes ∧ e.1 + 192 ≠ i) ∧ t = { s with islands := t.islands, attn := { s.attn with pipes := t.attn.pipes } }) ∧
      (s.windowBarred i = true → exec (.marginWindow i) s = .next { s with islands := { s.islands with retry := if (s.island i).forced then s.now + 10000000000 else s.islands.retry, due := if s.islands.due ≤ s.now then s.now + 10000000000 else s.islands.due } })) ∧
    ((s.island i).state = 1 → s.islands.opened + 10000000 ≤ s.now →
      ∃ t, exec (.marginWindowEnd i r) s = .next t ∧ (t.island i).state = 0 ∧
        (r.pass = true → (t.island i).retire = (s.island i).retire ∧ t.counters.marginFailures = s.counters.marginFailures ∧ t.log = s.log) ∧
        (r.pass = false → t.counters.marginFailures = min (s.counters.marginFailures + 1) (2 ^ 64 - 1)) ∧
        (r.pass = false → r.nominalPass = false → (s.island i).retire = none → (t.island i).retire = some 2) ∧
        t.counters.marginRuns = min (s.counters.marginRuns + 1) (2 ^ 64 - 1) ∧ (∀ k, k ≠ i → t.island k = s.island k) ∧
        t = { s with islands := t.islands, counters := t.counters, log := t.log }) ∧
    (s.now < s.islands.opened + 10000000 → exec (.marginWindowEnd i r) s = .next s))

/-- An array that meets a condition drains, then its index has no working array until the chosen spare is programmed, and the record is written whatever
was written before; an island is retired for good; a kind of unit with too few left is degraded once. -/
def Obligations.RetirementOfUnits : Prop :=
  (∀ (a p reason : Nat) (s : State), a < 32768 →
    ((s.array a).retire ≠ some reason → exec (.arrayRetire a reason) s = .next s) ∧
    ((s.array a).retire = some reason → (s.array a).outs ≠ [] → (s.array a).service = .serving → ∃ t, exec (.arrayRetire a reason) s = .next t ∧
      t.array a = { s.array a with service := .draining } ∧ (∀ b, b ≠ a → t.array b = s.array b) ∧ t = { s with arrays := t.arrays }) ∧
    ((s.array a).retire = some reason → (s.array a).outs = [] → s.workOf a = some p → ∃ t, exec (.arrayRetire a reason) s = .next t ∧
      t.workOf a = none ∧ t.physOf a = p ∧ t.arrays.retired = p :: s.arrays.retired ∧ (t.array a).service = .out ∧ (t.array a).spare = s.chooseSpare p ∧
      (t.array a).onTambour = (s.chooseSpare p).isNone ∧ (t.array a).retire = none ∧ (∀ b, b ≠ a → t.array b = s.array b ∧ t.physOf b = s.physOf b) ∧
      t.log.written = s.log.written + 1 ∧ t = { s with arrays := t.arrays, log := t.log })) ∧
  (∀ (i reason : Nat) (s : State), i < 252 →
    ((s.island i).retire ≠ some reason ∨ (s.island i).state = 2 → exec (.islandRetire i reason) s = .next s) ∧
    ((s.island i).retire = some reason → (s.island i).state ≠ 2 → ∃ t, exec (.islandRetire i reason) s = .next t ∧ t.island i = { s.island i with state := 2, retire := none, forced := false } ∧
      (∀ k, k ≠ i → t.island k = s.island k) ∧ t.log.written = s.log.written + 1 ∧ (∀ e, e ∈ t.attn.pipes ↔ e ∈ s.attn.pipes ∧ e.1 + 192 ≠ i) ∧
      t = { s with islands := t.islands, attn := { s.attn with pipes := t.attn.pipes }, log := t.log })) ∧
  (∀ (kind : Nat) (s : State),
    ((s.degradedLeft kind).1 = false ∨ kind ∈ s.islands.degraded → exec (.degraded kind) s = .next s) ∧
    ((s.degradedLeft kind).1 = true → kind ∉ s.islands.degraded → (s.spareReady = false ∨ s.role ≠ 0) → ∃ t, exec (.degraded kind) s = .next t ∧
      t.islands = { s.islands with degraded := kind :: s.islands.degraded } ∧ t.log.written = s.log.written + 1 ∧ t = { s with islands := t.islands, log := t.log }))

/-- An audit in which every array, node and chain end agrees counts and leaves the list; one not started in 1 ms is dropped; a duplicate audit whose two
results are equal only counts, and one that differs marks the unit that the third outvotes. -/
def Obligations.AuditsAreJudged : Prop :=
  (∀ (key : ChainKey) (sel : AuditSel) (s : State), s.data.audits.find? (fun a => a.key = key) = some sel →
    (∀ r, s.layerT key.tag = some r → s.auditReady sel = true → s.auditBefore sel = false → s.now ≤ sel.at_ + 1000000 → s.data.tambourWait = [] →
      let tiles := (s.blockTiles key).filter fun x => x.chain = key.chain
      (∀ f ∈ auditArrays r tiles sel, f.disagrees r.gainTap = false ∧ f.faulty r.gainTap = false) → auditNodes sel = [] → auditEnd r tiles sel = [] →
      ∃ t, exec (.arrayAudit key) s = .next t ∧ t.data.audits = s.data.audits.filter (fun a => a.key ≠ key) ∧
        t.counters = { s.counters with audits := min (s.counters.audits + 1) (2 ^ 64 - 1) } ∧
        (∀ a, t.array a = s.array a) ∧ t = { s with data := { s.data with audits := t.data.audits, tambourUse := t.data.tambourUse },
                                                    arrays := t.arrays, counters := t.counters }) ∧
    (sel.at_ + 1000000 ≤ s.now → ∃ t, exec (.auditDropped key) s = .next t ∧ t.data = { s.data with audits := s.data.audits.filter fun a => a.key ≠ key } ∧
      t.counters = { s.counters with auditsDropped := min (s.counters.auditsDropped + 1) (2 ^ 64 - 1) } ∧ t = { s with data := t.data, counters := t.counters }) ∧
    (s.now < sel.at_ + 1000000 → exec (.auditDropped key) s = .next s)) ∧
  (∀ (tag : StepTag) (island : Nat) (r0 r1 r2 : Bytes) (s : State), island < 240 → s.data.unitAudits.any (fun a => a.names tag island) = false →
    exec (.duplicateAudit tag island r0 r1 r2) s = .next s) ∧
  (∀ (tag : StepTag) (island peer third : Nat) (more : List Nat) (r0 r1 r2 : Bytes) (s : State), island < 240 → (s.island island).state = 0 →
    s.data.unitAudits.any (fun a => a.names tag island) = true → s.peersOf island = peer :: third :: more → s.unitBusy peer = false →
    let left := { s.data with unitAudits := s.data.unitAudits.filter fun a => !a.names tag island }
    (r0 = r1 → exec (.duplicateAudit tag island r0 r1 r2) s =
      .next (({ s with data := left } : State).count fun c => { c with dupAudits := min (c.dupAudits + 1) (2 ^ 64 - 1) })) ∧
    (r0 ≠ r1 → s.stepCommitted tag = true →
      ∃ t, exec (.duplicateAudit tag island r0 r1 r2) s = .next t ∧ t.log.written = s.log.written + 1 ∧
        t.counters = { s.counters with dupAudits := min (s.counters.dupAudits + 1) (2 ^ 64 - 1), dupFaults := min (s.counters.dupFaults + 1) (2 ^ 64 - 1) } ∧
        (∀ u, (r1 = r2 ∧ u = island) ∨ (r0 = r2 ∧ u = peer) → (t.island u).forced = true ∧ (t.island u).outvotes = min ((s.island u).outvotes + 1) 65535 ∧
          (t.island u).lastOutvote = some s.now ∧ ∀ k, k ≠ u → t.island k = s.island k) ∧
        t = { s with islands := t.islands, counters := t.counters, log := t.log, data := left }))

/-- A scrub pass counts; a word that can be corrected is counted and one that cannot is flagged and recorded; a region with such a word takes a reserve
region at the same address while there is one; a flagged block that is rebuilt holds its source's bytes, once they fit their checksum, and is flagged
no more; bytes that do not fit leave it to the next source. -/
def Obligations.MemoryIsCaredFor : Prop :=
  (∀ (corrected : List (Nat × Nat)) (s : State), (∀ r ∈ corrected, r.1 < 72) → s.now < s.mem.scrubbed + 21600000000000 →
    exec (.scrubPass corrected) s = .next s) ∧
  (∀ (corrected : List (Nat × Nat)) (s : State), (∀ r ∈ corrected, r.1 < 72) → s.mem.scrubbed + 21600000000000 ≤ s.now →
    ∃ t, exec (.scrubPass corrected) s = .next t ∧ t.counters.scrubPasses = min (s.counters.scrubPasses + 1) (2 ^ 64 - 1) ∧
      t.mem = { s.mem with scrubbed := s.now, worn := t.mem.worn, seenCorrected := t.mem.seenCorrected } ∧ t = { s with mem := t.mem, counters := t.counters }) ∧
  (∀ (stack addr reader : Nat) (word : CodeWord) (tag : Option StepTag) (s : State), stack < 8 → addr < Config.memorySize → addr % 64 = 0 → stackOf addr = stack →
    word.symbols.length = 68 → reader ≤ 3 →
    (∀ d, eccRead addr word.symbols word.crc = some (d, 0) → exec (.uncorrectable kStack stack addr word reader tag) s = .next s) ∧
    (∀ d n, eccRead addr word.symbols word.crc = some (d, n + 1) → addr / 64 ∉ s.mem.flagged → exec (.uncorrectable kStack stack addr word reader tag) s =
      .next (({ s with mem := memWrite s.mem addr d } : State).count fun c => { c with memCorrected := min (c.memCorrected + 1) (2 ^ 64 - 1) })) ∧
    (eccRead addr word.symbols word.crc = none → reader ≠ 0 ∨ tag = none → ∃ t, exec (.uncorrectable kStack stack addr word reader tag) s = .next t ∧
      (addr / 64 ∈ s.mem.flagged → t.mem = s.mem) ∧
      (addr / 64 ∉ s.mem.flagged → t.mem = { s.mem with
        flagged := insertAsc (addr / 64) s.mem.flagged, settled := s.mem.settled.filter (fun b => b ≠ addr / 64), tried := t.mem.tried }) ∧
      t.counters = { s.counters with memUncorrectable := min (s.counters.memUncorrectable + 1) (2 ^ 64 - 1) } ∧
      t = { s with mem := t.mem, counters := t.counters, log := t.log })) ∧
  (∀ (stack region : Nat) (s : State), stack < 8 → region < 33554432 →
    (badOf s.mem stack region = [] → (stack, region) ∉ s.mem.worn → exec (.regionRetired stack region) s = .next s) ∧
    (badOf s.mem stack region ≠ [] ∨ (stack, region) ∈ s.mem.worn →
      (reserveLeft s.mem stack ≠ 0 → ∃ t, exec (.regionRetired stack region) s = .next t ∧ t.mem.retired = (stack, region) :: s.mem.retired ∧
        t.mem.window = s.mem.window ∧ t.mem.flagged = s.mem.flagged ∧ badOf t.mem stack region = [] ∧ (stack, region) ∉ t.mem.worn ∧
        t = { s with mem := t.mem, log := t.log }) ∧
      (reserveLeft s.mem stack = 0 → ∃ t, exec (.regionRetired stack region) s = .next t ∧ badOf t.mem stack region = [] ∧
        t = { s with mem := { s.mem with settled := t.mem.settled }, log := t.log }))) ∧
  (∀ (stack addr row : Nat) (d : Rebuild) (motif array : Option Nat) (s : State), stack < 8 → addr < Config.memorySize → addr % 64 = 0 → stackOf addr = stack →
    (addr / 64 ∉ s.mem.flagged ∨ d.source ≠ triedOf s.mem (addr / 64) → exec (.rebuilt stack addr row d motif array) s = .next s) ∧
    (addr / 64 ∈ s.mem.flagged → d.source = triedOf s.mem (addr / 64) → d.source < sourcesOf row → (row ≠ 2 ∨ d.source = 0) →
      (d.data.length = 64 → crc32c d.data = d.checksum → s.take.unsent = [] → ∃ t, exec (.rebuilt stack addr row d motif array) s = .next t ∧
        (∀ i, i < 64 → memByte t.mem (addr + i) = d.data.getD i 0) ∧ (∀ b, ¬ (addr ≤ b ∧ b < addr + 64) → memByte t.mem b = memByte s.mem b) ∧
        (∀ b, b ∈ t.mem.flagged ↔ b ≠ addr / 64 ∧ b ∈ s.mem.flagged) ∧ t.mem.retired = s.mem.retired ∧ t = { s with mem := t.mem, log := t.log }) ∧
      (crc32c d.data ≠ d.checksum → ∃ t, exec (.rebuilt stack addr row d motif array) s = .next t ∧ triedOf t.mem (addr / 64) = d.source + 1 ∧
        t = { s with mem := { s.mem with tried := t.mem.tried }, motifs := t.motifs })))

/-! ### Brides and routes (R301 to R336) -/

/-- A clean flit in sequence is accepted, any other message flit asks for the expected number again; a NAK starts the replay from the number it names; too
many replays, a lost lock or lanes without a good half take the bride DOWN, and its route switch is then due. -/
def Obligations.BridesCarryFlits : Prop :=
  ∀ (b : Nat) (s : State), b < 32 →
    let x := s.bride b
    let others (t : State) : Prop := ∀ k, k ≠ b → t.bride k = s.bride k
    let down (t : State) : Prop := (t.bride b).state = 7 ∧ (t.bride b).downs = min (x.downs + 1) (2 ^ 32 - 1) ∧ (t.bride b).stateTime = s.now ∧
      (t.bride b).lanes = 0 ∧ (t.bride b).switchDue = true ∧ others t ∧ t = { s with fabric := { s.fabric with bride := t.fabric.bride } }
    (∀ data fixed bad, s.bridesRun = true → (x.state = 3 ∨ x.state = 5 ∨ x.state = 6) →
      (flitClean data = true → bad = 0 → (x.fecSecond = false ∨ x.fecFailed = false) → field data 4 1 = 1 → field data 0 2 = x.expect.toNat → ∃ t, exec (.flit b data fixed bad) s = .next t ∧
        (t.bride b).expect = x.expect + 1 ∧ (t.bride b).flits = min (x.flits + 1) (2 ^ 64 - 1) ∧ others t ∧
        (x.unsent = 0 → t.fabric.flits = .idle b (laneShares x.txHalf (idleBytes x.sendSeq x.expect)) :: s.fabric.flits) ∧
        (bit (field data 5 1) 0 = true → bit (field data 5 1) 1 = true → field data 8 4 ≠ 0 → (t.bride b).lastWhole = field data 8 4) ∧
        t = { s with fabric := t.fabric }) ∧
      (flitClean data = false ∨ bad ≠ 0 ∨ (x.fecSecond = true ∧ x.fecFailed = true) ∨ (field data 4 1 = 1 ∧ field data 0 2 ≠ x.expect.toNat) → ∃ t sent, exec (.flit b data fixed bad) s = .next t ∧
        (t.bride b).expect = x.expect ∧ (t.bride b).lastWhole = x.lastWhole ∧ 
        t.fabric.flits = .nak b (laneShares x.txHalf (nakBytes (t.bride b).sendSeq x.expect 0 0)) :: (sent ++ s.fabric.flits) ∧
        (x.unsent = 0 → sent = []) ∧ others t ∧
        t = { s with fabric := { s.fabric with bride := t.fabric.bride, flits := t.fabric.flits } })) ∧
    (∀ expected, (x.state = 3 ∨ x.state = 5 ∨ x.state = 6) → x.unsent = 0 →
      let left := (x.sendSeq - expected).toNat
      ∃ t, exec (.nak b 0 0 expected) s = .next t ∧ others t ∧
        t = { s with fabric := { s.fabric with bride := t.fabric.bride, flits := t.fabric.flits } } ∧
        (left = 0 → (t.bride b).unacked = 0 ∧ (t.bride b).replays = x.replays ∧ t.fabric.flits = s.fabric.flits) ∧
        (left ≠ 0 → left ≤ x.unacked → (t.bride b).unacked = left ∧ (t.bride b).replays = min (x.replays + left) (2 ^ 32 - 1) ∧ (t.bride b).lastNak = expected ∧
          t.fabric.flits = ((t.bride b).emit b left left).reverse ++ s.fabric.flits ∧
          (t.bride b).sameReplays = (if x.sameReplays ≠ 0 ∧ x.lastNak = expected then x.sameReplays + 1 else 1)) ∧
        (x.unacked < left → (t.bride b).unacked = x.unacked ∧ (t.bride b).sendSeq = x.sendSeq ∧ (t.bride b).queued = x.queued ∧
          (t.bride b).replays = x.replays ∧ t.fabric.flits = s.fabric.flits)) ∧
    (x.state = 5 → ∀ expected, ∃ t, exec (.nak b 0x0F 0xD6 expected) s = .next t ∧ (t.bride b).state = 6 ∧ (t.bride b).txHalf = 0x0F) ∧
    ((x.state = 3 ∨ x.state = 5 ∨ x.state = 6) →
      ((16 ≤ x.sameReplays ∨ 64 < (x.recentReplays.filter fun t => decide (s.now < t + 1000000)).length) → ∃ t, exec (.brideDown b) s = .next t ∧ down t) ∧
      (x.sameReplays < 16 → (x.recentReplays.filter fun t => decide (s.now < t + 1000000)).length ≤ 64 → exec (.brideDown b) s = .next s)) ∧
    (∀ l : LaneFault, l.lane < 8 →
      (l.lost = false → 10000 * l.uncorrectable ≤ l.codewords → exec (.laneOut b l) s = .next s) ∧
      (x.carries = true → (l.lost = true ∨ l.codewords < 10000 * l.uncorrectable) →
        let bad := x.laneOut ||| BitVec.ofNat 8 (2 ^ l.lane)
        (bit x.lanes.toNat l.lane = false → exec (.laneOut b l) s = .next (s.setBride b { x with laneOut := bad })) ∧
        (bit x.lanes.toNat l.lane = true → goodHalf bad = none → ∃ t, exec (.laneOut b l) s = .next t ∧ down t) ∧
        (∀ half, bit x.lanes.toNat l.lane = true → goodHalf bad = some half → ∃ t, exec (.laneOut b l) s = .next t ∧
          (t.bride b).lanes = half ∧ (t.bride b).state = 6 ∧ (t.bride b).laneOut = bad ∧
          .nak b (laneShares x.txHalf (nakBytes x.sendSeq x.expect half 0xD6)) ∈ t.fabric.flits))) ∧
    ((x.state = 3 ∨ x.state = 5 ∨ x.state = 6) → ∃ t, exec (.lossOfLock b) s = .next t ∧ down t) ∧
    ((x.state = 2 ∨ x.state = 4) → ∃ t, exec (.lossOfLock b) s = .next t ∧ (t.bride b).state = 7 ∧ (t.bride b).downs = min (x.downs + 1) (2 ^ 32 - 1)) ∧
    ((x.state = 0 ∨ x.state = 1 ∨ x.state = 7) → exec (.lossOfLock b) s = .next s)

/-- A bride that has gone down switches its routes and tells group peers and partner what it received whole; the partner's notice makes this module resend
what came after. Link states, bitmaps of groups and readiness of peers are kept as they come, and a message for another module goes on unchanged. -/
def Obligations.RoutesSwitchAndAreAnnounced : Prop :=
  (∀ (b : Nat) (s : State), b < 32 →
    ((s.bride b).switchDue = false → exec (.routeSwitch b) s = .next s) ∧
    ((s.bride b).switchDue = true → (s.bride b).noticed = none → ∃ t, exec (.routeSwitch b) s = .next t ∧ (t.bride b).switchDue = false ∧
      (t.bride b).noticeWait = some s.now ∧ (t.bride b).msgPart = 0 ∧
      t.fabric.out = ((s.noticeTo b).map fun d => s.msg d none (.linkNotice (s.linkNoticeOf b))).reverse ++ s.fabric.out ∧ t = { s with fabric := t.fabric }) ∧
    ((s.bride b).noticeWait = none → exec (.linkNoticeTimeout b) s = .next s) ∧
    (∀ u, (s.bride b).noticeWait = some u → u + 30000 ≤ s.now → (s.bride b).partnerId ∈ s.groupPeers →
      s.seqs.open_ = [] → s.motifs.loads = [] → s.motifs.switches = [] →
      ∃ t, exec (.linkNoticeTimeout b) s = .next t ∧ (t.bride b).queued = [] ∧ (t.bride b).unacked = 0 ∧ (t.bride b).noticeWait = none ∧
        (s.bride b).partnerId ∈ t.fabric.missing ∧ (∀ p, p ≠ (s.bride b).partnerId → (p ∈ t.fabric.missing ↔ p ∈ s.fabric.missing)) ∧
        t = { s with fabric := t.fabric, counters := t.counters, log := t.log }) ∧
    (∀ msg, (msg.dest = s.machineId → exec (.messageForward b msg) s = .next s) ∧
      (msg.dest ≠ s.machineId → ∃ t, exec (.messageForward b msg) s = .next t ∧ t.fabric.out = msg :: s.fabric.out ∧ t = { s with fabric := t.fabric }))) ∧
  (∀ (n : LinkNotice) (s : State),
    (s.isMember n.source = false ∨ n.source = s.machineId → exec (.linkNotice n) s = .next s) ∧
    (s.isMember n.source = true → n.source ≠ s.machineId → groupOf n.source = groupOf s.machineId → n.partnerId ≠ s.machineId →
      ∃ t, exec (.linkNotice n) s = .next t ∧ t.fabric.peerLinks = noteLink s.fabric.peerLinks n ∧ t.fabric.bride = s.fabric.bride ∧ t.fabric.out = s.fabric.out ∧
        t = { s with fabric := t.fabric }) ∧
    (s.isMember n.source = true → n.source ≠ s.machineId → n.partnerId = s.machineId → n.partnerBride < 32 → (s.bride n.partnerBride).partnerId = n.source →
      (n.state = 0 ∨ n.state = 7) → (s.bride n.partnerBride).noticeWait.isSome = true →
      ∃ t, exec (.linkNotice n) s = .next t ∧ (t.bride n.partnerBride).noticeWait = none ∧
        (∀ q ∈ (s.bride n.partnerBride).queued, laterNumber n.lastWhole q.number = true → q.msg ∈ t.fabric.out) ∧
        t.fabric.out.length = s.fabric.out.length + ((s.bride n.partnerBride).queued.filter fun q => laterNumber n.lastWhole q.number).length)) ∧
  (∀ (g : LinksFrom) (v : Nat) (joined : List Nat) (s : State),
    (g.group = groupOf s.machineId ∨ s.isMember g.source = false → exec (.groupLinks g v joined) s = .next s) ∧
    (g.group < 256 → g.group ≠ groupOf s.machineId → s.isMember g.source = true → s.spareSpent g.group = false → ∃ t, exec (.groupLinks g v joined) s = .next t ∧
      t.fabric.groupLinks = (g.group, joined) :: s.fabric.groupLinks.filter (fun x => x.1 ≠ g.group) ∧
      (groupOf g.source = groupOf s.machineId → t.fabric.out = s.fabric.out) ∧
      (groupOf g.source ≠ groupOf s.machineId → ∀ p ∈ s.groupPeers, s.msg p none (.groupLinks g.group v joined) ∈ t.fabric.out) ∧ t = { s with fabric := t.fabric })) ∧
  (∀ s : State, (s.bridesRun = false → exec .groupLinksSend s = .next s) ∧
    (s.bridesRun = true → ∃ t, exec .groupLinksSend s = .next t ∧ t = { s with fabric := t.fabric } ∧
      ∀ c ∈ s.ownJoined, ∀ l rest, s.linksTo c = l :: rest → l.1 = slotOf s.machineId →
        s.msg l.2.2 none (.groupLinks (groupOf s.machineId) s.cfg.cur.topoVersion s.ownJoined) ∈ t.fabric.out)) ∧
  (∀ (peer v : Nat) (s : State),
    (peer ∉ s.groupPeers → exec (.topoReady peer v) s = .next s) ∧
    (peer ∈ s.groupPeers → ∃ t, exec (.topoReady peer v) s = .next t ∧ t.fabric.topoReady = (peer, v) :: s.fabric.topoReady.filter (fun p => p.1 ≠ peer) ∧
      t = { s with fabric := t.fabric }))

/-- What a bride in training becomes: MISMATCH for a partner that is no member, HOLD for one with another topology, ACTIVE with all lanes both ways.
Retries, classing and the records of HOLD come when they are due. -/
def Obligations.BridesTrainAndAreClassed : Prop :=
  ∀ (b : Nat) (s : State), b < 32 →
    let x := s.bride b
    (∀ data1 data2 rtt lanes rec1 rec2, readTrain data1 = some rec1 → readTrain data2 = some rec2 → s.bridesRun = true → x.state = 2 →
      rec1.serial = rec2.serial → ∃ t r more, exec (.training b data1 data2 rtt lanes) s = .next t ∧ (t.bride b).partnerId = rec2.machineId ∧ (t.bride b).partnerBride = rec2.bride ∧
        (t.bride b).partnerSerial = rec2.serial ∧ (t.bride b).member = s.memberRecord rec2 ∧
        t.fabric.flits = more ++ .training b (trainBytes r) :: .training b (trainBytes (s.trainRec b 0 false lanes)) :: s.fabric.flits ∧ r.echoTime = rec1.sentTime % 2 ^ 32 ∧
        ((t.bride b).rtt = roundTripNs rtt rec2.echoTime % 65536) ∧ (s.memberRecord rec2 = false → (t.bride b).state = 4) ∧
        (s.memberRecord rec2 = true → rec2.topoVersion ≠ s.cfg.cur.topoVersion → (t.bride b).state = 3) ∧
        (s.memberRecord rec2 = true → rec2.topoVersion = s.cfg.cur.topoVersion → lanes = 0xFF → rec2.lanes = 0xFF → (t.bride b).state = 5 ∧ (t.bride b).lanes = 0xFF) ∧
        (s.memberRecord rec2 = true → rec2.topoVersion = s.cfg.cur.topoVersion →
          (trainedLanes lanes = 0 ∨ trainedLanes rec2.lanes = 0) → (t.bride b).state = 7)) ∧
    (∀ data1 data2 rtt lanes, readTrain data2 = none → exec (.training b data1 data2 rtt lanes) s = .next s) ∧
    (∀ locked, s.bridesRun = true → s.mayRetry b = true → s.unusedBride b = false → (Tab.get Light.init s.fabric.light (b / 4)).state = 3 →
      (Tab.get Light.init s.fabric.light (b / 4)).since + 100000000 ≤ s.now →
      ∃ t, exec (.trainingRetry b locked) s = .next t ∧ (t.bride b).state = (if locked then 2 else 1) ∧ (t.bride b).triedAt = s.now) ∧
    (∀ locked, s.mayRetry b = false → exec (.trainingRetry b locked) s = .next s) ∧
    (x.trained = true → ∃ t, exec (.brideClassing b) s = .next t ∧ (t.bride b).report = s.foundCode b ∧ (t.bride b).classed = true ∧
      (t.bride b).lengthReport = s.lengthOff b ∧ (t.bride b).state = x.state ∧ t = { s with fabric := { s.fabric with bride := t.fabric.bride }, log := t.log }) ∧
    (x.state = 3 → x.partnerTopo ≠ s.cfg.cur.topoVersion → x.holdRecord = none →
      (s.now < x.stateTime + 10000000000 → exec (.hold b) s = .next s) ∧
      (x.stateTime + 10000000000 ≤ s.now → ∃ t, exec (.hold b) s = .next t ∧ t.bride b = { x with holdRecord := some s.now } ∧
        t = { s with fabric := { s.fabric with bride := t.fabric.bride }, log := t.log })) ∧
    (x.state = 3 → x.unacked = 0 → x.unsent = 0 → x.reshaping = true → ∃ t, exec (.reshapeDrainEnd b) s = .next t ∧ (t.bride b).state = 7 ∧ (t.bride b).switchDue = true) ∧
    (x.reshaping = false → exec (.reshapeDrainEnd b) s = .next s ∧ exec (.reshapeMissing b) s = .next s) ∧
    (∀ u, x.reshaping = true → s.fabric.reshape = some u → u + 10000000000 ≤ s.now → (x.trained = false ∨ x.stateTime ≤ u) → (s.expected b).isSome = true →
      ∃ t, exec (.reshapeMissing b) s = .next t ∧ (t.bride b).report = 1 ∧ (t.bride b).reshaping = false)

/-- A light-supply input's state is noted; the brides of one that has gone ABSENT or LOW are OFF, and after 100 ms of good light those that are OFF train. -/
def Obligations.LightSupplyInputs : Prop :=
  ∀ (input : Nat) (s : State), input < 9 →
    let old := Tab.get Light.init s.fabric.light input
    (∀ present low, s.start.powerGood = true → 3 ≤ s.start.stage →
      let st := lightState present low
      let dark : BitVec 8 := if present then low else 0xFF
      (st = old.state → dark = old.low → exec (.lightSupplyChange input present low) s = .next s) ∧
      (st ≠ old.state → ∃ t, exec (.lightSupplyChange input present low) s = .next t ∧
        Tab.get Light.init t.fabric.light input = { state := st, low := dark, since := s.now } ∧
        (∀ k, k ≠ input → Tab.get Light.init t.fabric.light k = Tab.get Light.init s.fabric.light k) ∧
        (input = 8 ∨ st = 3 → t = { s with fabric := { s.fabric with light := t.fabric.light }, log := t.log }) ∧
        (input < 8 → st < 2 → ∀ i, i < 4 → (t.bride (4 * input + i)).state = 0))) ∧
    (s.bridesRun = true → input < 8 → old.state = 3 → old.since + 100000000 ≤ s.now → ∃ t, exec (.lightSupplyGood input) s = .next t ∧
      ∀ k, (t.bride k).state = (if k / 4 = input ∧ (s.bride k).state = 0 ∧ s.unusedBride k = false then 2 else (s.bride k).state)) ∧
    (s.now < old.since + 100000000 → exec (.lightSupplyGood input) s = .next s)

/-! ### Time (R348 to R361) -/

/-- Timing flits carry the stamps of the exchange and give offset and delay; the millisecond's correction stays within 10 ppm and counts the milliseconds
within 50 ns; the one step takes the reference's time; more than 1 ms off after it, time slews until it is within 1 µs. -/
def Obligations.TimeIsSteered : Prop :=
  (∀ (b fixed bad : Nat) (data : Bytes) (s : State), b < 32 →
    let x := s.bride b
    let f := readTiming data
    (x.carries = false → exec (.timingFlitSend b) s = .next s ∧ exec (.timingFlit b data (fixed, bad)) s = .next s) ∧
    (x.carries = true →
      exec (.timingFlitSend b) s = .next { s with fabric := { s.fabric with flits := .timing b (laneShares x.txHalf (timingBytes (s.timingOut b) x.sendSeq (x.expect - 1))) :: s.fabric.flits } } ∧
      (flitClean data = true → bad = 0 → (x.fecSecond = false ∨ x.fecFailed = false) → field data 4 1 = 3 → ∃ t, exec (.timingFlit b data (fixed, bad)) s = .next t ∧
        t.stampOf b = some { bride := b, tx := f.tx, rx := s.time.t16 % 2 ^ 64, state := f.state, stratum := f.stratum, refId := f.refId, masterId := f.masterId } ∧
        (∀ k, k ≠ b → t.stampOf k = s.stampOf k ∧ t.bride k = s.bride k) ∧ t = { s with time := t.time, fabric := t.fabric } ∧
        (f.txPrev = 0 → f.rxPrev = 0 → t.time = { s.time with stamps := t.time.stamps }) ∧
        ((x.sendSeq - BitVec.ofNat 16 (field data 2 2 + 1)).toNat ≤ x.unacked → x.unsent = 0 → (t.bride b).unacked = (x.sendSeq - BitVec.ofNat 16 (field data 2 2 + 1)).toNat) ∧
        (¬ (f.txPrev = 0 ∧ f.rxPrev = 0) → s.time.source = some x.partnerId → s.time.groupRef = some f.refId →
          t.time.thetas = s.time.thetas ++ [thetaOf f s.time.t16] ∧ t.time.theta = thetaOf f s.time.t16 ∧ t.time.delay = delayOf f s.time.t16)) ∧
      (flitClean data = false ∨ bad ≠ 0 ∨ field data 4 1 ≠ 3 → ∃ t, exec (.timingFlit b data (fixed, bad)) s = .next t ∧ (t.bride b).unacked = x.unacked ∧
        (t.bride b).fecBad = min (x.fecBad + bad) (2 ^ 32 - 1) ∧ (∀ k, k ≠ b → t.bride k = s.bride k) ∧ t = { s with fabric := { s.fabric with bride := t.fabric.bride } }))) ∧
  (∀ s : State, s.start.powerGood = true → s.time.gateTheta = none →
    ∃ t, exec .phaseCorrection s = .next t ∧ t = { s with time := t.time } ∧ t.time.thetas = [] ∧ t.time.lock = s.time.lock ∧ t.time.t16 = s.time.t16 ∧
      (s.measured = none → t.time.goodMs = 0 ∧ t.time.ppb = (if s.time.lock = 3 ∨ s.follows = false then s.time.ppb else if s.time.rate = 0 then s.discipline else 0)) ∧
      (∀ x, s.measured = some x → t.time.offset = x ∧ -10000 ≤ t.time.ppb ∧ t.time.ppb ≤ 10000 ∧
        (s.time.rate = 0 → s.timeRole ≠ 2 → t.time.ppb = phasePpb x ∧ (0 < x → t.time.ppb ≤ 0) ∧ (x < 0 → 0 ≤ t.time.ppb)) ∧
        t.time.goodMs = (if x.natAbs < 3276800 then s.time.goodMs + 1 else 0))) ∧
  (∀ (reference : Nat) (s : State),
    (s.time.stepped = true ∨ s.time.lock ≠ 2 → exec (.timeStep reference) s = .next s) ∧
    (s.time.stepped = false → s.time.lock = 2 → ∃ t, exec (.timeStep reference) s = .next t ∧ t.now = reference / 65536 % 2 ^ 64 ∧ t.time.stepped = true ∧
      t.boxes = s.boxes ∧ t.mem = { s.mem with scrubbed := t.mem.scrubbed } ∧ t.motifs = s.motifs)) ∧
  (∀ s : State,
    ((s.time.rate = 1 → s.time.offset < 65536000 → exec .slew s = .next { s with time := { s.time with rate := 0 } }) ∧
      (s.time.rate = 1 → 65536000 ≤ s.time.offset → exec .slew s = .next s)) ∧
    ((s.time.rate = 2 → -65536000 < s.time.offset → exec .slew s = .next { s with time := { s.time with rate := 0 } }) ∧
      (s.time.rate = 2 → s.time.offset ≤ -65536000 → exec .slew s = .next s)) ∧
    (s.time.rate = 0 → s.time.stepped = true → 65536000000 < s.time.offset.natAbs → ∃ t, exec .slew s = .next t ∧
      t.time = { s.time with rate := if 0 < s.time.offset then 1 else 2, ppb := 0 } ∧ t = { s with time := t.time, log := t.log }) ∧
    (s.time.rate = 0 → s.time.offset.natAbs ≤ 65536000000 → exec .slew s = .next s)) ∧
  (∀ (source state stratum link master : Nat) (offset delay : Int) (s : State),
    (source ∉ s.groupPeers → exec (.timeOffset source state stratum link master offset delay) s = .next s) ∧
    (source ∈ s.groupPeers → s.timeRole = 1 → s.time.gateLink = some link → link / 16 = slotOf source → state < 4 → stratum < 256 → s.time.master = some master →
      ∃ t, exec (.timeOffset source state stratum link master offset delay) s = .next t ∧
        t.time = { s.time with gateOffset := some offset, theta := offset, delay := delay } ∧ t = { s with time := t.time, fabric := t.fabric })) ∧
  (∀ s : State, (s.time.gateLink = s.gate → exec .gateLinkChange s = .next s) ∧
    (s.time.gateLink ≠ s.gate → exec .gateLinkChange s = .next { s with time := { s.time with gateLink := s.gate, gateTheta := none, gateOffset := none } }))

/-- The election takes the candidacy that no fresh one ranks before; candidacies are sent, kept and dropped after 300 ms. Lock goes from FREE RUN and
HOLDOVER to LOCKING with a source, after 16 good milliseconds to LOCKED, and without a source to HOLDOVER. -/
def Obligations.TimeIsElectedAndLocked : Prop :=
  (∀ (c : Candidacy) (l : List Candidacy), (highest c l = c ∨ highest c l ∈ l) ∧ candidateRank (highest c l) ≤ candidateRank c ∧
    ∀ x ∈ l, candidateRank (highest c l) ≤ candidateRank x) ∧
  (∀ s : State, (s.bridesRun = false ∨ s.cfg.read = false → exec .timeElectSend s = .next s) ∧
    (s.bridesRun = true → s.cfg.read = true → ∃ t, exec .timeElectSend s = .next t ∧ t.time.groupRef = some s.groupCandidate.machineId ∧
      (∀ p ∈ s.groupPeers, s.msg p none (.timeElect 0 s.candidacy) ∈ t.fabric.out) ∧ t = { s with time := t.time, fabric := t.fabric })) ∧
  (∀ (source : Nat) (c : Candidacy) (s : State),
    (source ∉ s.groupPeers ∨ c.machineId ≠ source → exec (.timeElect source 0 c) s = .next s) ∧
    (source ∈ s.groupPeers → c.machineId = source → ∃ t, exec (.timeElect source 0 c) s = .next t ∧
      t.time.groupHeard = hearCandidate s.now c s.time.groupHeard ∧ t.time.groupRef = some t.groupCandidate.machineId ∧
      t = { s with time := t.time, fabric := t.fabric }) ∧
    (s.isMember source = true → c.machineId ≠ s.machineId → groupOf source = groupOf s.machineId → ∃ t, exec (.timeElect source 1 c) s = .next t ∧
      t.time.machineHeard = hearCandidate s.now c s.time.machineHeard ∧ t.fabric.out = s.fabric.out ∧ t = { s with time := t.time, fabric := t.fabric })) ∧
  (∀ (id : Nat) (s : State),
    (expired s.now id s.time.groupHeard = false → exec (.candidateExpiry 0 id) s = .next s) ∧
    (expired s.now id s.time.groupHeard = true → ∃ t, exec (.candidateExpiry 0 id) s = .next t ∧
      t.time.groupHeard = s.time.groupHeard.filter (fun h => h.cand.machineId ≠ id) ∧ t.time.groupRef = some t.groupCandidate.machineId ∧ t = { s with time := t.time }) ∧
    (expired s.now id s.time.machineHeard = true → ∃ t, exec (.candidateExpiry 1 id) s = .next t ∧
      t.time.machineHeard = s.time.machineHeard.filter (fun h => h.cand.machineId ≠ id) ∧ t = { s with time := t.time })) ∧
  (∀ s : State,
    (s.start.safe = true → exec .lockStateChange s = .next s) ∧
    (s.start.powerGood = true → s.cfg.read = true → s.start.safe = false →
      let u := s.elect.pickSource
      ∃ t, exec .lockStateChange s = .next t ∧ t.start = { s.start with refOut := t.start.refOut, ppsOut := t.start.ppsOut } ∧
        (t.start.refOut = true ↔ t.time.lock = 2 ∨ t.time.lock = 3) ∧ (t.start.ppsOut = true → s.start.ppsOut = true) ∧
        (u.timeRole = 2 → t.time.lock = 2) ∧
        (u.timeRole ≠ 2 → (s.time.lock = 0 ∨ s.time.lock = 3) → t.time.lock = if u.follows then 1 else s.time.lock) ∧
        (u.timeRole ≠ 2 → s.time.lock = 1 → u.follows = true → t.time.lock = if 16 ≤ s.time.goodMs then 2 else 1) ∧
        (u.timeRole ≠ 2 → s.time.lock = 2 → u.follows = true → t.time.lock = 2) ∧
        (u.timeRole ≠ 2 → (s.time.lock = 1 ∨ s.time.lock = 2) → u.follows = false → t.time.lock = if s.time.everLocked then 3 else 0) ∧
        t = { s with time := t.time, start := t.start, log := t.log }))

/-- Reference inputs are taken when they are enabled and in range, `PPS_OUT` rises at each whole second in LOCKED and HOLDOVER, and the port's clock
announces, syncs and answers; the announcements of other clocks change nothing. -/
def Obligations.ReferencesAndPtp : Prop :=
  (∀ s : State,
    (s.start.powerGood = true → s.timeRole ≠ 2 → exec .ppsInEdge s = .next { s with time := { s.time with ppsLast := some s.now } }) ∧
    (s.start.powerGood = true → s.timeRole = 2 → s.time.ppsValid = true →
      (s.time.ppsLast = none ∨ s.time.refValid = true →
        exec .ppsInEdge s = .next { s with time := { s.time with ppsLast := some s.now, thetas := [secondError s.time.t16] } }) ∧
      (∀ u, s.time.ppsLast = some u → s.time.refValid = false → exec .ppsInEdge s =
        .next { s with time := { s.time with ppsLast := some s.now, thetas := [secondError s.time.t16], freq := clampI (-10000) 10000 (s.time.freq + (1000000000 - ((s.now : Int) - u))) } })) ∧
    (2 ≤ s.now % 1000000000 → exec .ppsOutEdge s = .next s) ∧
    ((s.time.lock = 2 ∨ s.time.lock = 3) → s.now % 1000000000 < 2 → exec .ppsOutEdge s = .next { s with start := { s.start with ppsOut := true, refOut := true } }) ∧
    (s.time.lock ≠ 2 → s.time.lock ≠ 3 → exec .ppsOutEdge s = .next s)) ∧
  (∀ (a b hz : Nat) (s : State),
    (∃ t, exec (.referenceValidity 0 [a, b] hz) s = .next t ∧ t = { s with time := t.time } ∧ t.time.refValid = s.time.refValid ∧
      (bit s.portCfg.refEnable 0 = false → t.time.ppsValid = false) ∧ (s.time.ppsLast = none → t.time.ppsValid = false) ∧
      (∀ u, bit s.portCfg.refEnable 0 = true → s.time.ppsLast = some u → s.now < u + 1500000000 →
        (s.time.ppsValid = true ∨ (999999000 ≤ a ∧ a ≤ 1000001000 ∧ 999999000 ≤ b ∧ b ≤ 1000001000)) → t.time.ppsValid = true)) ∧
    (∃ t, exec (.referenceValidity 1 [a, b] hz) s = .next t ∧ t = { s with time := t.time } ∧ t.time.ppsValid = s.time.ppsValid ∧
      t.time.refValid = (bit s.portCfg.refEnable 1 && decide (9999900 ≤ hz ∧ hz ≤ 10000100)))) ∧
  (∀ (clock : Nat) (n : DelayReq) (s : State), exec (.announce clock) s = .next s ∧
    (s.port.up = false → exec .ptpAnnounceSend s = .next s ∧ exec .ptpSyncSend s = .next s ∧ exec (.delayReq clock n) s = .next s) ∧
    (s.port.up = true →
      let class_ := if s.time.lock = 2 then 13 else if s.time.lock = 3 then 14 else 248
      exec .ptpAnnounceSend s = .next { s with port := { s.port with
        out := (s.ptpTransports.map fun k => s.frame (.ptpAnnounce (s.ptpHead k) class_ 128 s.portCfg.ptpPriority2 0 false)).reverse ++ s.port.out } } ∧
      exec .ptpSyncSend s = .next { s with port := { s.port with
        out := (s.ptpTransports.flatMap fun k => [s.frame (.ptpSync (s.ptpHead k) s.port.ptpSequence), s.frame (.ptpFollowUp (s.ptpHead k) s.port.ptpSequence s.now)]).reverse ++ s.port.out, ptpSequence := (s.port.ptpSequence + 1) % 65536 } } ∧
      (n.transport ∈ s.ptpTransports → n.domain = s.portCfg.ptpDomain →
        exec (.delayReq clock n) s = .next (s.toHost (.ptpDelayResp (s.ptpHead n.transport) clock n.sequence s.now))) ∧
      (n.domain ≠ s.portCfg.ptpDomain → exec (.delayReq clock n) s = .next s)))

/-! ### Sensors, power, monitors and reports (R393 to R424, R451) -/

/-- A reading is kept, the third missed one or one out of range breaks the sensor, and 10 s without a condition heal it. The thermal level rises one step
after the rise and again every 250 ms, and falls one after 2 s; the governor raises and lowers the power level and keeps the analog share between 40
and 400; a low input limits the budget to 900 W until it is restored. -/
def Obligations.ThermalAndPowerLevels : Prop :=
  (∀ (i : Nat) (s : State), i < 196 →
    (2 ≤ (s.sensor i).missed → (s.sensor i).state = 0 → ∃ t, exec (.sensorReading i none) s = .next t ∧ (t.sensor i).state = 2 ∧
      (t.sensor i).missed = (s.sensor i).missed + 1 ∧ (∀ k, k ≠ i → t.sensor k = s.sensor k) ∧ t = { s with thermal := t.thermal, log := t.log }) ∧
    ((s.sensor i).missed < 2 → exec (.sensorReading i none) s =
      .next (s.setSensor i { s.sensor i with missed := (s.sensor i).missed + 1, healSince := none })) ∧
    (∀ v : Int, ∃ t, exec (.sensorReading i (some v)) s = .next t ∧ (t.sensor i).hist = (s.now, v) :: pruneHist s.now (s.sensor i).hist ∧
      (t.sensor i).missed = 0 ∧ (t.sensor i).overCount = (if tripLimit i < v then (s.sensor i).overCount + 1 else 0) ∧
      ((v < -5120 ∨ 19200 < v) → (s.sensor i).state = 0 → (t.sensor i).state = 2) ∧ ((s.sensor i).state ≠ 0 → (t.sensor i).state = (s.sensor i).state) ∧
      (∀ k, k ≠ i → t.sensor k = s.sensor k) ∧ t.thermal.level = s.thermal.level ∧ t = { s with thermal := t.thermal, log := t.log }) ∧
    (∀ u, (s.sensor i).healSince = some u →
      (s.now < u + 10000000000 → exec (.sensorGood i) s = .next s) ∧
      ((s.sensor i).state ≠ 0 → u + 10000000000 ≤ s.now → ∃ t, exec (.sensorGood i) s = .next t ∧
        t.sensor i = { s.sensor i with state := 0, healSince := none } ∧ (∀ k, k ≠ i → t.sensor k = s.sensor k) ∧ t = { s with thermal := t.thermal, log := t.log }))) ∧
  (∀ s : State,
    (s.thermal.hotSince = none → exec .throttleUp s = .next s) ∧ (s.thermal.coolSince = none → exec .throttleDown s = .next s) ∧
    (∀ u, s.thermal.hotSince = some u →
      (s.now < u → exec .throttleUp s = .next s) ∧
      (u ≤ s.now → ∃ t, exec .throttleUp s = .next t ∧ t.thermal = { s.thermal with level := min 14 (s.thermal.level + 1), hotSince := some (u + 250000000) } ∧
        (14 ≤ s.thermal.level → t.log = s.log) ∧ t = { s with thermal := t.thermal, log := t.log })) ∧
    (∀ u, s.thermal.coolSince = some u →
      (s.thermal.level = 0 ∨ s.now < u + 2000000000 → exec .throttleDown s = .next s) ∧
      (s.thermal.level ≠ 0 → u + 2000000000 ≤ s.now → ∃ t, exec .throttleDown s = .next t ∧
        t.thermal = { s.thermal with level := s.thermal.level - 1, coolSince := some (u + 2000000000) } ∧ t = { s with thermal := t.thermal, log := t.log }))) ∧
  (∀ (mv ma power : Nat) (s : State),
    let macs := s.arrays.macs
    let b := if s.thermal.inputLow then 900 else s.cfg.cur.budget
    let up : Prop := (b - 40) * 1000000 < power - macs / 500000
    let low := if power < (b - 100) * 1000000 then s.thermal.lowMs + 1 else 0
    ∃ t, exec (.governorInterval mv ma power) s = .next t ∧ t.cfg.budget = b ∧ t.thermal.energyNj = s.thermal.energyNj + power ∧
      t.thermal.powerW = power / 1000000 ∧ t.thermal.inputMv = mv ∧ t.thermal.inputMa = ma ∧ 40 ≤ t.thermal.shareGov ∧ t.thermal.shareGov ≤ 400 ∧ t.thermal.level = s.thermal.level ∧
      (up → t.thermal.powerLevel = min 14 (s.thermal.powerLevel + 1)) ∧
      (¬ up → 100 ≤ low → t.thermal.powerLevel = s.thermal.powerLevel - 1 ∧ t.thermal.lowMs = 0) ∧
      (¬ up → low < 100 → t.thermal.powerLevel = s.thermal.powerLevel ∧ t.thermal.lowMs = low) ∧
      t = { s with thermal := t.thermal, cfg := { s.cfg with budget := t.cfg.budget }, arrays := { s.arrays with macs := 0 }, log := t.log }) ∧
  (∀ (mv : Nat) (s : State),
    (40000 ≤ mv → exec (.inputLow mv) s = .next s) ∧ (mv < 41000 → exec (.inputRestored mv) s = .next s) ∧
    (mv < 40000 → s.thermal.inputLow = false → ∃ t, exec (.inputLow mv) s = .next t ∧ t = { s with
      thermal := { s.thermal with inputLow := true }, cfg := { s.cfg with budget := 900 }, log := t.log }) ∧
    (41000 ≤ mv → s.thermal.inputLow = true → ∃ t, exec (.inputRestored mv) s = .next t ∧ t = { s with
      thermal := { s.thermal with inputLow := false }, cfg := { s.cfg with budget := s.cfg.cur.budget }, log := t.log }))

/-- A sensor rising faster than its limit, or two of one part above theirs twice, brings the safe state: every bride is dark, no route is left, the time
unit is in HOLDOVER with its candidacy withdrawn, and no sequence or step is left (log 38); memory and selvage stay. A hand-back leaves it once
settled. -/
def Obligations.TripsBringTheSafeState : Prop :=
  let tripped (s t : State) : Prop := t.start.safe = true ∧ (∀ b, b < 32 → (t.bride b).state = (if (s.bride b).state = 0 then 0 else 1) ∧ (t.bride b).lanes = 0) ∧
    t.fabric.route = [] ∧ t.time.lock = 3 ∧ t.time.withdrawn = true ∧ t.seqs.open_ = [] ∧ t.steps.live = [] ∧ t.take.progress = 0 ∧ t.mem = s.mem ∧ t.fw = s.fw ∧
    t.cfg.cur = s.cfg.cur ∧ t.motifs = s.motifs
  (∀ (i : Nat) (s : State), i ∈ s.goodSensors → 128 < 5 * (s.sensor i).rise10 → ∃ c, s.tripCause = some c ∧ c.1 = 0) ∧
  (∀ s : State, (s.tripCause = none ∨ s.start.safe = true → exec .trip s = .next s) ∧
    (∀ c, s.tripCause = some c → s.start.safe = false → ∃ t, exec .trip s = .next t ∧ tripped s t)) ∧
  (∀ (a b : Nat) (s : State), a < 196 → b < 196 →
    (a = b ∨ sensorPart a ≠ sensorPart b → exec (.hardwareTrip a b) s = .next s) ∧
    (a ≠ b → sensorPart a = sensorPart b → 2 ≤ (s.sensor a).overCount → 2 ≤ (s.sensor b).overCount →
      ∃ t, exec (.hardwareTrip a b) s = .next t ∧ t.start.hwTrip = true ∧ t.start.thermTrip = true ∧ (s.start.safe = false → tripped s t))) ∧
  (∀ s : State,
    (s.start.safe = false ∨ s.take.backBox = none ∨ s.settled = false → exec .safeExit s = .next s) ∧
    (s.start.safe = true → s.start.memoryFailed = false → s.take.backBox.isSome = true → s.settled = true → ∃ t, exec .safeExit s = .next t ∧
      t = { s with start := { s.start with safe := false, leftSafe := true }, arrays := s.confirmAll.arrays, log := t.log }))

/-- An entry's result goes to its register, to the capture queue or to both; an entry that is due again before it has started is late; a program that
passes its checks takes effect at once and leaves the firmware's entries; a conversion that was in progress finishes, and is captured under its old
entry. -/
def Obligations.MonitorEntriesAndPrograms : Prop :=
  (∀ (i : Nat) (samples : List Int) (s : State), i < 32 →
    let e := s.monEntry i
    let r := monResult (samples.map (monCode e.channel))
    (s.oldEntry i = none → s.monEnds i = false → exec (.monitorEntry i samples) s = .next s) ∧
    (∀ old, s.start.powerGood = true → s.oldEntry i = some old → samples.length = 2 ^ old.avg →
      let q := monResult (samples.map (monCode old.channel))
      ∃ t, exec (.monitorEntry i samples) s = .next t ∧ (∀ k, k ≠ i → t.monEntry k = s.monEntry k) ∧ (t.monEntry i).count = e.count ∧
        (t.monEntry i).channel = e.channel ∧ (t.monEntry i).period = e.period ∧ (t.monEntry i).lastStart = e.lastStart ∧
        (old.dest ≠ 1 → (t.monEntry i).code = q.1 ∧ (t.monEntry i).valid = true) ∧ (old.dest = 1 → t.monEntry i = e) ∧
        (old.dest = 0 → t.monitor.written = s.monitor.written) ∧
        (old.dest ≠ 0 → t.monitor.written = s.monitor.written + 1 ∧
          Tab.get (zeros 16) t.monitor.slots (4 + s.monitor.written % Config.captureSlots) = captureBytes s.monitor.written i old q (old.isOutside q) s.now) ∧
        t.oldEntry i = none ∧ t = { s with monitor := t.monitor, log := t.log }) ∧
    (s.start.powerGood = true → s.oldEntry i = none → s.monEnds i = true → s.monTurn i = true → samples.length = 2 ^ e.avg →
      ∃ t, exec (.monitorEntry i samples) s = .next t ∧ (∀ k, k ≠ i → t.monEntry k = s.monEntry k) ∧
        (e.dest ≠ 1 → (t.monEntry i).code = r.1 ∧ (t.monEntry i).ovr = r.2.1 ∧ (t.monEntry i).under = r.2.2 ∧ (t.monEntry i).valid = true ∧
          (t.monEntry i).count = e.count + 1 ∧ (t.monEntry i).time = s.now) ∧
        (e.dest = 1 → (t.monEntry i).code = e.code ∧ (t.monEntry i).count = e.count ∧ (t.monEntry i).time = e.time) ∧
        (e.dest = 0 → t.monitor.written = s.monitor.written ∧ t.monitor.slots = s.monitor.slots) ∧
        (e.dest ≠ 0 → t.monitor.written = s.monitor.written + 1 ∧
          Tab.get (zeros 16) t.monitor.slots (4 + s.monitor.written % Config.captureSlots) = captureBytes s.monitor.written i e r ((s.bandEntry i).isOutside r) s.now) ∧
        t = { s with monitor := t.monitor, log := t.log }) ∧
    (∀ u, e.lastStart = some u →
      (e.period = 0 ∨ s.now < u + 2000 * e.period → exec (.late i) s = .next s) ∧
      (e.period ≠ 0 → u + 2000 * e.period ≤ s.now → ∃ t, exec (.late i) s = .next t ∧ t.monEntry i = { e with late := true, missed := true } ∧
        (∀ k, k ≠ i → t.monEntry k = s.monEntry k) ∧ t = { s with monitor := t.monitor, log := t.log }))) ∧
  (∀ (m : Nat) (c : Cmd) (s : State), Ready s m 0x58 c.entry → (s.box m).cur = some c →
    let fails (st d : Nat) : Prop := ∃ t, exec (.monitorProgram m) s = .next t ∧ Completes s t m st (d % 2 ^ 32) (s.box m).progress 0 ∧
      t = { s with boxes := t.boxes, fabric := t.fabric }
    let sized : Prop := 8 ≤ bufLen c.entry ∧ bufLen c.entry % 8 = 0 ∧ bufLen c.entry ≤ 136
    (c.xfer = .none → ¬ sized → fails 0x0102 0) ∧
    (c.xfer = .readFailed → fails 0x0400 s.machineId) ∧
    (∀ qp, c.xfer = .none → sized → s.cmdQp c = some qp → s.qpOk qp = true → s.readRoom qp = true → ∃ t, exec (.monitorProgram m) s = .next t ∧
      t.port.out = s.frame (.readRequest qp 0 m (bufAddr c.entry) (bufRkey c.entry) (bufLen c.entry)) :: s.port.out ∧
      t = { s with boxes := t.boxes, port := { s.port with out := t.port.out } }) ∧
    (∀ st d, c.xfer = .readDone → monRefusal s c.data = some (st, d) → fails st d) ∧
    (c.xfer = .readDone → monRefusal s c.data = none → ∃ t, exec (.monitorProgram m) s = .next t ∧ Completes s t m 0 0 (s.box m).target 0 ∧
      (∀ k, k < 16 → t.monEntry k = s.monEntry k) ∧
      (∀ k, k < 16 → t.monEntry (16 + k) = if k < (monEntries c.data).length then readMonEntry ((monEntries c.data).getD k []) else MonEntry.init) ∧
      t.monitor.programmed = s.now ∧ t.monitor.replaced = s.monitor.started s.now ∧
      t = { s with boxes := t.boxes, fabric := t.fabric, monitor :=
        { s.monitor with entries := t.monitor.entries, replaced := t.monitor.replaced, programmed := t.monitor.programmed } }))

/-- A report is written to the buffer of the command that asks for it, and the command completes when the write is answered; a buffer that is too short
gets nothing, a motif without layers here is none. -/
def Obligations.ReportsAreDelivered : Prop :=
  ∀ (m : Nat) (c : Cmd) (s : State), (s.box m).cur = some c → c.xfer = .none →
    let sel := field c.entry 8 1
    let fails (i : Instr) (st d : Nat) : Prop := ∃ t, exec i s = .next t ∧ Completes s t m st (d % 2 ^ 32) (s.box m).progress 0 ∧
      t = { s with boxes := t.boxes, fabric := t.fabric }
    let delivers (i : Instr) (data : Bytes) : Prop :=
      (bufLen c.entry < data.length → fails i 0x0403 data.length) ∧
      (∀ qp, data.length ≤ bufLen c.entry → s.cmdQp c = some qp → s.qpOk qp = false → fails i 0x0402 0) ∧
      (∀ qp, data.length ≤ bufLen c.entry → s.cmdQp c = some qp → s.qpOk qp = true → ∃ t, exec i s = .next t ∧
        t.port.out = s.frame (.writeRequest qp m (bufAddr c.entry) (bufRkey c.entry) data) :: s.port.out ∧ (t.box m).cur = some { c with xfer := .writing, via := qp } ∧
        (∀ k, k ≠ m → t.box k = s.box k) ∧ t = { s with boxes := t.boxes, port := { s.port with out := t.port.out } })
    (Ready s m 0x50 c.entry → (sel < 0x10 ∨ 0x30 ≤ sel) → delivers (.healthRead m) (fixedReport s sel)) ∧
    (Ready s m 0x50 c.entry → 0x10 ≤ sel → sel < 0x30 → layerReport s sel = none → fails (.healthRead m) 0x0204 0) ∧
    (∀ data, Ready s m 0x50 c.entry → 0x10 ≤ sel → sel < 0x30 → layerReport s sel = some data → delivers (.healthRead m) data) ∧
    (Ready s m 0xA0 c.entry → delivers (.attest m) (quote s ((c.entry.drop 0x20).take 32)))

/-! ### Configuration, firmware and start-up (R426 to R473) -/

/-- Configuration commands run one at a time. A slot that is there is read out; an image that passes its checks is staged in the other slot; a commit of
the staged version, or a revert, swaps the slots and brings the configuration into force, unless R446 refuses it. -/
def Obligations.ConfigurationCommands : Prop :=
  ∀ (m : Nat) (c : Cmd) (s : State), (s.box m).cur = some c → s.updateWaits m = false → s.cfg.breakQps = false →
    let fails (i : Instr) (st d p r : Nat) : Prop := ∃ t, exec i s = .next t ∧ Completes s t m st (d % 2 ^ 32) p r ∧ t = { s with boxes := t.boxes, fabric := t.fabric }
    let kept := (s.box m).progress
    let swaps (i : Instr) (x : CfgSlot) : Prop :=
      (∀ n, s.inUse x.config = some n → fails i 0x0205 n kept s.cfg.cur.version) ∧
      (s.inUse x.config = none → ∃ t, exec i s = .next t ∧ t.cfg.cur = x.config ∧ t.cfg.slotA = s.cfg.slotA.swapped ∧ t.cfg.slotB = s.cfg.slotB.swapped ∧
        Completes s t m 0 0 (s.box m).target x.config.version ∧ t.fw = s.fw ∧ t.mem = s.mem ∧ t.seqs = s.seqs ∧ t.motifs = s.motifs)
    (Ready s m 0x10 c.entry → c.xfer = .none →
      let st : CfgSlotState := if field c.entry 8 1 = 0 then .current else if field c.entry 8 1 = 1 then .staged else .previous
      (s.cfg.slotIn st = none → fails (.configRead m) 0x0207 0 kept 0) ∧
      (∀ x qp, s.cfg.slotIn st = some x → x.image.length ≤ bufLen c.entry → s.cmdQp c = some qp → s.qpOk qp = true → ∃ t, exec (.configRead m) s = .next t ∧
        t.port.out = s.frame (.writeRequest qp m (bufAddr c.entry) (bufRkey c.entry) x.image) :: s.port.out ∧ (t.box m).target = x.image.length ∧
        t = { s with boxes := t.boxes, port := { s.port with out := t.port.out } })) ∧
    (Ready s m 0x11 c.entry →
      let bad : Prop := bufLen c.entry = 0 ∨ bufLen c.entry % 65536 ≠ 0 ∨ 64 * 65536 < bufLen c.entry
      (c.xfer = .none → bad → fails (.configStage m) 0x0102 0x1C kept 0) ∧
      (∀ qp, c.xfer = .none → ¬ bad → s.cmdQp c = some qp → s.qpOk qp = true → s.readRoom qp = true → ∃ t, exec (.configStage m) s = .next t ∧
        t.port.out = s.frame (.readRequest qp 0 m (bufAddr c.entry) (bufRkey c.entry) (bufLen c.entry)) :: s.port.out ∧ (t.box m).target = bufLen c.entry ∧
        t = { s with boxes := t.boxes, port := { s.port with out := t.port.out } }) ∧
      (c.xfer = .readFailed → fails (.configStage m) 0x0400 s.machineId kept 0) ∧
      (∀ st d n, c.xfer = .readDone → stageRefusal s c.data = some (st, d, n) → fails (.configStage m) st d n 0) ∧
      (c.xfer = .readDone → stageRefusal s c.data = none → ∃ t, exec (.configStage m) s = .next t ∧ Completes s t m 0 0 (s.box m).target 0 ∧
        t.cfg = s.cfg.putOther { state := .staged, image := c.data } ∧ t = { s with boxes := t.boxes, cfg := t.cfg, fabric := t.fabric })) ∧
    (Ready s m 0x12 c.entry →
      (s.cfg.slotIn .staged = none → fails (.configCommit m) 0x0207 0 kept s.cfg.cur.version) ∧
      (∀ x, s.cfg.slotIn .staged = some x → x.config.version ≠ field c.entry 0x10 4 → fails (.configCommit m) 0x0207 x.config.version kept s.cfg.cur.version) ∧
      (∀ x, s.cfg.slotIn .staged = some x → x.config.version = field c.entry 0x10 4 → swaps (.configCommit m) x)) ∧
    (Ready s m 0x13 c.entry →
      (s.cfg.slotIn .previous = none → fails (.configRevert m) 0x0207 0 kept s.cfg.cur.version) ∧
      (∀ x, s.cfg.slotIn .previous = some x → swaps (.configRevert m) x))

/-- `FW_STAGE` empties the inactive slot and fills it with an image that passes every check; `FW_ACTIVATE` and `FW_REVERT` name the slot in the boot
record with two attempts and restart the bobbin once no step is in flight; the owner lock is set, and cleared by its key alone. -/
def Obligations.FirmwareCommands : Prop :=
  ∀ (m : Nat) (c : Cmd) (s : State), (s.box m).cur = some c → s.updateWaits m = false →
    let fails (i : Instr) (st d p r : Nat) : Prop := ∃ t, exec i s = .next t ∧ Completes s t m st (d % 2 ^ 32) p r ∧ t = { s with boxes := t.boxes, fabric := t.fabric }
    let kept := (s.box m).progress
    let begins (i : Instr) (slot : Nat) : Prop := begunOn s m = false → s.inFlight = [] → s.servesSome = false →
      (∀ st d n, laterRefusal s.fw (s.fw.slot slot) = some (st, d, n) → fails i st d kept s.fw.runningSlot.version) ∧
      (laterRefusal s.fw (s.fw.slot slot) = none → ∃ t, exec i s = .next t ∧ t.fw.boot = slot ∧ t.fw.pending = 2 ∧ t.fw.failReason = 0 ∧
        (t.fw.activation.map (·.mailbox)) = some m ∧ t.start.stage = 1 ∧ t.start.rom = false ∧ t.time.withdrawn = true ∧
        t.fw.floor = s.fw.floor ∧ t.fw.revoked = s.fw.revoked ∧ t.fw.running = s.fw.running ∧ t.fw.slotA = s.fw.slotA ∧ t.fw.slotB = s.fw.slotB ∧
        t = { s with boxes := t.boxes, fw := t.fw, time := t.time, start := t.start })
    (Ready s m 0x80 c.entry →
      let bad : Prop := bufLen c.entry % 65536 ≠ 0 ∨ bufLen c.entry < 2 * 65536 ∨ 256 * 65536 < bufLen c.entry
      (c.xfer = .none → bad → ∃ t, exec (.fwStage m) s = .next t ∧ Completes s t m 0x0102 0x1C kept 0 ∧ t.fw = s.fw.putSlot s.stageSlot FwSlot.none) ∧
      (∀ qp, c.xfer = .none → ¬ bad → s.cmdQp c = some qp → s.qpOk qp = true → s.readRoom qp = true → ∃ t, exec (.fwStage m) s = .next t ∧ t.fw = s.fw.putSlot s.stageSlot FwSlot.none ∧
        t.port.out = s.frame (.readRequest qp 0 m (bufAddr c.entry) (bufRkey c.entry) (bufLen c.entry)) :: s.port.out ∧ (t.box m).target = bufLen c.entry / 65536) ∧
      (c.xfer = .readFailed → fails (.fwStage m) 0x0400 s.machineId kept 0) ∧
      (∀ st d n, c.xfer = .readDone → imageRefusal s.fw c.data = some (st, d, n) → fails (.fwStage m) st d n 0) ∧
      (c.xfer = .readDone → imageRefusal s.fw c.data = none → ∃ t, exec (.fwStage m) s = .next t ∧ Completes s t m 0 0 (s.box m).target 0 ∧
        t.fw = s.fw.putSlot s.stageSlot (FwSlot.ofImage c.data) ∧ t = { s with boxes := t.boxes, fw := t.fw, fabric := t.fabric, log := t.log })) ∧
    (Ready s m 0x81 c.entry →
      (s.fw.slotIn .staged = none → fails (.fwActivate m) 0x0207 0 kept s.fw.runningSlot.version) ∧
      (∀ i, s.fw.slotIn .staged = some i → begunOn s m = false → (s.fw.slot i).version ≠ field c.entry 0x10 4 →
        fails (.fwActivate m) 0x0207 (s.fw.slot i).version kept s.fw.runningSlot.version) ∧
      (∀ i, s.fw.slotIn .staged = some i → (s.fw.slot i).version = field c.entry 0x10 4 → begins (.fwActivate m) i)) ∧
    (Ready s m 0x82 c.entry →
      (s.fw.slotIn .previous = none → fails (.fwRevert m) 0x0207 0 kept s.fw.runningSlot.version) ∧
      (∀ i, s.fw.slotIn .previous = some i → begins (.fwRevert m) i)) ∧
    (Ready s m 0x90 c.entry → field c.entry 8 1 = 1 →
      (s.fw.lock.isSome = true → fails (.ownerLockSet m) 0x0503 0 kept 0) ∧
      (s.fw.lock = none → ∃ t, exec (.ownerLockSet m) s = .next t ∧ Completes s t m 0 0 (s.box m).target 0 ∧ t.fw = { s.fw with lock := some (field c.entry 0xC 4) } ∧
        t = { s with boxes := t.boxes, fw := t.fw, fabric := t.fabric, log := t.log })) ∧
    (Ready s m 0x90 c.entry → field c.entry 8 1 = 0 →
      (s.fw.lock = none → ∃ t, exec (.ownerLockClear m) s = .next t ∧ Completes s t m 0 0 (s.box m).target 0 ∧ t = { s with boxes := t.boxes, fabric := t.fabric }) ∧
      (∀ k, s.fw.lock = some k → k ≠ field c.entry 0xC 4 → fails (.ownerLockClear m) 0x0506 0 kept 0) ∧
      (s.fw.lock = some (field c.entry 0xC 4) → ∃ t, exec (.ownerLockClear m) s = .next t ∧ Completes s t m 0 0 (s.box m).target 0 ∧
        t.fw = { s.fw with lock := none } ∧ t = { s with boxes := t.boxes, fw := t.fw, fabric := t.fabric, log := t.log }))

/-- A booted slot that confirms within 5 s is RUNNING, raises the floor and revokes keys; one that fails loses an attempt, and with none left the boot
record names the RUNNING slot; a RUNNING slot that does not verify leaves the ROM code alone. -/
def Obligations.BootConfirmsOrFallsBack : Prop :=
  (∀ s : State,
    (s.start.stage ≠ 2 ∨ s.start.stageStart + 5000000000 < s.now ∨ s.start.hwTrip = true → exec .fwConfirm s = .next s) ∧
    (s.start.powerGood = true → s.start.hwTrip = false → s.start.stage = 2 → s.now ≤ s.start.stageStart + 5000000000 → s.fw.boot < 2 → s.fw.running < 2 →
      let x := s.fw.slot s.fw.boot
      ∃ t, exec .fwConfirm s = .next t ∧ t.fw.activation = none ∧ t.start.stage = (match s.fw.activation with | some a => a.stageBefore | none => 3) ∧ t.mem = s.mem ∧
        (s.fw.boot ≠ s.fw.running → t.fw.running = s.fw.boot ∧ t.fw.pending = 0 ∧ (t.fw.slot s.fw.boot).state = .running ∧
          t.fw.floor = (if s.fw.floor < BitVec.ofNat 32 x.floorRaise then BitVec.ofNat 32 x.floorRaise else s.fw.floor) ∧
          t.fw.revoked = s.fw.revoked ||| x.revoke) ∧
        (s.fw.boot = s.fw.running → t.fw.running = s.fw.running ∧ t.fw.floor = s.fw.floor ∧ t.fw.revoked = s.fw.revoked ∧
          (s.fw.failReason ≠ 0 → (t.fw.slot (1 - s.fw.boot)).state = .empty ∧ t.fw.failReason = 0)))) ∧
  (∀ (reason : Nat) (s : State),
    (s.start.powerGood = false ∨ s.start.rom = true ∨ reason = 0 ∨ 5 < reason → exec (.fwBootFailed reason) s = .next s) ∧
    (s.start.powerGood = true → s.start.rom = false → reason ∈ [1, 2, 4, 5] → s.start.stage = 1 →
      (0 < s.fw.pending → exec (.fwBootFailed reason) s = .next { s with
        fw := { s.fw with pending := s.fw.pending - 1, failReason := reason, boot := if s.fw.pending = 1 then s.fw.running else s.fw.boot }
        start := { s.start with stage := 1, stageStart := s.now } }) ∧
      (s.fw.pending = 0 → ∃ t, exec (.fwBootFailed reason) s = .next t ∧ t.start = { s.start with rom := true, stage := 1 } ∧
        (∀ b, b < 32 → (t.bride b).state = 0) ∧ t.fw = { s.fw with holdSteps := false } ∧ t = { s with start := t.start, fw := t.fw, fabric := t.fabric }))) ∧
  (∀ s : State, s.start.powerGood = true → s.start.rom = false →
    ((s.start.stage ≠ 2 ∨ s.now ≤ s.start.stageStart + 5000000000) → exec (.fwBootFailed 3) s = .next s) ∧
    (s.start.stage = 2 → s.start.stageStart + 5000000000 < s.now → exec (.fwBootFailed 3) s = .next { s with
      fw := { s.fw with pending := s.fw.pending - 1, failReason := if s.fw.pending = 0 then s.fw.failReason else 3,
                        boot := if s.fw.pending = 1 then s.fw.running else s.fw.boot }
      start := { s.start with stage := 1, stageStart := s.now } }))

/-- What ends a wait of the monitor, of its program, or of a restarted bobbin, under the conditions on the state that each names, completes: the
conversions of a due entry, a late entry, a program's next turn, the confirmation of a booted slot, and each failure to boot. -/
def Obligations.MonitorAndBootRowsComplete : Prop :=
  (∀ (i : Nat) (samples : List Int) (s : State), i < 32 → s.start.powerGood = true → s.oldEntry i = none → s.monEnds i = true →
    s.monTurn i = true → samples.length = 2 ^ (s.monEntry i).avg → ∃ t, exec (.monitorEntry i samples) s = .next t ∧
      (t.monEntry i).lastStart = some (s.now - (s.monEntry i).length) ∧ (t.monEntry i).missed = false ∧
      (t.monEntry i).inside = (if (s.bandEntry i).isOutside (monResult (samples.map (monCode (s.monEntry i).channel))) = true then 0 else (s.monEntry i).inside + 1) ∧
      t = { s with monitor := t.monitor, log := t.log }) ∧
  (∀ (i u : Nat) (s : State), i < 32 → (s.monEntry i).lastStart = some u → (s.monEntry i).period ≠ 0 → u + 2000 * (s.monEntry i).period ≤ s.now →
    ∃ t, exec (.late i) s = .next t ∧ (t.monEntry i).late = true ∧ (t.monEntry i).missed = true ∧ (t.monEntry i).lastStart = some u ∧
      ((s.log.recent.all fun r => r.1 != (7, 2, kMonitor * 2 ^ 24 + (s.monEntry i).channel % 2 ^ 24)) = true → t.log.written = s.log.written + 1) ∧
      t = { s with monitor := t.monitor, log := t.log }) ∧
  (∀ (m : Nat) (c : Cmd) (s : State), Ready s m 0x58 c.entry → (s.box m).cur = some c →
    (c.xfer = .readDone → monRefusal s c.data = none → ∃ t, exec (.monitorProgram m) s = .next t ∧ (t.box m).status = 0 ∧ (t.box m).done = true ∧
      t.monitor.entries = (s.monitor.program (monEntries c.data) s.now).entries ∧ t.monitor.slots = s.monitor.slots) ∧
    ((c.xfer = .reading ∨ c.xfer = .writing) → exec (.monitorProgram m) s = .next s)) ∧
  (∀ s : State, s.start.powerGood = true → s.start.hwTrip = false → s.start.stage = 2 → s.now ≤ s.start.stageStart + 5000000000 →
    ∃ t, exec .fwConfirm s = .next t ∧ t.start.stageStart = s.now ∧ t.start.powerGood = true ∧ t.fw.activation = none ∧ t.cfg.read = true ∧
      t.start.stage = (match s.fw.activation with | some a => a.stageBefore | none => 3) ∧
      (∀ a, s.fw.activation = some a → t.fw.holdSteps = false) ∧ t.mem = s.mem ∧ t.motifs = s.motifs) ∧
  (∀ (reason : Nat) (s : State), s.start.powerGood = true → s.start.rom = false → reason ∈ [1, 2, 3, 4, 5] → s.start.stage = 2 →
    (reason = 3 → s.start.stageStart + 5000000000 < s.now) →
    ∃ t, exec (.fwBootFailed reason) s = .next t ∧ t.start.stage = 1 ∧ t.fw.pending = s.fw.pending - 1 ∧ t.fw.running = s.fw.running ∧
      (t.start.rom = true ↔ s.fw.pending = 0 ∧ reason ≠ 3) ∧ t = { s with start := t.start, fw := t.fw, fabric := t.fabric })

/-- Power good and the release of RESET_L begin stage 1 with module time 0 and latch the slot; a loss of power keeps what is non-volatile, retired units
and the configuration and firmware slots among it, and starts module time from 0. -/
def Obligations.PowerComesAndGoes : Prop :=
  let lost (s t : State) : Prop := t.start.powerGood = false ∧ t.start.stage = 0 ∧ t.now = 0 ∧ t.boxes = State.reset.boxes ∧ t.seqs = State.reset.seqs ∧
    t.steps = State.reset.steps ∧ t.mem.retired = s.mem.retired ∧ t.arrays.remap = s.arrays.remap ∧ t.arrays.retired = s.arrays.retired ∧
    t.fw.floor = s.fw.floor ∧ t.fw.revoked = s.fw.revoked ∧ t.fw.lock = s.fw.lock ∧ t.fw.running = s.fw.running ∧ t.fw.slotA = s.fw.slotA ∧ t.fw.slotB = s.fw.slotB ∧
    t.cfg.slotA = s.cfg.slotA ∧ t.cfg.slotB = s.cfg.slotB ∧ t.pending = s.pending ∧
    (s.fw.pending = 0 → t.fw.boot = s.fw.boot ∧ t.fw.pending = 0) ∧
    (0 < s.fw.pending → t.fw.pending = s.fw.pending - 1 ∧ t.fw.failReason = 3 ∧ t.fw.boot = if s.fw.pending = 1 then s.fw.running else s.fw.boot)
  (∀ (pins : Nat) (low : Bool) (s : State),
    (s.start.powerGood = true → exec (.powerGood pins low) s = .next s) ∧
    (s.start.powerGood = false → s.start.resetL = true → exec (.powerGood pins low) s = .next { s with time := { s.time with t16 := 0, fine := 0 }, start := { s.start with
      pwrGood := true, holdupL := low, powerGood := true, stage := 1, stageStart := 0, slot := pins % 16 } }) ∧
    (s.start.powerGood = false ∨ s.start.resetL = true → exec (.resetRelease pins) s = .next s) ∧
    (s.start.powerGood = true → s.start.resetL = false → exec (.resetRelease pins) s = .next { s with time := { s.time with t16 := 0, fine := 0 }, start := { s.start with
      resetL := true, powerGood := true, stage := 1, stageStart := 0, slot := pins % 16 } })) ∧
  (∀ (n : Nat) (s : State),
    (s.start.powerGood = false → exec .pwrGoodFall s = .next s ∧ exec (.inputUndervoltage n) s = .next s ∧ exec (.hardReset n) s = .next s) ∧
    (s.start.powerGood = true →
      (∃ t, exec .pwrGoodFall s = .next t ∧ lost s t ∧ t.start.pwrGood = false) ∧
      (36000 ≤ n → exec (.inputUndervoltage n) s = .next s) ∧
      (n < 36000 → ∃ t, exec (.inputUndervoltage n) s = .next t ∧ lost s t) ∧
      (n < 10000 → exec (.hardReset n) s = .next s) ∧
      (10000 ≤ n → ∃ t, exec (.hardReset n) s = .next t ∧ t.start.powerGood = true ∧ t.start.resetL = false ∧ t.start.stage = 0 ∧ t.now = 0 ∧
        t.boxes = State.reset.boxes ∧ t.mem.retired = s.mem.retired ∧ t.arrays.retired = s.arrays.retired ∧
        t.fw = { s.fw with activation := none, holdSteps := false } ∧ t.cfg.slotA = s.cfg.slotA ∧ t.cfg.slotB = s.cfg.slotB)))

/-- The stages follow one another: the boot of the ROM, the memory's training, links and time, and the arrays' calibration each end one within its limit;
a boot past its limit leaves the ROM code alone, a stack that does not train brings the safe state, and after a hardware trip no boot ends. -/
def Obligations.StagesOfStartUp : Prop :=
  ∀ s : State, s.start.powerGood = true → s.start.safe = false → s.start.rom = false →
    let stageTo (n : Nat) : Startup := { s.start with stage := n, stageStart := s.now }
    (s.start.stage ≠ 1 ∨ s.start.hwTrip = true → exec .romBoot s = .next s) ∧
    (s.start.stage = 1 → s.start.resetL = true → s.start.hwTrip = false → s.now ≤ s.start.stageStart + 500000000 →
      exec .romBoot s = .next { s with start := stageTo 2 }) ∧
    (s.start.stage = 1 → s.start.resetL = true → s.start.hwTrip = false → s.start.stageStart + 500000000 < s.now →
      ∃ t, exec .romBoot s = .next t ∧ t.start = { s.start with rom := true } ∧ (∀ b, b < 32 → (t.bride b).state = 0) ∧
        t.fw = { s.fw with holdSteps := false } ∧ t = { s with start := t.start, fw := t.fw, fabric := t.fabric }) ∧
    (∀ trained, s.start.stage ≠ 3 → exec (.memoryTraining trained) s = .next s) ∧
    (s.start.stage = 3 → s.now ≤ s.start.stageStart + 6000000000 →
      exec (.memoryTraining (List.replicate 8 true)) s = .next { s with start := stageTo 4 }) ∧
    (∀ trained, s.start.stage = 3 → trained.length = 8 → (false ∈ trained ∨ s.start.stageStart + 6000000000 < s.now) → ∃ t, exec (.memoryTraining trained) s = .next t ∧
      t.start = { s.start with safe := true, memoryFailed := true, refOut := true } ∧ t.time = { s.time with withdrawn := true, lock := 3, holdoverSince := s.now } ∧
      t.log.written = s.log.written + 1 ∧ t = { s with start := t.start, time := t.time, log := t.log }) ∧
    (s.start.stage = 4 → s.start.stageStart + 4000000000 ≤ s.now → s.time.groupRef.isSome = true → s.time.lock = 2 → s.time.stepped = true →
      ∃ t, exec .linksUp s = .next t ∧ t.start = stageTo 5 ∧ t = { s with start := t.start, arrays := t.arrays }) ∧
    (s.start.stage ≠ 4 ∨ s.time.lock ≠ 2 → exec .linksUp s = .next s) ∧
    (s.start.stage = 5 → s.mirrorsPresent = true → (∀ a, a < 32768 → s.calibrated a = true) → exec .moduleReady s = .next { s with start := stageTo 6 }) ∧
    (s.start.stage ≠ 5 ∨ s.mirrorsPresent = false → exec .moduleReady s = .next s)
end

