-- ==== Sys2Proof/Laws/Tab.lean ====
section
/-! SUPPORT. What reading a sparse table gives after a write, and that every write keeps the canonical form. -/

namespace Sys2Proof.Machine

variable {α : Type}

theorem Tab.get_drop_same (d : α) (t : Tab α) (k : Nat) : Tab.get d (Tab.drop t k) k = d := by
  induction t with
  | nil => rfl
  | cons e t ih =>
    obtain ⟨i, w⟩ := e
    by_cases h : i = k
    · simpa [Tab.drop, h] using ih
    · simpa [Tab.drop, h, Tab.get] using ih

theorem Tab.get_drop_other (d : α) (t : Tab α) {j k : Nat} (hjk : j ≠ k) : Tab.get d (Tab.drop t k) j = Tab.get d t j := by
  induction t with
  | nil => rfl
  | cons e t ih =>
    obtain ⟨i, w⟩ := e
    by_cases h : i = k
    · have : ¬ i = j := fun c => hjk (c ▸ h)
      simpa [Tab.drop, h, Tab.get, this, Ne.symm hjk] using ih
    · by_cases hj : i = j
      · simp [Tab.drop, Tab.get, hj, hjk]
      · simpa [Tab.drop, h, Tab.get, hj] using ih

theorem Tab.get_insert_other (d : α) (t : Tab α) {j k : Nat} (v : α) (hjk : j ≠ k) :
    Tab.get d (Tab.insert t k v) j = Tab.get d t j := by
  induction t with
  | nil => simp [Tab.insert, Tab.get, Ne.symm hjk]
  | cons e t ih =>
    obtain ⟨i, w⟩ := e
    by_cases h : k < i
    · simp [Tab.insert, h, Tab.get, Ne.symm hjk]
    · simp [Tab.insert, h, Tab.get, ih]

/-- A table that lists nothing at `k` reads `v` there once `v` is inserted. -/
theorem Tab.get_insert_same (d : α) (t : Tab α) (k : Nat) (v : α) : Tab.get d (Tab.insert (Tab.drop t k) k v) k = v := by
  induction t with
  | nil => simp [Tab.drop, Tab.insert, Tab.get]
  | cons e t ih =>
    obtain ⟨i, w⟩ := e
    by_cases h : i = k
    · simpa [Tab.drop, h] using ih
    · have e1 : Tab.drop ((i, w) :: t) k = (i, w) :: Tab.drop t k := by simp [Tab.drop, h]
      rw [e1]
      by_cases hk : k < i
      · simp [Tab.insert, hk, Tab.get]
      · simp [Tab.insert, hk, Tab.get, h, ih]

@[simp] theorem Tab.get_put_same [DecidableEq α] (d : α) (t : Tab α) (k : Nat) (v : α) : Tab.get d (Tab.put d t k v) k = v := by
  unfold Tab.put
  split
  · next h => rw [h, Tab.get_drop_same]
  · exact Tab.get_insert_same d t k v

theorem Tab.get_put_other [DecidableEq α] (d : α) (t : Tab α) {j k : Nat} (v : α) (hjk : j ≠ k) :
    Tab.get d (Tab.put d t k v) j = Tab.get d t j := by
  unfold Tab.put
  split
  · exact Tab.get_drop_other d t hjk
  · rw [Tab.get_insert_other d _ v hjk, Tab.get_drop_other d t hjk]

/-- Reading any index after a write. -/
theorem Tab.get_put [DecidableEq α] (d : α) (t : Tab α) (j k : Nat) (v : α) :
    Tab.get d (Tab.put d t k v) j = if j = k then v else Tab.get d t j := by
  split
  · next h => rw [h, Tab.get_put_same]
  · next h => exact Tab.get_put_other d t v h

theorem Tab.above_drop {k : Nat} (t : Tab α) (j : Nat) (ha : Tab.above k t = true) (d : α) [DecidableEq α] (hw : Tab.wf d t = true) :
    Tab.above k (Tab.drop t j) = true := by
  induction t with
  | nil => rfl
  | cons e t ih =>
    obtain ⟨i, w⟩ := e
    simp only [Tab.wf, Bool.and_eq_true, decide_eq_true_eq] at hw
    simp only [Tab.above, decide_eq_true_eq] at ha
    by_cases h : i = j
    · have h2 : Tab.above k t = true := by
        cases t with
        | nil => rfl
        | cons f t =>
          have := hw.1.2
          simp only [Tab.above, decide_eq_true_eq] at this ⊢
          omega
      simpa [Tab.drop, h] using ih h2 hw.2
    · simp [Tab.drop, h, Tab.above, ha]

theorem Tab.wf_drop [DecidableEq α] (d : α) (t : Tab α) (k : Nat) (hw : Tab.wf d t = true) : Tab.wf d (Tab.drop t k) = true := by
  induction t with
  | nil => rfl
  | cons e t ih =>
    obtain ⟨i, w⟩ := e
    have hw' := hw
    simp only [Tab.wf, Bool.and_eq_true, decide_eq_true_eq] at hw'
    by_cases h : i = k
    · simpa [Tab.drop, h] using ih hw'.2
    · have e1 : Tab.drop ((i, w) :: t) k = (i, w) :: Tab.drop t k := by simp [Tab.drop, h]
      rw [e1]
      simp only [Tab.wf, Bool.and_eq_true, decide_eq_true_eq]
      exact ⟨⟨hw'.1.1, Tab.above_drop t k hw'.1.2 d hw'.2⟩, ih hw'.2⟩

theorem Tab.above_insert {k j : Nat} (t : Tab α) (v : α) (ha : Tab.above k t = true) (hj : k < j) :
    Tab.above k (Tab.insert t j v) = true := by
  cases t with
  | nil => simp [Tab.insert, Tab.above, hj]
  | cons e t =>
    obtain ⟨i, w⟩ := e
    simp only [Tab.insert]
    split <;> simp_all [Tab.above]

theorem Tab.wf_insert [DecidableEq α] (d : α) (t : Tab α) (k : Nat) (v : α) (hv : v ≠ d) (hn : ∀ e ∈ t, e.1 ≠ k)
    (hw : Tab.wf d t = true) : Tab.wf d (Tab.insert t k v) = true := by
  induction t with
  | nil => simp [Tab.insert, Tab.wf, Tab.above, hv]
  | cons e t ih =>
    obtain ⟨i, w⟩ := e
    have hw' := hw
    simp only [Tab.wf, Bool.and_eq_true, decide_eq_true_eq] at hw'
    have hik : i ≠ k := hn (i, w) (by simp)
    by_cases h : k < i
    · simp only [Tab.insert, h, if_true, Tab.wf, Bool.and_eq_true, decide_eq_true_eq]
      exact ⟨⟨hv, by simp [Tab.above, h]⟩, hw'⟩
    · have hlt : i < k := by omega
      simp only [Tab.insert, h, if_false, Tab.wf, Bool.and_eq_true, decide_eq_true_eq]
      exact ⟨⟨hw'.1.1, Tab.above_insert t v hw'.1.2 hlt⟩, ih (fun e he => hn e (by simp [he])) hw'.2⟩

/-- Every write to a table in canonical form leaves it so. -/
theorem Tab.wf_put [DecidableEq α] (d : α) (t : Tab α) (k : Nat) (v : α) (hw : Tab.wf d t = true) :
    Tab.wf d (Tab.put d t k v) = true := by
  unfold Tab.put
  split
  · exact Tab.wf_drop d t k hw
  · next hv =>
    refine Tab.wf_insert d _ k v hv ?_ (Tab.wf_drop d t k hw)
    intro e he
    simp only [Tab.drop, List.mem_filter, decide_eq_true_eq] at he
    exact he.2

theorem Tab.drop_insert (t : Tab α) (k : Nat) (v : α) : Tab.drop (Tab.insert t k v) k = Tab.drop t k := by
  induction t with
  | nil => simp [Tab.insert, Tab.drop]
  | cons e t ih =>
    rw [Tab.insert]
    split
    · simp [Tab.drop]
    · unfold Tab.drop at ih ⊢
      rw [List.filter_cons, List.filter_cons, ih]

theorem Tab.drop_drop (t : Tab α) (k : Nat) : Tab.drop (Tab.drop t k) k = Tab.drop t k := by simp [Tab.drop]

theorem Tab.drop_put [DecidableEq α] (d : α) (t : Tab α) (k : Nat) (v : α) : Tab.drop (Tab.put d t k v) k = Tab.drop t k := by
  unfold Tab.put
  split
  · exact Tab.drop_drop t k
  · rw [Tab.drop_insert, Tab.drop_drop]

/-- Of two writes to one index the later one stays. -/
theorem Tab.put_put [DecidableEq α] (d : α) (t : Tab α) (k : Nat) (v w : α) : Tab.put d (Tab.put d t k v) k w = Tab.put d t k w := by
  rw [Tab.put, Tab.drop_put]
  rfl

end Sys2Proof.Machine
end

