-- ==== Sys2Proof/Laws/Memory.lean ====
section
/-! SUPPORT. The laws of the memory window: a byte read after a write, and that every memory operation keeps the canonical form. -/

namespace Sys2Proof.Machine

/-- What a byte of the window reads as after bytes are stored. -/
theorem get_storeBytes (w : List Host.Cell) (a : Nat) (data : Bytes) (b : Nat) :
    Tab.get (0 : Byte) (storeBytes w a data) b = if a ≤ b ∧ b < a + data.length then data.getD (b - a) 0 else Tab.get (0 : Byte) w b := by
  induction data generalizing w a with
  | nil => simp [storeBytes]
  | cons x t ih =>
    rw [storeBytes, ih, Tab.get_put]
    by_cases h1 : b = a
    · subst h1
      simp
    · by_cases h2 : a + 1 ≤ b ∧ b < a + 1 + t.length
      · have h3 : a ≤ b ∧ b < a + (x :: t).length := by simp; omega
        obtain ⟨k, hk⟩ : ∃ k, b - a = k + 1 := ⟨b - a - 1, by omega⟩
        rw [if_pos h2, if_pos h3, hk, List.getD_cons_succ]
        congr 1
        omega
      · have h3 : ¬ (a ≤ b ∧ b < a + (x :: t).length) := by simp; omega
        rw [if_neg h2, if_neg h3, if_neg h1]

/-- What a byte of memory reads as after a write. -/
theorem memByte_memWrite (m : Memory) (a : Nat) (data : Bytes) (b : Nat) :
    memByte (memWrite m a data) b = if a ≤ b ∧ b < a + data.length then data.getD (b - a) 0 else memByte m b :=
  get_storeBytes m.window a data b

/-- Stored bytes leave the window in canonical form. -/
theorem wf_storeBytes (w : List Host.Cell) (a : Nat) (data : Bytes) (hw : Tab.wf (0 : Byte) w = true) :
    Tab.wf (0 : Byte) (storeBytes w a data) = true := by
  induction data generalizing w a with
  | nil => exact hw
  | cons x t ih => exact ih _ _ (Tab.wf_put 0 w a x hw)

/-- A write leaves memory in canonical form. -/
theorem memWrite_wf (m : Memory) (a : Nat) (data : Bytes) (hw : m.wf = true) : (memWrite m a data).wf = true :=
  wf_storeBytes m.window a data hw

end Sys2Proof.Machine
end

