-- ==== Sys2Proof/Laws/State.lean ====
section
/-! SUPPORT. What each shared operation leaves alone, field by field, and what reading a table of the state gives after a write to it. -/

namespace Sys2Proof.Machine

/-- What every step of a fold leaves alone, the fold leaves alone. -/
theorem foldl_keeps {α β : Type} (g : State → β) (f : State → α → State) (h : ∀ u x, g (f u x) = g u) (l : List α) (s : State) :
    g (l.foldl f s) = g s := by
  induction l generalizing s with
  | nil => rfl
  | cons x l ih => rw [List.foldl_cons, ih, h]

/-! ### Reading a table after a write -/

@[simp] theorem State.setBox_box (s : State) (i : Nat) (v : Mailbox) (j : Nat) :
    (s.setBox i v).box j = if j = i then v else s.box j := Tab.get_put _ _ j i v

@[simp] theorem State.setArray_array (s : State) (i : Nat) (v : ArrayState) (j : Nat) :
    (s.setArray i v).array j = if j = i then v else s.array j := Tab.get_put _ _ j i v

@[simp] theorem State.setPhys_phys (s : State) (i : Nat) (v : PhysArray) (j : Nat) :
    (s.setPhys i v).phys j = if j = i then v else s.phys j := Tab.get_put _ _ j i v

@[simp] theorem State.setMotif_motif (s : State) (i : Nat) (v : MotifEntry) (j : Nat) :
    (s.setMotif i v).motif j = if j = i then v else s.motif j := Tab.get_put _ _ j i v

@[simp] theorem State.setBride_bride (s : State) (i : Nat) (v : Bride) (j : Nat) :
    (s.setBride i v).bride j = if j = i then v else s.bride j := Tab.get_put _ _ j i v

@[simp] theorem State.setSensor_sensor (s : State) (i : Nat) (v : Sensor) (j : Nat) :
    (s.setSensor i v).sensor j = if j = i then v else s.sensor j := Tab.get_put _ _ j i v

@[simp] theorem State.setIsland_island (s : State) (i : Nat) (v : Island) (j : Nat) :
    (s.setIsland i v).island j = if j = i then v else s.island j := Tab.get_put _ _ j i v

@[simp] theorem State.setMonEntry_monEntry (s : State) (i : Nat) (v : MonEntry) (j : Nat) :
    (s.setMonEntry i v).monEntry j = if j = i then v else s.monEntry j := Tab.get_put _ _ j i v

@[simp] theorem State.update_box (s : State) (m : Nat) (f : Mailbox → Mailbox) (j : Nat) :
    (s.update m f).box j = if j = m then touchBox (f (s.box m)) s.now else s.box j := Tab.get_put _ _ j m _

@[simp] theorem State.setCmd_box (s : State) (m : Nat) (f : Cmd → Cmd) (j : Nat) :
    (s.setCmd m f).box j = if j = m then { s.box m with cur := (s.box m).cur.map f } else s.box j := Tab.get_put _ _ j m _

@[simp] theorem State.setArray_box (s : State) (a : Nat) (v : ArrayState) (j : Nat) : (s.setArray a v).box j = s.box j := rfl

@[simp] theorem State.setPhys_box (s : State) (p : Nat) (v : PhysArray) (j : Nat) : (s.setPhys p v).box j = s.box j := rfl

@[simp] theorem State.setMotif_box (s : State) (m : Nat) (e : MotifEntry) (j : Nat) : (s.setMotif m e).box j = s.box j := rfl

@[simp] theorem State.setBride_box (s : State) (b : Nat) (v : Bride) (j : Nat) : (s.setBride b v).box j = s.box j := rfl

@[simp] theorem State.setSensor_box (s : State) (i : Nat) (v : Sensor) (j : Nat) : (s.setSensor i v).box j = s.box j := rfl

@[simp] theorem State.setIsland_box (s : State) (i : Nat) (v : Island) (j : Nat) : (s.setIsland i v).box j = s.box j := rfl

@[simp] theorem State.setMonEntry_box (s : State) (i : Nat) (v : MonEntry) (j : Nat) : (s.setMonEntry i v).box j = s.box j := rfl

@[simp] theorem State.toHost_box (s : State) (o : HostOut) (j : Nat) : (s.toHost o).box j = s.box j := rfl

@[simp] theorem State.count_box (s : State) (f : Counters → Counters) (j : Nat) : (s.count f).box j = s.box j := rfl

/-! ### What each operation leaves alone -/

@[simp] theorem State.setBox_port (s : State) (m : Nat) (b : Mailbox) : (s.setBox m b).port = s.port := rfl
@[simp] theorem State.setBox_log (s : State) (m : Nat) (b : Mailbox) : (s.setBox m b).log = s.log := rfl
@[simp] theorem State.setBox_counters (s : State) (m : Nat) (b : Mailbox) : (s.setBox m b).counters = s.counters := rfl
@[simp] theorem State.setBox_monitor (s : State) (m : Nat) (b : Mailbox) : (s.setBox m b).monitor = s.monitor := rfl
@[simp] theorem State.setBox_time (s : State) (m : Nat) (b : Mailbox) : (s.setBox m b).time = s.time := rfl
@[simp] theorem State.setBox_start (s : State) (m : Nat) (b : Mailbox) : (s.setBox m b).start = s.start := rfl
@[simp] theorem State.setBox_mem (s : State) (m : Nat) (b : Mailbox) : (s.setBox m b).mem = s.mem := rfl
@[simp] theorem State.setBox_arrays (s : State) (m : Nat) (b : Mailbox) : (s.setBox m b).arrays = s.arrays := rfl
@[simp] theorem State.setBox_motifs (s : State) (m : Nat) (b : Mailbox) : (s.setBox m b).motifs = s.motifs := rfl
@[simp] theorem State.setBox_seqs (s : State) (m : Nat) (b : Mailbox) : (s.setBox m b).seqs = s.seqs := rfl
@[simp] theorem State.setBox_steps (s : State) (m : Nat) (b : Mailbox) : (s.setBox m b).steps = s.steps := rfl
@[simp] theorem State.setBox_data (s : State) (m : Nat) (b : Mailbox) : (s.setBox m b).data = s.data := rfl
@[simp] theorem State.setBox_attn (s : State) (m : Nat) (b : Mailbox) : (s.setBox m b).attn = s.attn := rfl
@[simp] theorem State.setBox_knots (s : State) (m : Nat) (b : Mailbox) : (s.setBox m b).knots = s.knots := rfl
@[simp] theorem State.setBox_fabric (s : State) (m : Nat) (b : Mailbox) : (s.setBox m b).fabric = s.fabric := rfl
@[simp] theorem State.setBox_thermal (s : State) (m : Nat) (b : Mailbox) : (s.setBox m b).thermal = s.thermal := rfl
@[simp] theorem State.setBox_fw (s : State) (m : Nat) (b : Mailbox) : (s.setBox m b).fw = s.fw := rfl
@[simp] theorem State.setBox_cfg (s : State) (m : Nat) (b : Mailbox) : (s.setBox m b).cfg = s.cfg := rfl
@[simp] theorem State.setBox_islands (s : State) (m : Nat) (b : Mailbox) : (s.setBox m b).islands = s.islands := rfl
@[simp] theorem State.setBox_take (s : State) (m : Nat) (b : Mailbox) : (s.setBox m b).take = s.take := rfl
@[simp] theorem State.setBox_draws (s : State) (m : Nat) (b : Mailbox) : (s.setBox m b).draws = s.draws := rfl
@[simp] theorem State.setBox_pending (s : State) (m : Nat) (b : Mailbox) : (s.setBox m b).pending = s.pending := rfl

@[simp] theorem State.setArray_boxes (s : State) (a : Nat) (v : ArrayState) : (s.setArray a v).boxes = s.boxes := rfl
@[simp] theorem State.setArray_port (s : State) (a : Nat) (v : ArrayState) : (s.setArray a v).port = s.port := rfl
@[simp] theorem State.setArray_log (s : State) (a : Nat) (v : ArrayState) : (s.setArray a v).log = s.log := rfl
@[simp] theorem State.setArray_counters (s : State) (a : Nat) (v : ArrayState) : (s.setArray a v).counters = s.counters := rfl
@[simp] theorem State.setArray_monitor (s : State) (a : Nat) (v : ArrayState) : (s.setArray a v).monitor = s.monitor := rfl
@[simp] theorem State.setArray_time (s : State) (a : Nat) (v : ArrayState) : (s.setArray a v).time = s.time := rfl
@[simp] theorem State.setArray_start (s : State) (a : Nat) (v : ArrayState) : (s.setArray a v).start = s.start := rfl
@[simp] theorem State.setArray_mem (s : State) (a : Nat) (v : ArrayState) : (s.setArray a v).mem = s.mem := rfl
@[simp] theorem State.setArray_motifs (s : State) (a : Nat) (v : ArrayState) : (s.setArray a v).motifs = s.motifs := rfl
@[simp] theorem State.setArray_seqs (s : State) (a : Nat) (v : ArrayState) : (s.setArray a v).seqs = s.seqs := rfl
@[simp] theorem State.setArray_steps (s : State) (a : Nat) (v : ArrayState) : (s.setArray a v).steps = s.steps := rfl
@[simp] theorem State.setArray_data (s : State) (a : Nat) (v : ArrayState) : (s.setArray a v).data = s.data := rfl
@[simp] theorem State.setArray_attn (s : State) (a : Nat) (v : ArrayState) : (s.setArray a v).attn = s.attn := rfl
@[simp] theorem State.setArray_knots (s : State) (a : Nat) (v : ArrayState) : (s.setArray a v).knots = s.knots := rfl
@[simp] theorem State.setArray_fabric (s : State) (a : Nat) (v : ArrayState) : (s.setArray a v).fabric = s.fabric := rfl
@[simp] theorem State.setArray_thermal (s : State) (a : Nat) (v : ArrayState) : (s.setArray a v).thermal = s.thermal := rfl
@[simp] theorem State.setArray_fw (s : State) (a : Nat) (v : ArrayState) : (s.setArray a v).fw = s.fw := rfl
@[simp] theorem State.setArray_cfg (s : State) (a : Nat) (v : ArrayState) : (s.setArray a v).cfg = s.cfg := rfl
@[simp] theorem State.setArray_islands (s : State) (a : Nat) (v : ArrayState) : (s.setArray a v).islands = s.islands := rfl
@[simp] theorem State.setArray_take (s : State) (a : Nat) (v : ArrayState) : (s.setArray a v).take = s.take := rfl
@[simp] theorem State.setArray_draws (s : State) (a : Nat) (v : ArrayState) : (s.setArray a v).draws = s.draws := rfl
@[simp] theorem State.setArray_pending (s : State) (a : Nat) (v : ArrayState) : (s.setArray a v).pending = s.pending := rfl

@[simp] theorem State.setPhys_boxes (s : State) (p : Nat) (v : PhysArray) : (s.setPhys p v).boxes = s.boxes := rfl
@[simp] theorem State.setPhys_port (s : State) (p : Nat) (v : PhysArray) : (s.setPhys p v).port = s.port := rfl
@[simp] theorem State.setPhys_log (s : State) (p : Nat) (v : PhysArray) : (s.setPhys p v).log = s.log := rfl
@[simp] theorem State.setPhys_counters (s : State) (p : Nat) (v : PhysArray) : (s.setPhys p v).counters = s.counters := rfl
@[simp] theorem State.setPhys_monitor (s : State) (p : Nat) (v : PhysArray) : (s.setPhys p v).monitor = s.monitor := rfl
@[simp] theorem State.setPhys_time (s : State) (p : Nat) (v : PhysArray) : (s.setPhys p v).time = s.time := rfl
@[simp] theorem State.setPhys_start (s : State) (p : Nat) (v : PhysArray) : (s.setPhys p v).start = s.start := rfl
@[simp] theorem State.setPhys_mem (s : State) (p : Nat) (v : PhysArray) : (s.setPhys p v).mem = s.mem := rfl
@[simp] theorem State.setPhys_motifs (s : State) (p : Nat) (v : PhysArray) : (s.setPhys p v).motifs = s.motifs := rfl
@[simp] theorem State.setPhys_seqs (s : State) (p : Nat) (v : PhysArray) : (s.setPhys p v).seqs = s.seqs := rfl
@[simp] theorem State.setPhys_steps (s : State) (p : Nat) (v : PhysArray) : (s.setPhys p v).steps = s.steps := rfl
@[simp] theorem State.setPhys_data (s : State) (p : Nat) (v : PhysArray) : (s.setPhys p v).data = s.data := rfl
@[simp] theorem State.setPhys_attn (s : State) (p : Nat) (v : PhysArray) : (s.setPhys p v).attn = s.attn := rfl
@[simp] theorem State.setPhys_knots (s : State) (p : Nat) (v : PhysArray) : (s.setPhys p v).knots = s.knots := rfl
@[simp] theorem State.setPhys_fabric (s : State) (p : Nat) (v : PhysArray) : (s.setPhys p v).fabric = s.fabric := rfl
@[simp] theorem State.setPhys_thermal (s : State) (p : Nat) (v : PhysArray) : (s.setPhys p v).thermal = s.thermal := rfl
@[simp] theorem State.setPhys_fw (s : State) (p : Nat) (v : PhysArray) : (s.setPhys p v).fw = s.fw := rfl
@[simp] theorem State.setPhys_cfg (s : State) (p : Nat) (v : PhysArray) : (s.setPhys p v).cfg = s.cfg := rfl
@[simp] theorem State.setPhys_islands (s : State) (p : Nat) (v : PhysArray) : (s.setPhys p v).islands = s.islands := rfl
@[simp] theorem State.setPhys_take (s : State) (p : Nat) (v : PhysArray) : (s.setPhys p v).take = s.take := rfl
@[simp] theorem State.setPhys_draws (s : State) (p : Nat) (v : PhysArray) : (s.setPhys p v).draws = s.draws := rfl
@[simp] theorem State.setPhys_pending (s : State) (p : Nat) (v : PhysArray) : (s.setPhys p v).pending = s.pending := rfl

@[simp] theorem State.setMotif_boxes (s : State) (m : Nat) (e : MotifEntry) : (s.setMotif m e).boxes = s.boxes := rfl
@[simp] theorem State.setMotif_port (s : State) (m : Nat) (e : MotifEntry) : (s.setMotif m e).port = s.port := rfl
@[simp] theorem State.setMotif_log (s : State) (m : Nat) (e : MotifEntry) : (s.setMotif m e).log = s.log := rfl
@[simp] theorem State.setMotif_counters (s : State) (m : Nat) (e : MotifEntry) : (s.setMotif m e).counters = s.counters := rfl
@[simp] theorem State.setMotif_monitor (s : State) (m : Nat) (e : MotifEntry) : (s.setMotif m e).monitor = s.monitor := rfl
@[simp] theorem State.setMotif_time (s : State) (m : Nat) (e : MotifEntry) : (s.setMotif m e).time = s.time := rfl
@[simp] theorem State.setMotif_start (s : State) (m : Nat) (e : MotifEntry) : (s.setMotif m e).start = s.start := rfl
@[simp] theorem State.setMotif_mem (s : State) (m : Nat) (e : MotifEntry) : (s.setMotif m e).mem = s.mem := rfl
@[simp] theorem State.setMotif_arrays (s : State) (m : Nat) (e : MotifEntry) : (s.setMotif m e).arrays = s.arrays := rfl
@[simp] theorem State.setMotif_seqs (s : State) (m : Nat) (e : MotifEntry) : (s.setMotif m e).seqs = s.seqs := rfl
@[simp] theorem State.setMotif_steps (s : State) (m : Nat) (e : MotifEntry) : (s.setMotif m e).steps = s.steps := rfl
@[simp] theorem State.setMotif_data (s : State) (m : Nat) (e : MotifEntry) : (s.setMotif m e).data = s.data := rfl
@[simp] theorem State.setMotif_attn (s : State) (m : Nat) (e : MotifEntry) : (s.setMotif m e).attn = s.attn := rfl
@[simp] theorem State.setMotif_knots (s : State) (m : Nat) (e : MotifEntry) : (s.setMotif m e).knots = s.knots := rfl
@[simp] theorem State.setMotif_fabric (s : State) (m : Nat) (e : MotifEntry) : (s.setMotif m e).fabric = s.fabric := rfl
@[simp] theorem State.setMotif_thermal (s : State) (m : Nat) (e : MotifEntry) : (s.setMotif m e).thermal = s.thermal := rfl
@[simp] theorem State.setMotif_fw (s : State) (m : Nat) (e : MotifEntry) : (s.setMotif m e).fw = s.fw := rfl
@[simp] theorem State.setMotif_cfg (s : State) (m : Nat) (e : MotifEntry) : (s.setMotif m e).cfg = s.cfg := rfl
@[simp] theorem State.setMotif_islands (s : State) (m : Nat) (e : MotifEntry) : (s.setMotif m e).islands = s.islands := rfl
@[simp] theorem State.setMotif_take (s : State) (m : Nat) (e : MotifEntry) : (s.setMotif m e).take = s.take := rfl
@[simp] theorem State.setMotif_draws (s : State) (m : Nat) (e : MotifEntry) : (s.setMotif m e).draws = s.draws := rfl
@[simp] theorem State.setMotif_pending (s : State) (m : Nat) (e : MotifEntry) : (s.setMotif m e).pending = s.pending := rfl

@[simp] theorem State.setBride_boxes (s : State) (b : Nat) (v : Bride) : (s.setBride b v).boxes = s.boxes := rfl
@[simp] theorem State.setBride_port (s : State) (b : Nat) (v : Bride) : (s.setBride b v).port = s.port := rfl
@[simp] theorem State.setBride_log (s : State) (b : Nat) (v : Bride) : (s.setBride b v).log = s.log := rfl
@[simp] theorem State.setBride_counters (s : State) (b : Nat) (v : Bride) : (s.setBride b v).counters = s.counters := rfl
@[simp] theorem State.setBride_monitor (s : State) (b : Nat) (v : Bride) : (s.setBride b v).monitor = s.monitor := rfl
@[simp] theorem State.setBride_time (s : State) (b : Nat) (v : Bride) : (s.setBride b v).time = s.time := rfl
@[simp] theorem State.setBride_start (s : State) (b : Nat) (v : Bride) : (s.setBride b v).start = s.start := rfl
@[simp] theorem State.setBride_mem (s : State) (b : Nat) (v : Bride) : (s.setBride b v).mem = s.mem := rfl
@[simp] theorem State.setBride_arrays (s : State) (b : Nat) (v : Bride) : (s.setBride b v).arrays = s.arrays := rfl
@[simp] theorem State.setBride_motifs (s : State) (b : Nat) (v : Bride) : (s.setBride b v).motifs = s.motifs := rfl
@[simp] theorem State.setBride_seqs (s : State) (b : Nat) (v : Bride) : (s.setBride b v).seqs = s.seqs := rfl
@[simp] theorem State.setBride_steps (s : State) (b : Nat) (v : Bride) : (s.setBride b v).steps = s.steps := rfl
@[simp] theorem State.setBride_data (s : State) (b : Nat) (v : Bride) : (s.setBride b v).data = s.data := rfl
@[simp] theorem State.setBride_attn (s : State) (b : Nat) (v : Bride) : (s.setBride b v).attn = s.attn := rfl
@[simp] theorem State.setBride_knots (s : State) (b : Nat) (v : Bride) : (s.setBride b v).knots = s.knots := rfl
@[simp] theorem State.setBride_thermal (s : State) (b : Nat) (v : Bride) : (s.setBride b v).thermal = s.thermal := rfl
@[simp] theorem State.setBride_fw (s : State) (b : Nat) (v : Bride) : (s.setBride b v).fw = s.fw := rfl
@[simp] theorem State.setBride_cfg (s : State) (b : Nat) (v : Bride) : (s.setBride b v).cfg = s.cfg := rfl
@[simp] theorem State.setBride_islands (s : State) (b : Nat) (v : Bride) : (s.setBride b v).islands = s.islands := rfl
@[simp] theorem State.setBride_take (s : State) (b : Nat) (v : Bride) : (s.setBride b v).take = s.take := rfl
@[simp] theorem State.setBride_draws (s : State) (b : Nat) (v : Bride) : (s.setBride b v).draws = s.draws := rfl
@[simp] theorem State.setBride_pending (s : State) (b : Nat) (v : Bride) : (s.setBride b v).pending = s.pending := rfl

@[simp] theorem State.setSensor_boxes (s : State) (i : Nat) (v : Sensor) : (s.setSensor i v).boxes = s.boxes := rfl
@[simp] theorem State.setSensor_port (s : State) (i : Nat) (v : Sensor) : (s.setSensor i v).port = s.port := rfl
@[simp] theorem State.setSensor_log (s : State) (i : Nat) (v : Sensor) : (s.setSensor i v).log = s.log := rfl
@[simp] theorem State.setSensor_counters (s : State) (i : Nat) (v : Sensor) : (s.setSensor i v).counters = s.counters := rfl
@[simp] theorem State.setSensor_monitor (s : State) (i : Nat) (v : Sensor) : (s.setSensor i v).monitor = s.monitor := rfl
@[simp] theorem State.setSensor_time (s : State) (i : Nat) (v : Sensor) : (s.setSensor i v).time = s.time := rfl
@[simp] theorem State.setSensor_start (s : State) (i : Nat) (v : Sensor) : (s.setSensor i v).start = s.start := rfl
@[simp] theorem State.setSensor_mem (s : State) (i : Nat) (v : Sensor) : (s.setSensor i v).mem = s.mem := rfl
@[simp] theorem State.setSensor_arrays (s : State) (i : Nat) (v : Sensor) : (s.setSensor i v).arrays = s.arrays := rfl
@[simp] theorem State.setSensor_motifs (s : State) (i : Nat) (v : Sensor) : (s.setSensor i v).motifs = s.motifs := rfl
@[simp] theorem State.setSensor_seqs (s : State) (i : Nat) (v : Sensor) : (s.setSensor i v).seqs = s.seqs := rfl
@[simp] theorem State.setSensor_steps (s : State) (i : Nat) (v : Sensor) : (s.setSensor i v).steps = s.steps := rfl
@[simp] theorem State.setSensor_data (s : State) (i : Nat) (v : Sensor) : (s.setSensor i v).data = s.data := rfl
@[simp] theorem State.setSensor_attn (s : State) (i : Nat) (v : Sensor) : (s.setSensor i v).attn = s.attn := rfl
@[simp] theorem State.setSensor_knots (s : State) (i : Nat) (v : Sensor) : (s.setSensor i v).knots = s.knots := rfl
@[simp] theorem State.setSensor_fabric (s : State) (i : Nat) (v : Sensor) : (s.setSensor i v).fabric = s.fabric := rfl
@[simp] theorem State.setSensor_fw (s : State) (i : Nat) (v : Sensor) : (s.setSensor i v).fw = s.fw := rfl
@[simp] theorem State.setSensor_cfg (s : State) (i : Nat) (v : Sensor) : (s.setSensor i v).cfg = s.cfg := rfl
@[simp] theorem State.setSensor_islands (s : State) (i : Nat) (v : Sensor) : (s.setSensor i v).islands = s.islands := rfl
@[simp] theorem State.setSensor_take (s : State) (i : Nat) (v : Sensor) : (s.setSensor i v).take = s.take := rfl
@[simp] theorem State.setSensor_draws (s : State) (i : Nat) (v : Sensor) : (s.setSensor i v).draws = s.draws := rfl
@[simp] theorem State.setSensor_pending (s : State) (i : Nat) (v : Sensor) : (s.setSensor i v).pending = s.pending := rfl

@[simp] theorem State.setIsland_boxes (s : State) (i : Nat) (v : Island) : (s.setIsland i v).boxes = s.boxes := rfl
@[simp] theorem State.setIsland_port (s : State) (i : Nat) (v : Island) : (s.setIsland i v).port = s.port := rfl
@[simp] theorem State.setIsland_log (s : State) (i : Nat) (v : Island) : (s.setIsland i v).log = s.log := rfl
@[simp] theorem State.setIsland_counters (s : State) (i : Nat) (v : Island) : (s.setIsland i v).counters = s.counters := rfl
@[simp] theorem State.setIsland_monitor (s : State) (i : Nat) (v : Island) : (s.setIsland i v).monitor = s.monitor := rfl
@[simp] theorem State.setIsland_time (s : State) (i : Nat) (v : Island) : (s.setIsland i v).time = s.time := rfl
@[simp] theorem State.setIsland_start (s : State) (i : Nat) (v : Island) : (s.setIsland i v).start = s.start := rfl
@[simp] theorem State.setIsland_mem (s : State) (i : Nat) (v : Island) : (s.setIsland i v).mem = s.mem := rfl
@[simp] theorem State.setIsland_arrays (s : State) (i : Nat) (v : Island) : (s.setIsland i v).arrays = s.arrays := rfl
@[simp] theorem State.setIsland_motifs (s : State) (i : Nat) (v : Island) : (s.setIsland i v).motifs = s.motifs := rfl
@[simp] theorem State.setIsland_seqs (s : State) (i : Nat) (v : Island) : (s.setIsland i v).seqs = s.seqs := rfl
@[simp] theorem State.setIsland_steps (s : State) (i : Nat) (v : Island) : (s.setIsland i v).steps = s.steps := rfl
@[simp] theorem State.setIsland_data (s : State) (i : Nat) (v : Island) : (s.setIsland i v).data = s.data := rfl
@[simp] theorem State.setIsland_attn (s : State) (i : Nat) (v : Island) : (s.setIsland i v).attn = s.attn := rfl
@[simp] theorem State.setIsland_knots (s : State) (i : Nat) (v : Island) : (s.setIsland i v).knots = s.knots := rfl
@[simp] theorem State.setIsland_fabric (s : State) (i : Nat) (v : Island) : (s.setIsland i v).fabric = s.fabric := rfl
@[simp] theorem State.setIsland_thermal (s : State) (i : Nat) (v : Island) : (s.setIsland i v).thermal = s.thermal := rfl
@[simp] theorem State.setIsland_fw (s : State) (i : Nat) (v : Island) : (s.setIsland i v).fw = s.fw := rfl
@[simp] theorem State.setIsland_cfg (s : State) (i : Nat) (v : Island) : (s.setIsland i v).cfg = s.cfg := rfl
@[simp] theorem State.setIsland_take (s : State) (i : Nat) (v : Island) : (s.setIsland i v).take = s.take := rfl
@[simp] theorem State.setIsland_draws (s : State) (i : Nat) (v : Island) : (s.setIsland i v).draws = s.draws := rfl
@[simp] theorem State.setIsland_pending (s : State) (i : Nat) (v : Island) : (s.setIsland i v).pending = s.pending := rfl

@[simp] theorem State.setMonEntry_boxes (s : State) (i : Nat) (v : MonEntry) : (s.setMonEntry i v).boxes = s.boxes := rfl
@[simp] theorem State.setMonEntry_port (s : State) (i : Nat) (v : MonEntry) : (s.setMonEntry i v).port = s.port := rfl
@[simp] theorem State.setMonEntry_log (s : State) (i : Nat) (v : MonEntry) : (s.setMonEntry i v).log = s.log := rfl
@[simp] theorem State.setMonEntry_counters (s : State) (i : Nat) (v : MonEntry) : (s.setMonEntry i v).counters = s.counters := rfl
@[simp] theorem State.setMonEntry_time (s : State) (i : Nat) (v : MonEntry) : (s.setMonEntry i v).time = s.time := rfl
@[simp] theorem State.setMonEntry_start (s : State) (i : Nat) (v : MonEntry) : (s.setMonEntry i v).start = s.start := rfl
@[simp] theorem State.setMonEntry_mem (s : State) (i : Nat) (v : MonEntry) : (s.setMonEntry i v).mem = s.mem := rfl
@[simp] theorem State.setMonEntry_arrays (s : State) (i : Nat) (v : MonEntry) : (s.setMonEntry i v).arrays = s.arrays := rfl
@[simp] theorem State.setMonEntry_motifs (s : State) (i : Nat) (v : MonEntry) : (s.setMonEntry i v).motifs = s.motifs := rfl
@[simp] theorem State.setMonEntry_seqs (s : State) (i : Nat) (v : MonEntry) : (s.setMonEntry i v).seqs = s.seqs := rfl
@[simp] theorem State.setMonEntry_steps (s : State) (i : Nat) (v : MonEntry) : (s.setMonEntry i v).steps = s.steps := rfl
@[simp] theorem State.setMonEntry_data (s : State) (i : Nat) (v : MonEntry) : (s.setMonEntry i v).data = s.data := rfl
@[simp] theorem State.setMonEntry_attn (s : State) (i : Nat) (v : MonEntry) : (s.setMonEntry i v).attn = s.attn := rfl
@[simp] theorem State.setMonEntry_knots (s : State) (i : Nat) (v : MonEntry) : (s.setMonEntry i v).knots = s.knots := rfl
@[simp] theorem State.setMonEntry_fabric (s : State) (i : Nat) (v : MonEntry) : (s.setMonEntry i v).fabric = s.fabric := rfl
@[simp] theorem State.setMonEntry_thermal (s : State) (i : Nat) (v : MonEntry) : (s.setMonEntry i v).thermal = s.thermal := rfl
@[simp] theorem State.setMonEntry_fw (s : State) (i : Nat) (v : MonEntry) : (s.setMonEntry i v).fw = s.fw := rfl
@[simp] theorem State.setMonEntry_cfg (s : State) (i : Nat) (v : MonEntry) : (s.setMonEntry i v).cfg = s.cfg := rfl
@[simp] theorem State.setMonEntry_islands (s : State) (i : Nat) (v : MonEntry) : (s.setMonEntry i v).islands = s.islands := rfl
@[simp] theorem State.setMonEntry_take (s : State) (i : Nat) (v : MonEntry) : (s.setMonEntry i v).take = s.take := rfl
@[simp] theorem State.setMonEntry_draws (s : State) (i : Nat) (v : MonEntry) : (s.setMonEntry i v).draws = s.draws := rfl
@[simp] theorem State.setMonEntry_pending (s : State) (i : Nat) (v : MonEntry) : (s.setMonEntry i v).pending = s.pending := rfl

@[simp] theorem State.toHost_boxes (s : State) (o : HostOut) : (s.toHost o).boxes = s.boxes := rfl
@[simp] theorem State.toHost_log (s : State) (o : HostOut) : (s.toHost o).log = s.log := rfl
@[simp] theorem State.toHost_counters (s : State) (o : HostOut) : (s.toHost o).counters = s.counters := rfl
@[simp] theorem State.toHost_monitor (s : State) (o : HostOut) : (s.toHost o).monitor = s.monitor := rfl
@[simp] theorem State.toHost_time (s : State) (o : HostOut) : (s.toHost o).time = s.time := rfl
@[simp] theorem State.toHost_start (s : State) (o : HostOut) : (s.toHost o).start = s.start := rfl
@[simp] theorem State.toHost_mem (s : State) (o : HostOut) : (s.toHost o).mem = s.mem := rfl
@[simp] theorem State.toHost_arrays (s : State) (o : HostOut) : (s.toHost o).arrays = s.arrays := rfl
@[simp] theorem State.toHost_motifs (s : State) (o : HostOut) : (s.toHost o).motifs = s.motifs := rfl
@[simp] theorem State.toHost_seqs (s : State) (o : HostOut) : (s.toHost o).seqs = s.seqs := rfl
@[simp] theorem State.toHost_steps (s : State) (o : HostOut) : (s.toHost o).steps = s.steps := rfl
@[simp] theorem State.toHost_data (s : State) (o : HostOut) : (s.toHost o).data = s.data := rfl
@[simp] theorem State.toHost_attn (s : State) (o : HostOut) : (s.toHost o).attn = s.attn := rfl
@[simp] theorem State.toHost_knots (s : State) (o : HostOut) : (s.toHost o).knots = s.knots := rfl
@[simp] theorem State.toHost_fabric (s : State) (o : HostOut) : (s.toHost o).fabric = s.fabric := rfl
@[simp] theorem State.toHost_thermal (s : State) (o : HostOut) : (s.toHost o).thermal = s.thermal := rfl
@[simp] theorem State.toHost_fw (s : State) (o : HostOut) : (s.toHost o).fw = s.fw := rfl
@[simp] theorem State.toHost_cfg (s : State) (o : HostOut) : (s.toHost o).cfg = s.cfg := rfl
@[simp] theorem State.toHost_islands (s : State) (o : HostOut) : (s.toHost o).islands = s.islands := rfl
@[simp] theorem State.toHost_take (s : State) (o : HostOut) : (s.toHost o).take = s.take := rfl
@[simp] theorem State.toHost_draws (s : State) (o : HostOut) : (s.toHost o).draws = s.draws := rfl
@[simp] theorem State.toHost_pending (s : State) (o : HostOut) : (s.toHost o).pending = s.pending := rfl

@[simp] theorem State.count_boxes (s : State) (f : Counters → Counters) : (s.count f).boxes = s.boxes := rfl
@[simp] theorem State.count_port (s : State) (f : Counters → Counters) : (s.count f).port = s.port := rfl
@[simp] theorem State.count_log (s : State) (f : Counters → Counters) : (s.count f).log = s.log := rfl
@[simp] theorem State.count_monitor (s : State) (f : Counters → Counters) : (s.count f).monitor = s.monitor := rfl
@[simp] theorem State.count_time (s : State) (f : Counters → Counters) : (s.count f).time = s.time := rfl
@[simp] theorem State.count_start (s : State) (f : Counters → Counters) : (s.count f).start = s.start := rfl
@[simp] theorem State.count_mem (s : State) (f : Counters → Counters) : (s.count f).mem = s.mem := rfl
@[simp] theorem State.count_arrays (s : State) (f : Counters → Counters) : (s.count f).arrays = s.arrays := rfl
@[simp] theorem State.count_motifs (s : State) (f : Counters → Counters) : (s.count f).motifs = s.motifs := rfl
@[simp] theorem State.count_seqs (s : State) (f : Counters → Counters) : (s.count f).seqs = s.seqs := rfl
@[simp] theorem State.count_steps (s : State) (f : Counters → Counters) : (s.count f).steps = s.steps := rfl
@[simp] theorem State.count_data (s : State) (f : Counters → Counters) : (s.count f).data = s.data := rfl
@[simp] theorem State.count_attn (s : State) (f : Counters → Counters) : (s.count f).attn = s.attn := rfl
@[simp] theorem State.count_knots (s : State) (f : Counters → Counters) : (s.count f).knots = s.knots := rfl
@[simp] theorem State.count_fabric (s : State) (f : Counters → Counters) : (s.count f).fabric = s.fabric := rfl
@[simp] theorem State.count_thermal (s : State) (f : Counters → Counters) : (s.count f).thermal = s.thermal := rfl
@[simp] theorem State.count_fw (s : State) (f : Counters → Counters) : (s.count f).fw = s.fw := rfl
@[simp] theorem State.count_cfg (s : State) (f : Counters → Counters) : (s.count f).cfg = s.cfg := rfl
@[simp] theorem State.count_islands (s : State) (f : Counters → Counters) : (s.count f).islands = s.islands := rfl
@[simp] theorem State.count_take (s : State) (f : Counters → Counters) : (s.count f).take = s.take := rfl
@[simp] theorem State.count_draws (s : State) (f : Counters → Counters) : (s.count f).draws = s.draws := rfl
@[simp] theorem State.count_pending (s : State) (f : Counters → Counters) : (s.count f).pending = s.pending := rfl

@[simp] theorem State.update_port (s : State) (m : Nat) (f : Mailbox → Mailbox) : (s.update m f).port = s.port := rfl
@[simp] theorem State.update_log (s : State) (m : Nat) (f : Mailbox → Mailbox) : (s.update m f).log = s.log := rfl
@[simp] theorem State.update_counters (s : State) (m : Nat) (f : Mailbox → Mailbox) : (s.update m f).counters = s.counters := rfl
@[simp] theorem State.update_monitor (s : State) (m : Nat) (f : Mailbox → Mailbox) : (s.update m f).monitor = s.monitor := rfl
@[simp] theorem State.update_time (s : State) (m : Nat) (f : Mailbox → Mailbox) : (s.update m f).time = s.time := rfl
@[simp] theorem State.update_start (s : State) (m : Nat) (f : Mailbox → Mailbox) : (s.update m f).start = s.start := rfl
@[simp] theorem State.update_mem (s : State) (m : Nat) (f : Mailbox → Mailbox) : (s.update m f).mem = s.mem := rfl
@[simp] theorem State.update_arrays (s : State) (m : Nat) (f : Mailbox → Mailbox) : (s.update m f).arrays = s.arrays := rfl
@[simp] theorem State.update_motifs (s : State) (m : Nat) (f : Mailbox → Mailbox) : (s.update m f).motifs = s.motifs := rfl
@[simp] theorem State.update_seqs (s : State) (m : Nat) (f : Mailbox → Mailbox) : (s.update m f).seqs = s.seqs := rfl
@[simp] theorem State.update_steps (s : State) (m : Nat) (f : Mailbox → Mailbox) : (s.update m f).steps = s.steps := rfl
@[simp] theorem State.update_data (s : State) (m : Nat) (f : Mailbox → Mailbox) : (s.update m f).data = s.data := rfl
@[simp] theorem State.update_attn (s : State) (m : Nat) (f : Mailbox → Mailbox) : (s.update m f).attn = s.attn := rfl
@[simp] theorem State.update_knots (s : State) (m : Nat) (f : Mailbox → Mailbox) : (s.update m f).knots = s.knots := rfl
@[simp] theorem State.update_fabric (s : State) (m : Nat) (f : Mailbox → Mailbox) : (s.update m f).fabric = s.fabric := rfl
@[simp] theorem State.update_thermal (s : State) (m : Nat) (f : Mailbox → Mailbox) : (s.update m f).thermal = s.thermal := rfl
@[simp] theorem State.update_fw (s : State) (m : Nat) (f : Mailbox → Mailbox) : (s.update m f).fw = s.fw := rfl
@[simp] theorem State.update_cfg (s : State) (m : Nat) (f : Mailbox → Mailbox) : (s.update m f).cfg = s.cfg := rfl
@[simp] theorem State.update_islands (s : State) (m : Nat) (f : Mailbox → Mailbox) : (s.update m f).islands = s.islands := rfl
@[simp] theorem State.update_take (s : State) (m : Nat) (f : Mailbox → Mailbox) : (s.update m f).take = s.take := rfl
@[simp] theorem State.update_draws (s : State) (m : Nat) (f : Mailbox → Mailbox) : (s.update m f).draws = s.draws := rfl
@[simp] theorem State.update_pending (s : State) (m : Nat) (f : Mailbox → Mailbox) : (s.update m f).pending = s.pending := rfl

@[simp] theorem State.setCmd_port (s : State) (m : Nat) (f : Cmd → Cmd) : (s.setCmd m f).port = s.port := rfl
@[simp] theorem State.setCmd_log (s : State) (m : Nat) (f : Cmd → Cmd) : (s.setCmd m f).log = s.log := rfl
@[simp] theorem State.setCmd_counters (s : State) (m : Nat) (f : Cmd → Cmd) : (s.setCmd m f).counters = s.counters := rfl
@[simp] theorem State.setCmd_monitor (s : State) (m : Nat) (f : Cmd → Cmd) : (s.setCmd m f).monitor = s.monitor := rfl
@[simp] theorem State.setCmd_time (s : State) (m : Nat) (f : Cmd → Cmd) : (s.setCmd m f).time = s.time := rfl
@[simp] theorem State.setCmd_start (s : State) (m : Nat) (f : Cmd → Cmd) : (s.setCmd m f).start = s.start := rfl
@[simp] theorem State.setCmd_mem (s : State) (m : Nat) (f : Cmd → Cmd) : (s.setCmd m f).mem = s.mem := rfl
@[simp] theorem State.setCmd_arrays (s : State) (m : Nat) (f : Cmd → Cmd) : (s.setCmd m f).arrays = s.arrays := rfl
@[simp] theorem State.setCmd_motifs (s : State) (m : Nat) (f : Cmd → Cmd) : (s.setCmd m f).motifs = s.motifs := rfl
@[simp] theorem State.setCmd_seqs (s : State) (m : Nat) (f : Cmd → Cmd) : (s.setCmd m f).seqs = s.seqs := rfl
@[simp] theorem State.setCmd_steps (s : State) (m : Nat) (f : Cmd → Cmd) : (s.setCmd m f).steps = s.steps := rfl
@[simp] theorem State.setCmd_data (s : State) (m : Nat) (f : Cmd → Cmd) : (s.setCmd m f).data = s.data := rfl
@[simp] theorem State.setCmd_attn (s : State) (m : Nat) (f : Cmd → Cmd) : (s.setCmd m f).attn = s.attn := rfl
@[simp] theorem State.setCmd_knots (s : State) (m : Nat) (f : Cmd → Cmd) : (s.setCmd m f).knots = s.knots := rfl
@[simp] theorem State.setCmd_fabric (s : State) (m : Nat) (f : Cmd → Cmd) : (s.setCmd m f).fabric = s.fabric := rfl
@[simp] theorem State.setCmd_thermal (s : State) (m : Nat) (f : Cmd → Cmd) : (s.setCmd m f).thermal = s.thermal := rfl
@[simp] theorem State.setCmd_fw (s : State) (m : Nat) (f : Cmd → Cmd) : (s.setCmd m f).fw = s.fw := rfl
@[simp] theorem State.setCmd_cfg (s : State) (m : Nat) (f : Cmd → Cmd) : (s.setCmd m f).cfg = s.cfg := rfl
@[simp] theorem State.setCmd_islands (s : State) (m : Nat) (f : Cmd → Cmd) : (s.setCmd m f).islands = s.islands := rfl
@[simp] theorem State.setCmd_take (s : State) (m : Nat) (f : Cmd → Cmd) : (s.setCmd m f).take = s.take := rfl
@[simp] theorem State.setCmd_draws (s : State) (m : Nat) (f : Cmd → Cmd) : (s.setCmd m f).draws = s.draws := rfl
@[simp] theorem State.setCmd_pending (s : State) (m : Nat) (f : Cmd → Cmd) : (s.setCmd m f).pending = s.pending := rfl

@[simp] theorem State.markSlows_port (s : State) (m q : Nat) (w : BitVec 16) : (s.markSlows m q w).port = s.port :=
  by unfold State.markSlows; refine (foldl_keeps (fun t : State => t.port) _ ?_ _ _).trans ?_ <;> intros <;> rfl
@[simp] theorem State.markSlows_log (s : State) (m q : Nat) (w : BitVec 16) : (s.markSlows m q w).log = s.log :=
  by unfold State.markSlows; refine (foldl_keeps (fun t : State => t.log) _ ?_ _ _).trans ?_ <;> intros <;> rfl
@[simp] theorem State.markSlows_counters (s : State) (m q : Nat) (w : BitVec 16) : (s.markSlows m q w).counters = s.counters :=
  by unfold State.markSlows; refine (foldl_keeps (fun t : State => t.counters) _ ?_ _ _).trans ?_ <;> intros <;> rfl
@[simp] theorem State.markSlows_monitor (s : State) (m q : Nat) (w : BitVec 16) : (s.markSlows m q w).monitor = s.monitor :=
  by unfold State.markSlows; refine (foldl_keeps (fun t : State => t.monitor) _ ?_ _ _).trans ?_ <;> intros <;> rfl
@[simp] theorem State.markSlows_time (s : State) (m q : Nat) (w : BitVec 16) : (s.markSlows m q w).time = s.time :=
  by unfold State.markSlows; refine (foldl_keeps (fun t : State => t.time) _ ?_ _ _).trans ?_ <;> intros <;> rfl
@[simp] theorem State.markSlows_start (s : State) (m q : Nat) (w : BitVec 16) : (s.markSlows m q w).start = s.start :=
  by unfold State.markSlows; refine (foldl_keeps (fun t : State => t.start) _ ?_ _ _).trans ?_ <;> intros <;> rfl
@[simp] theorem State.markSlows_mem (s : State) (m q : Nat) (w : BitVec 16) : (s.markSlows m q w).mem = s.mem :=
  by unfold State.markSlows; refine (foldl_keeps (fun t : State => t.mem) _ ?_ _ _).trans ?_ <;> intros <;> rfl
@[simp] theorem State.markSlows_arrays (s : State) (m q : Nat) (w : BitVec 16) : (s.markSlows m q w).arrays = s.arrays :=
  by unfold State.markSlows; refine (foldl_keeps (fun t : State => t.arrays) _ ?_ _ _).trans ?_ <;> intros <;> rfl
@[simp] theorem State.markSlows_motifs (s : State) (m q : Nat) (w : BitVec 16) : (s.markSlows m q w).motifs = s.motifs :=
  by unfold State.markSlows; refine (foldl_keeps (fun t : State => t.motifs) _ ?_ _ _).trans ?_ <;> intros <;> rfl
@[simp] theorem State.markSlows_steps (s : State) (m q : Nat) (w : BitVec 16) : (s.markSlows m q w).steps = s.steps :=
  by unfold State.markSlows; refine (foldl_keeps (fun t : State => t.steps) _ ?_ _ _).trans ?_ <;> intros <;> rfl
@[simp] theorem State.markSlows_data (s : State) (m q : Nat) (w : BitVec 16) : (s.markSlows m q w).data = s.data :=
  by unfold State.markSlows; refine (foldl_keeps (fun t : State => t.data) _ ?_ _ _).trans ?_ <;> intros <;> rfl
@[simp] theorem State.markSlows_attn (s : State) (m q : Nat) (w : BitVec 16) : (s.markSlows m q w).attn = s.attn :=
  by unfold State.markSlows; refine (foldl_keeps (fun t : State => t.attn) _ ?_ _ _).trans ?_ <;> intros <;> rfl
@[simp] theorem State.markSlows_knots (s : State) (m q : Nat) (w : BitVec 16) : (s.markSlows m q w).knots = s.knots :=
  by unfold State.markSlows; refine (foldl_keeps (fun t : State => t.knots) _ ?_ _ _).trans ?_ <;> intros <;> rfl
@[simp] theorem State.markSlows_fabric (s : State) (m q : Nat) (w : BitVec 16) : (s.markSlows m q w).fabric = s.fabric :=
  by unfold State.markSlows; refine (foldl_keeps (fun t : State => t.fabric) _ ?_ _ _).trans ?_ <;> intros <;> rfl
@[simp] theorem State.markSlows_thermal (s : State) (m q : Nat) (w : BitVec 16) : (s.markSlows m q w).thermal = s.thermal :=
  by unfold State.markSlows; refine (foldl_keeps (fun t : State => t.thermal) _ ?_ _ _).trans ?_ <;> intros <;> rfl
@[simp] theorem State.markSlows_fw (s : State) (m q : Nat) (w : BitVec 16) : (s.markSlows m q w).fw = s.fw :=
  by unfold State.markSlows; refine (foldl_keeps (fun t : State => t.fw) _ ?_ _ _).trans ?_ <;> intros <;> rfl
@[simp] theorem State.markSlows_cfg (s : State) (m q : Nat) (w : BitVec 16) : (s.markSlows m q w).cfg = s.cfg :=
  by unfold State.markSlows; refine (foldl_keeps (fun t : State => t.cfg) _ ?_ _ _).trans ?_ <;> intros <;> rfl
@[simp] theorem State.markSlows_islands (s : State) (m q : Nat) (w : BitVec 16) : (s.markSlows m q w).islands = s.islands :=
  by unfold State.markSlows; refine (foldl_keeps (fun t : State => t.islands) _ ?_ _ _).trans ?_ <;> intros <;> rfl
@[simp] theorem State.markSlows_take (s : State) (m q : Nat) (w : BitVec 16) : (s.markSlows m q w).take = s.take :=
  by unfold State.markSlows; refine (foldl_keeps (fun t : State => t.take) _ ?_ _ _).trans ?_ <;> intros <;> rfl
@[simp] theorem State.markSlows_draws (s : State) (m q : Nat) (w : BitVec 16) : (s.markSlows m q w).draws = s.draws :=
  by unfold State.markSlows; refine (foldl_keeps (fun t : State => t.draws) _ ?_ _ _).trans ?_ <;> intros <;> rfl
@[simp] theorem State.markSlows_pending (s : State) (m q : Nat) (w : BitVec 16) : (s.markSlows m q w).pending = s.pending :=
  by unfold State.markSlows; refine (foldl_keeps (fun t : State => t.pending) _ ?_ _ _).trans ?_ <;> intros <;> rfl

@[simp] theorem State.markSlow_port (s : State) (m q c : Nat) : (s.markSlow m q c).port = s.port := by simp [State.markSlow]
@[simp] theorem State.markSlow_log (s : State) (m q c : Nat) : (s.markSlow m q c).log = s.log := by simp [State.markSlow]
@[simp] theorem State.markSlow_counters (s : State) (m q c : Nat) : (s.markSlow m q c).counters = s.counters := by simp [State.markSlow]
@[simp] theorem State.markSlow_monitor (s : State) (m q c : Nat) : (s.markSlow m q c).monitor = s.monitor := by simp [State.markSlow]
@[simp] theorem State.markSlow_time (s : State) (m q c : Nat) : (s.markSlow m q c).time = s.time := by simp [State.markSlow]
@[simp] theorem State.markSlow_start (s : State) (m q c : Nat) : (s.markSlow m q c).start = s.start := by simp [State.markSlow]
@[simp] theorem State.markSlow_mem (s : State) (m q c : Nat) : (s.markSlow m q c).mem = s.mem := by simp [State.markSlow]
@[simp] theorem State.markSlow_arrays (s : State) (m q c : Nat) : (s.markSlow m q c).arrays = s.arrays := by simp [State.markSlow]
@[simp] theorem State.markSlow_motifs (s : State) (m q c : Nat) : (s.markSlow m q c).motifs = s.motifs := by simp [State.markSlow]
@[simp] theorem State.markSlow_steps (s : State) (m q c : Nat) : (s.markSlow m q c).steps = s.steps := by simp [State.markSlow]
@[simp] theorem State.markSlow_data (s : State) (m q c : Nat) : (s.markSlow m q c).data = s.data := by simp [State.markSlow]
@[simp] theorem State.markSlow_attn (s : State) (m q c : Nat) : (s.markSlow m q c).attn = s.attn := by simp [State.markSlow]
@[simp] theorem State.markSlow_knots (s : State) (m q c : Nat) : (s.markSlow m q c).knots = s.knots := by simp [State.markSlow]
@[simp] theorem State.markSlow_fabric (s : State) (m q c : Nat) : (s.markSlow m q c).fabric = s.fabric := by simp [State.markSlow]
@[simp] theorem State.markSlow_thermal (s : State) (m q c : Nat) : (s.markSlow m q c).thermal = s.thermal := by simp [State.markSlow]
@[simp] theorem State.markSlow_fw (s : State) (m q c : Nat) : (s.markSlow m q c).fw = s.fw := by simp [State.markSlow]
@[simp] theorem State.markSlow_cfg (s : State) (m q c : Nat) : (s.markSlow m q c).cfg = s.cfg := by simp [State.markSlow]
@[simp] theorem State.markSlow_islands (s : State) (m q c : Nat) : (s.markSlow m q c).islands = s.islands := by simp [State.markSlow]
@[simp] theorem State.markSlow_take (s : State) (m q c : Nat) : (s.markSlow m q c).take = s.take := by simp [State.markSlow]
@[simp] theorem State.markSlow_draws (s : State) (m q c : Nat) : (s.markSlow m q c).draws = s.draws := by simp [State.markSlow]
@[simp] theorem State.markSlow_pending (s : State) (m q c : Nat) : (s.markSlow m q c).pending = s.pending := by simp [State.markSlow]

@[simp] theorem State.setTarget_port (s : State) (m n : Nat) : (s.setTarget m n).port = s.port := rfl
@[simp] theorem State.setTarget_log (s : State) (m n : Nat) : (s.setTarget m n).log = s.log := rfl
@[simp] theorem State.setTarget_counters (s : State) (m n : Nat) : (s.setTarget m n).counters = s.counters := rfl
@[simp] theorem State.setTarget_monitor (s : State) (m n : Nat) : (s.setTarget m n).monitor = s.monitor := rfl
@[simp] theorem State.setTarget_time (s : State) (m n : Nat) : (s.setTarget m n).time = s.time := rfl
@[simp] theorem State.setTarget_start (s : State) (m n : Nat) : (s.setTarget m n).start = s.start := rfl
@[simp] theorem State.setTarget_mem (s : State) (m n : Nat) : (s.setTarget m n).mem = s.mem := rfl
@[simp] theorem State.setTarget_arrays (s : State) (m n : Nat) : (s.setTarget m n).arrays = s.arrays := rfl
@[simp] theorem State.setTarget_motifs (s : State) (m n : Nat) : (s.setTarget m n).motifs = s.motifs := rfl
@[simp] theorem State.setTarget_seqs (s : State) (m n : Nat) : (s.setTarget m n).seqs = s.seqs := rfl
@[simp] theorem State.setTarget_steps (s : State) (m n : Nat) : (s.setTarget m n).steps = s.steps := rfl
@[simp] theorem State.setTarget_data (s : State) (m n : Nat) : (s.setTarget m n).data = s.data := rfl
@[simp] theorem State.setTarget_attn (s : State) (m n : Nat) : (s.setTarget m n).attn = s.attn := rfl
@[simp] theorem State.setTarget_knots (s : State) (m n : Nat) : (s.setTarget m n).knots = s.knots := rfl
@[simp] theorem State.setTarget_fabric (s : State) (m n : Nat) : (s.setTarget m n).fabric = s.fabric := rfl
@[simp] theorem State.setTarget_thermal (s : State) (m n : Nat) : (s.setTarget m n).thermal = s.thermal := rfl
@[simp] theorem State.setTarget_fw (s : State) (m n : Nat) : (s.setTarget m n).fw = s.fw := rfl
@[simp] theorem State.setTarget_cfg (s : State) (m n : Nat) : (s.setTarget m n).cfg = s.cfg := rfl
@[simp] theorem State.setTarget_islands (s : State) (m n : Nat) : (s.setTarget m n).islands = s.islands := rfl
@[simp] theorem State.setTarget_take (s : State) (m n : Nat) : (s.setTarget m n).take = s.take := rfl
@[simp] theorem State.setTarget_draws (s : State) (m n : Nat) : (s.setTarget m n).draws = s.draws := rfl
@[simp] theorem State.setTarget_pending (s : State) (m n : Nat) : (s.setTarget m n).pending = s.pending := rfl

@[simp] theorem State.setProgress_port (s : State) (m n : Nat) : (s.setProgress m n).port = s.port := rfl
@[simp] theorem State.setProgress_log (s : State) (m n : Nat) : (s.setProgress m n).log = s.log := rfl
@[simp] theorem State.setProgress_counters (s : State) (m n : Nat) : (s.setProgress m n).counters = s.counters := rfl
@[simp] theorem State.setProgress_monitor (s : State) (m n : Nat) : (s.setProgress m n).monitor = s.monitor := rfl
@[simp] theorem State.setProgress_time (s : State) (m n : Nat) : (s.setProgress m n).time = s.time := rfl
@[simp] theorem State.setProgress_start (s : State) (m n : Nat) : (s.setProgress m n).start = s.start := rfl
@[simp] theorem State.setProgress_mem (s : State) (m n : Nat) : (s.setProgress m n).mem = s.mem := rfl
@[simp] theorem State.setProgress_arrays (s : State) (m n : Nat) : (s.setProgress m n).arrays = s.arrays := rfl
@[simp] theorem State.setProgress_motifs (s : State) (m n : Nat) : (s.setProgress m n).motifs = s.motifs := rfl
@[simp] theorem State.setProgress_seqs (s : State) (m n : Nat) : (s.setProgress m n).seqs = s.seqs := rfl
@[simp] theorem State.setProgress_steps (s : State) (m n : Nat) : (s.setProgress m n).steps = s.steps := rfl
@[simp] theorem State.setProgress_data (s : State) (m n : Nat) : (s.setProgress m n).data = s.data := rfl
@[simp] theorem State.setProgress_attn (s : State) (m n : Nat) : (s.setProgress m n).attn = s.attn := rfl
@[simp] theorem State.setProgress_knots (s : State) (m n : Nat) : (s.setProgress m n).knots = s.knots := rfl
@[simp] theorem State.setProgress_fabric (s : State) (m n : Nat) : (s.setProgress m n).fabric = s.fabric := rfl
@[simp] theorem State.setProgress_thermal (s : State) (m n : Nat) : (s.setProgress m n).thermal = s.thermal := rfl
@[simp] theorem State.setProgress_fw (s : State) (m n : Nat) : (s.setProgress m n).fw = s.fw := rfl
@[simp] theorem State.setProgress_cfg (s : State) (m n : Nat) : (s.setProgress m n).cfg = s.cfg := rfl
@[simp] theorem State.setProgress_islands (s : State) (m n : Nat) : (s.setProgress m n).islands = s.islands := rfl
@[simp] theorem State.setProgress_take (s : State) (m n : Nat) : (s.setProgress m n).take = s.take := rfl
@[simp] theorem State.setProgress_draws (s : State) (m n : Nat) : (s.setProgress m n).draws = s.draws := rfl
@[simp] theorem State.setProgress_pending (s : State) (m n : Nat) : (s.setProgress m n).pending = s.pending := rfl

@[simp] theorem State.event_boxes (s : State) (e : Event) : (s.event e).boxes = s.boxes := by unfold State.event; split <;> rfl
@[simp] theorem State.event_port (s : State) (e : Event) : (s.event e).port = s.port := by unfold State.event; split <;> rfl
@[simp] theorem State.event_counters (s : State) (e : Event) : (s.event e).counters = s.counters := by unfold State.event; split <;> rfl
@[simp] theorem State.event_monitor (s : State) (e : Event) : (s.event e).monitor = s.monitor := by unfold State.event; split <;> rfl
@[simp] theorem State.event_time (s : State) (e : Event) : (s.event e).time = s.time := by unfold State.event; split <;> rfl
@[simp] theorem State.event_start (s : State) (e : Event) : (s.event e).start = s.start := by unfold State.event; split <;> rfl
@[simp] theorem State.event_mem (s : State) (e : Event) : (s.event e).mem = s.mem := by unfold State.event; split <;> rfl
@[simp] theorem State.event_arrays (s : State) (e : Event) : (s.event e).arrays = s.arrays := by unfold State.event; split <;> rfl
@[simp] theorem State.event_motifs (s : State) (e : Event) : (s.event e).motifs = s.motifs := by unfold State.event; split <;> rfl
@[simp] theorem State.event_seqs (s : State) (e : Event) : (s.event e).seqs = s.seqs := by unfold State.event; split <;> rfl
@[simp] theorem State.event_steps (s : State) (e : Event) : (s.event e).steps = s.steps := by unfold State.event; split <;> rfl
@[simp] theorem State.event_data (s : State) (e : Event) : (s.event e).data = s.data := by unfold State.event; split <;> rfl
@[simp] theorem State.event_attn (s : State) (e : Event) : (s.event e).attn = s.attn := by unfold State.event; split <;> rfl
@[simp] theorem State.event_knots (s : State) (e : Event) : (s.event e).knots = s.knots := by unfold State.event; split <;> rfl
@[simp] theorem State.event_fabric (s : State) (e : Event) : (s.event e).fabric = s.fabric := by unfold State.event; split <;> rfl
@[simp] theorem State.event_thermal (s : State) (e : Event) : (s.event e).thermal = s.thermal := by unfold State.event; split <;> rfl
@[simp] theorem State.event_fw (s : State) (e : Event) : (s.event e).fw = s.fw := by unfold State.event; split <;> rfl
@[simp] theorem State.event_cfg (s : State) (e : Event) : (s.event e).cfg = s.cfg := by unfold State.event; split <;> rfl
@[simp] theorem State.event_islands (s : State) (e : Event) : (s.event e).islands = s.islands := by unfold State.event; split <;> rfl
@[simp] theorem State.event_take (s : State) (e : Event) : (s.event e).take = s.take := by unfold State.event; split <;> rfl
@[simp] theorem State.event_draws (s : State) (e : Event) : (s.event e).draws = s.draws := by unfold State.event; split <;> rfl
@[simp] theorem State.event_pending (s : State) (e : Event) : (s.event e).pending = s.pending := by unfold State.event; split <;> rfl

@[simp] theorem State.toBride_boxes (s : State) (m : Msg) : (s.toBride m).boxes = s.boxes := by unfold State.toBride; split <;> rfl
@[simp] theorem State.toBride_port (s : State) (m : Msg) : (s.toBride m).port = s.port := by unfold State.toBride; split <;> rfl
@[simp] theorem State.toBride_log (s : State) (m : Msg) : (s.toBride m).log = s.log := by unfold State.toBride; split <;> rfl
@[simp] theorem State.toBride_counters (s : State) (m : Msg) : (s.toBride m).counters = s.counters := by unfold State.toBride; split <;> rfl
@[simp] theorem State.toBride_monitor (s : State) (m : Msg) : (s.toBride m).monitor = s.monitor := by unfold State.toBride; split <;> rfl
@[simp] theorem State.toBride_time (s : State) (m : Msg) : (s.toBride m).time = s.time := by unfold State.toBride; split <;> rfl
@[simp] theorem State.toBride_start (s : State) (m : Msg) : (s.toBride m).start = s.start := by unfold State.toBride; split <;> rfl
@[simp] theorem State.toBride_mem (s : State) (m : Msg) : (s.toBride m).mem = s.mem := by unfold State.toBride; split <;> rfl
@[simp] theorem State.toBride_arrays (s : State) (m : Msg) : (s.toBride m).arrays = s.arrays := by unfold State.toBride; split <;> rfl
@[simp] theorem State.toBride_motifs (s : State) (m : Msg) : (s.toBride m).motifs = s.motifs := by unfold State.toBride; split <;> rfl
@[simp] theorem State.toBride_seqs (s : State) (m : Msg) : (s.toBride m).seqs = s.seqs := by unfold State.toBride; split <;> rfl
@[simp] theorem State.toBride_steps (s : State) (m : Msg) : (s.toBride m).steps = s.steps := by unfold State.toBride; split <;> rfl
@[simp] theorem State.toBride_data (s : State) (m : Msg) : (s.toBride m).data = s.data := by unfold State.toBride; split <;> rfl
@[simp] theorem State.toBride_attn (s : State) (m : Msg) : (s.toBride m).attn = s.attn := by unfold State.toBride; split <;> rfl
@[simp] theorem State.toBride_knots (s : State) (m : Msg) : (s.toBride m).knots = s.knots := by unfold State.toBride; split <;> rfl
@[simp] theorem State.toBride_thermal (s : State) (m : Msg) : (s.toBride m).thermal = s.thermal := by unfold State.toBride; split <;> rfl
@[simp] theorem State.toBride_fw (s : State) (m : Msg) : (s.toBride m).fw = s.fw := by unfold State.toBride; split <;> rfl
@[simp] theorem State.toBride_cfg (s : State) (m : Msg) : (s.toBride m).cfg = s.cfg := by unfold State.toBride; split <;> rfl
@[simp] theorem State.toBride_islands (s : State) (m : Msg) : (s.toBride m).islands = s.islands := by unfold State.toBride; split <;> rfl
@[simp] theorem State.toBride_take (s : State) (m : Msg) : (s.toBride m).take = s.take := by unfold State.toBride; split <;> rfl
@[simp] theorem State.toBride_draws (s : State) (m : Msg) : (s.toBride m).draws = s.draws := by unfold State.toBride; split <;> rfl
@[simp] theorem State.toBride_pending (s : State) (m : Msg) : (s.toBride m).pending = s.pending := by unfold State.toBride; split <;> rfl

@[simp] theorem State.send_boxes (s : State) (m : Msg) : (s.send m).boxes = s.boxes := by unfold State.send; simp
@[simp] theorem State.send_port (s : State) (m : Msg) : (s.send m).port = s.port := by unfold State.send; simp
@[simp] theorem State.send_log (s : State) (m : Msg) : (s.send m).log = s.log := by unfold State.send; simp
@[simp] theorem State.send_counters (s : State) (m : Msg) : (s.send m).counters = s.counters := by unfold State.send; simp
@[simp] theorem State.send_monitor (s : State) (m : Msg) : (s.send m).monitor = s.monitor := by unfold State.send; simp
@[simp] theorem State.send_time (s : State) (m : Msg) : (s.send m).time = s.time := by unfold State.send; simp
@[simp] theorem State.send_start (s : State) (m : Msg) : (s.send m).start = s.start := by unfold State.send; simp
@[simp] theorem State.send_mem (s : State) (m : Msg) : (s.send m).mem = s.mem := by unfold State.send; simp
@[simp] theorem State.send_arrays (s : State) (m : Msg) : (s.send m).arrays = s.arrays := by unfold State.send; simp
@[simp] theorem State.send_motifs (s : State) (m : Msg) : (s.send m).motifs = s.motifs := by unfold State.send; simp
@[simp] theorem State.send_seqs (s : State) (m : Msg) : (s.send m).seqs = s.seqs := by unfold State.send; simp
@[simp] theorem State.send_steps (s : State) (m : Msg) : (s.send m).steps = s.steps := by unfold State.send; simp
@[simp] theorem State.send_data (s : State) (m : Msg) : (s.send m).data = s.data := by unfold State.send; simp
@[simp] theorem State.send_attn (s : State) (m : Msg) : (s.send m).attn = s.attn := by unfold State.send; simp
@[simp] theorem State.send_knots (s : State) (m : Msg) : (s.send m).knots = s.knots := by unfold State.send; simp
@[simp] theorem State.send_thermal (s : State) (m : Msg) : (s.send m).thermal = s.thermal := by unfold State.send; simp
@[simp] theorem State.send_fw (s : State) (m : Msg) : (s.send m).fw = s.fw := by unfold State.send; simp
@[simp] theorem State.send_cfg (s : State) (m : Msg) : (s.send m).cfg = s.cfg := by unfold State.send; simp
@[simp] theorem State.send_islands (s : State) (m : Msg) : (s.send m).islands = s.islands := by unfold State.send; simp
@[simp] theorem State.send_take (s : State) (m : Msg) : (s.send m).take = s.take := by unfold State.send; simp
@[simp] theorem State.send_draws (s : State) (m : Msg) : (s.send m).draws = s.draws := by unfold State.send; simp
@[simp] theorem State.send_pending (s : State) (m : Msg) : (s.send m).pending = s.pending := by unfold State.send; simp

@[simp] theorem State.sendSync_boxes (s : State) (k m : Nat) (e : Bytes) (l : List Nat) : (s.sendSync k m e l).boxes = s.boxes := by unfold State.sendSync; split <;> simp
@[simp] theorem State.sendSync_port (s : State) (k m : Nat) (e : Bytes) (l : List Nat) : (s.sendSync k m e l).port = s.port := by unfold State.sendSync; split <;> simp
@[simp] theorem State.sendSync_log (s : State) (k m : Nat) (e : Bytes) (l : List Nat) : (s.sendSync k m e l).log = s.log := by unfold State.sendSync; split <;> simp
@[simp] theorem State.sendSync_counters (s : State) (k m : Nat) (e : Bytes) (l : List Nat) : (s.sendSync k m e l).counters = s.counters := by unfold State.sendSync; split <;> simp
@[simp] theorem State.sendSync_monitor (s : State) (k m : Nat) (e : Bytes) (l : List Nat) : (s.sendSync k m e l).monitor = s.monitor := by unfold State.sendSync; split <;> simp
@[simp] theorem State.sendSync_time (s : State) (k m : Nat) (e : Bytes) (l : List Nat) : (s.sendSync k m e l).time = s.time := by unfold State.sendSync; split <;> simp
@[simp] theorem State.sendSync_start (s : State) (k m : Nat) (e : Bytes) (l : List Nat) : (s.sendSync k m e l).start = s.start := by unfold State.sendSync; split <;> simp
@[simp] theorem State.sendSync_mem (s : State) (k m : Nat) (e : Bytes) (l : List Nat) : (s.sendSync k m e l).mem = s.mem := by unfold State.sendSync; split <;> simp
@[simp] theorem State.sendSync_arrays (s : State) (k m : Nat) (e : Bytes) (l : List Nat) : (s.sendSync k m e l).arrays = s.arrays := by unfold State.sendSync; split <;> simp
@[simp] theorem State.sendSync_motifs (s : State) (k m : Nat) (e : Bytes) (l : List Nat) : (s.sendSync k m e l).motifs = s.motifs := by unfold State.sendSync; split <;> simp
@[simp] theorem State.sendSync_seqs (s : State) (k m : Nat) (e : Bytes) (l : List Nat) : (s.sendSync k m e l).seqs = s.seqs := by unfold State.sendSync; split <;> simp
@[simp] theorem State.sendSync_steps (s : State) (k m : Nat) (e : Bytes) (l : List Nat) : (s.sendSync k m e l).steps = s.steps := by unfold State.sendSync; split <;> simp
@[simp] theorem State.sendSync_data (s : State) (k m : Nat) (e : Bytes) (l : List Nat) : (s.sendSync k m e l).data = s.data := by unfold State.sendSync; split <;> simp
@[simp] theorem State.sendSync_attn (s : State) (k m : Nat) (e : Bytes) (l : List Nat) : (s.sendSync k m e l).attn = s.attn := by unfold State.sendSync; split <;> simp
@[simp] theorem State.sendSync_knots (s : State) (k m : Nat) (e : Bytes) (l : List Nat) : (s.sendSync k m e l).knots = s.knots := by unfold State.sendSync; split <;> simp
@[simp] theorem State.sendSync_thermal (s : State) (k m : Nat) (e : Bytes) (l : List Nat) : (s.sendSync k m e l).thermal = s.thermal := by unfold State.sendSync; split <;> simp
@[simp] theorem State.sendSync_fw (s : State) (k m : Nat) (e : Bytes) (l : List Nat) : (s.sendSync k m e l).fw = s.fw := by unfold State.sendSync; split <;> simp
@[simp] theorem State.sendSync_cfg (s : State) (k m : Nat) (e : Bytes) (l : List Nat) : (s.sendSync k m e l).cfg = s.cfg := by unfold State.sendSync; split <;> simp
@[simp] theorem State.sendSync_islands (s : State) (k m : Nat) (e : Bytes) (l : List Nat) : (s.sendSync k m e l).islands = s.islands := by unfold State.sendSync; split <;> simp
@[simp] theorem State.sendSync_take (s : State) (k m : Nat) (e : Bytes) (l : List Nat) : (s.sendSync k m e l).take = s.take := by unfold State.sendSync; split <;> simp
@[simp] theorem State.sendSync_draws (s : State) (k m : Nat) (e : Bytes) (l : List Nat) : (s.sendSync k m e l).draws = s.draws := by unfold State.sendSync; split <;> simp
@[simp] theorem State.sendSync_pending (s : State) (k m : Nat) (e : Bytes) (l : List Nat) : (s.sendSync k m e l).pending = s.pending := by unfold State.sendSync; split <;> simp
@[simp] theorem State.sendSync_box (s : State) (k m : Nat) (e : Bytes) (l : List Nat) (j : Nat) : (s.sendSync k m e l).box j = s.box j := by unfold State.box; simp
@[simp] theorem State.sendSync_now (s : State) (k m : Nat) (e : Bytes) (l : List Nat) : (s.sendSync k m e l).now = s.now := by unfold State.now; simp

@[simp] theorem State.headSync_boxes (s : State) (k m : Nat) (e : Bytes) (l : List Nat) : (s.headSync k m e l).boxes = s.boxes := by unfold State.headSync; split <;> simp
@[simp] theorem State.headSync_port (s : State) (k m : Nat) (e : Bytes) (l : List Nat) : (s.headSync k m e l).port = s.port := by unfold State.headSync; split <;> simp
@[simp] theorem State.headSync_log (s : State) (k m : Nat) (e : Bytes) (l : List Nat) : (s.headSync k m e l).log = s.log := by unfold State.headSync; split <;> simp
@[simp] theorem State.headSync_counters (s : State) (k m : Nat) (e : Bytes) (l : List Nat) : (s.headSync k m e l).counters = s.counters := by unfold State.headSync; split <;> simp
@[simp] theorem State.headSync_monitor (s : State) (k m : Nat) (e : Bytes) (l : List Nat) : (s.headSync k m e l).monitor = s.monitor := by unfold State.headSync; split <;> simp
@[simp] theorem State.headSync_time (s : State) (k m : Nat) (e : Bytes) (l : List Nat) : (s.headSync k m e l).time = s.time := by unfold State.headSync; split <;> simp
@[simp] theorem State.headSync_start (s : State) (k m : Nat) (e : Bytes) (l : List Nat) : (s.headSync k m e l).start = s.start := by unfold State.headSync; split <;> simp
@[simp] theorem State.headSync_mem (s : State) (k m : Nat) (e : Bytes) (l : List Nat) : (s.headSync k m e l).mem = s.mem := by unfold State.headSync; split <;> simp
@[simp] theorem State.headSync_arrays (s : State) (k m : Nat) (e : Bytes) (l : List Nat) : (s.headSync k m e l).arrays = s.arrays := by unfold State.headSync; split <;> simp
@[simp] theorem State.headSync_motifs (s : State) (k m : Nat) (e : Bytes) (l : List Nat) : (s.headSync k m e l).motifs = s.motifs := by unfold State.headSync; split <;> simp
@[simp] theorem State.headSync_seqs (s : State) (k m : Nat) (e : Bytes) (l : List Nat) : (s.headSync k m e l).seqs = s.seqs := by unfold State.headSync; split <;> simp
@[simp] theorem State.headSync_steps (s : State) (k m : Nat) (e : Bytes) (l : List Nat) : (s.headSync k m e l).steps = s.steps := by unfold State.headSync; split <;> simp
@[simp] theorem State.headSync_data (s : State) (k m : Nat) (e : Bytes) (l : List Nat) : (s.headSync k m e l).data = s.data := by unfold State.headSync; split <;> simp
@[simp] theorem State.headSync_attn (s : State) (k m : Nat) (e : Bytes) (l : List Nat) : (s.headSync k m e l).attn = s.attn := by unfold State.headSync; split <;> simp
@[simp] theorem State.headSync_knots (s : State) (k m : Nat) (e : Bytes) (l : List Nat) : (s.headSync k m e l).knots = s.knots := by unfold State.headSync; split <;> simp
@[simp] theorem State.headSync_thermal (s : State) (k m : Nat) (e : Bytes) (l : List Nat) : (s.headSync k m e l).thermal = s.thermal := by unfold State.headSync; split <;> simp
@[simp] theorem State.headSync_fw (s : State) (k m : Nat) (e : Bytes) (l : List Nat) : (s.headSync k m e l).fw = s.fw := by unfold State.headSync; split <;> simp
@[simp] theorem State.headSync_cfg (s : State) (k m : Nat) (e : Bytes) (l : List Nat) : (s.headSync k m e l).cfg = s.cfg := by unfold State.headSync; split <;> simp
@[simp] theorem State.headSync_islands (s : State) (k m : Nat) (e : Bytes) (l : List Nat) : (s.headSync k m e l).islands = s.islands := by unfold State.headSync; split <;> simp
@[simp] theorem State.headSync_take (s : State) (k m : Nat) (e : Bytes) (l : List Nat) : (s.headSync k m e l).take = s.take := by unfold State.headSync; split <;> simp
@[simp] theorem State.headSync_draws (s : State) (k m : Nat) (e : Bytes) (l : List Nat) : (s.headSync k m e l).draws = s.draws := by unfold State.headSync; split <;> simp
@[simp] theorem State.headSync_pending (s : State) (k m : Nat) (e : Bytes) (l : List Nat) : (s.headSync k m e l).pending = s.pending := by unfold State.headSync; split <;> simp

@[simp] theorem State.ev_boxes (s : State) (c d o k i : Nat) (b : Bytes) : (s.ev c d o k i b).boxes = s.boxes := by unfold State.ev; simp
@[simp] theorem State.ev_port (s : State) (c d o k i : Nat) (b : Bytes) : (s.ev c d o k i b).port = s.port := by unfold State.ev; simp
@[simp] theorem State.ev_counters (s : State) (c d o k i : Nat) (b : Bytes) : (s.ev c d o k i b).counters = s.counters := by unfold State.ev; simp
@[simp] theorem State.ev_monitor (s : State) (c d o k i : Nat) (b : Bytes) : (s.ev c d o k i b).monitor = s.monitor := by unfold State.ev; simp
@[simp] theorem State.ev_time (s : State) (c d o k i : Nat) (b : Bytes) : (s.ev c d o k i b).time = s.time := by unfold State.ev; simp
@[simp] theorem State.ev_start (s : State) (c d o k i : Nat) (b : Bytes) : (s.ev c d o k i b).start = s.start := by unfold State.ev; simp
@[simp] theorem State.ev_mem (s : State) (c d o k i : Nat) (b : Bytes) : (s.ev c d o k i b).mem = s.mem := by unfold State.ev; simp
@[simp] theorem State.ev_arrays (s : State) (c d o k i : Nat) (b : Bytes) : (s.ev c d o k i b).arrays = s.arrays := by unfold State.ev; simp
@[simp] theorem State.ev_motifs (s : State) (c d o k i : Nat) (b : Bytes) : (s.ev c d o k i b).motifs = s.motifs := by unfold State.ev; simp
@[simp] theorem State.ev_seqs (s : State) (c d o k i : Nat) (b : Bytes) : (s.ev c d o k i b).seqs = s.seqs := by unfold State.ev; simp
@[simp] theorem State.ev_steps (s : State) (c d o k i : Nat) (b : Bytes) : (s.ev c d o k i b).steps = s.steps := by unfold State.ev; simp
@[simp] theorem State.ev_data (s : State) (c d o k i : Nat) (b : Bytes) : (s.ev c d o k i b).data = s.data := by unfold State.ev; simp
@[simp] theorem State.ev_attn (s : State) (c d o k i : Nat) (b : Bytes) : (s.ev c d o k i b).attn = s.attn := by unfold State.ev; simp
@[simp] theorem State.ev_knots (s : State) (c d o k i : Nat) (b : Bytes) : (s.ev c d o k i b).knots = s.knots := by unfold State.ev; simp
@[simp] theorem State.ev_fabric (s : State) (c d o k i : Nat) (b : Bytes) : (s.ev c d o k i b).fabric = s.fabric := by unfold State.ev; simp
@[simp] theorem State.ev_thermal (s : State) (c d o k i : Nat) (b : Bytes) : (s.ev c d o k i b).thermal = s.thermal := by unfold State.ev; simp
@[simp] theorem State.ev_fw (s : State) (c d o k i : Nat) (b : Bytes) : (s.ev c d o k i b).fw = s.fw := by unfold State.ev; simp
@[simp] theorem State.ev_cfg (s : State) (c d o k i : Nat) (b : Bytes) : (s.ev c d o k i b).cfg = s.cfg := by unfold State.ev; simp
@[simp] theorem State.ev_islands (s : State) (c d o k i : Nat) (b : Bytes) : (s.ev c d o k i b).islands = s.islands := by unfold State.ev; simp
@[simp] theorem State.ev_take (s : State) (c d o k i : Nat) (b : Bytes) : (s.ev c d o k i b).take = s.take := by unfold State.ev; simp
@[simp] theorem State.ev_draws (s : State) (c d o k i : Nat) (b : Bytes) : (s.ev c d o k i b).draws = s.draws := by unfold State.ev; simp
@[simp] theorem State.ev_pending (s : State) (c d o k i : Nat) (b : Bytes) : (s.ev c d o k i b).pending = s.pending := by unfold State.ev; simp

@[simp] theorem State.evDiscarded_boxes (s : State) (w o : Nat) : (s.evDiscarded w o).boxes = s.boxes := by unfold State.evDiscarded; simp
@[simp] theorem State.evDiscarded_port (s : State) (w o : Nat) : (s.evDiscarded w o).port = s.port := by unfold State.evDiscarded; simp
@[simp] theorem State.evDiscarded_counters (s : State) (w o : Nat) : (s.evDiscarded w o).counters = s.counters := by unfold State.evDiscarded; simp
@[simp] theorem State.evDiscarded_monitor (s : State) (w o : Nat) : (s.evDiscarded w o).monitor = s.monitor := by unfold State.evDiscarded; simp
@[simp] theorem State.evDiscarded_time (s : State) (w o : Nat) : (s.evDiscarded w o).time = s.time := by unfold State.evDiscarded; simp
@[simp] theorem State.evDiscarded_start (s : State) (w o : Nat) : (s.evDiscarded w o).start = s.start := by unfold State.evDiscarded; simp
@[simp] theorem State.evDiscarded_mem (s : State) (w o : Nat) : (s.evDiscarded w o).mem = s.mem := by unfold State.evDiscarded; simp
@[simp] theorem State.evDiscarded_arrays (s : State) (w o : Nat) : (s.evDiscarded w o).arrays = s.arrays := by unfold State.evDiscarded; simp
@[simp] theorem State.evDiscarded_motifs (s : State) (w o : Nat) : (s.evDiscarded w o).motifs = s.motifs := by unfold State.evDiscarded; simp
@[simp] theorem State.evDiscarded_seqs (s : State) (w o : Nat) : (s.evDiscarded w o).seqs = s.seqs := by unfold State.evDiscarded; simp
@[simp] theorem State.evDiscarded_steps (s : State) (w o : Nat) : (s.evDiscarded w o).steps = s.steps := by unfold State.evDiscarded; simp
@[simp] theorem State.evDiscarded_data (s : State) (w o : Nat) : (s.evDiscarded w o).data = s.data := by unfold State.evDiscarded; simp
@[simp] theorem State.evDiscarded_attn (s : State) (w o : Nat) : (s.evDiscarded w o).attn = s.attn := by unfold State.evDiscarded; simp
@[simp] theorem State.evDiscarded_knots (s : State) (w o : Nat) : (s.evDiscarded w o).knots = s.knots := by unfold State.evDiscarded; simp
@[simp] theorem State.evDiscarded_fabric (s : State) (w o : Nat) : (s.evDiscarded w o).fabric = s.fabric := by unfold State.evDiscarded; simp
@[simp] theorem State.evDiscarded_thermal (s : State) (w o : Nat) : (s.evDiscarded w o).thermal = s.thermal := by unfold State.evDiscarded; simp
@[simp] theorem State.evDiscarded_fw (s : State) (w o : Nat) : (s.evDiscarded w o).fw = s.fw := by unfold State.evDiscarded; simp
@[simp] theorem State.evDiscarded_cfg (s : State) (w o : Nat) : (s.evDiscarded w o).cfg = s.cfg := by unfold State.evDiscarded; simp
@[simp] theorem State.evDiscarded_islands (s : State) (w o : Nat) : (s.evDiscarded w o).islands = s.islands := by unfold State.evDiscarded; simp
@[simp] theorem State.evDiscarded_take (s : State) (w o : Nat) : (s.evDiscarded w o).take = s.take := by unfold State.evDiscarded; simp
@[simp] theorem State.evDiscarded_draws (s : State) (w o : Nat) : (s.evDiscarded w o).draws = s.draws := by unfold State.evDiscarded; simp
@[simp] theorem State.evDiscarded_pending (s : State) (w o : Nat) : (s.evDiscarded w o).pending = s.pending := by unfold State.evDiscarded; simp

@[simp] theorem State.evReadCount_boxes (s : State) (k i v : Nat) : (s.evReadCount k i v).boxes = s.boxes := by unfold State.evReadCount; simp
@[simp] theorem State.evReadCount_port (s : State) (k i v : Nat) : (s.evReadCount k i v).port = s.port := by unfold State.evReadCount; simp
@[simp] theorem State.evReadCount_counters (s : State) (k i v : Nat) : (s.evReadCount k i v).counters = s.counters := by unfold State.evReadCount; simp
@[simp] theorem State.evReadCount_monitor (s : State) (k i v : Nat) : (s.evReadCount k i v).monitor = s.monitor := by unfold State.evReadCount; simp
@[simp] theorem State.evReadCount_time (s : State) (k i v : Nat) : (s.evReadCount k i v).time = s.time := by unfold State.evReadCount; simp
@[simp] theorem State.evReadCount_start (s : State) (k i v : Nat) : (s.evReadCount k i v).start = s.start := by unfold State.evReadCount; simp
@[simp] theorem State.evReadCount_mem (s : State) (k i v : Nat) : (s.evReadCount k i v).mem = s.mem := by unfold State.evReadCount; simp
@[simp] theorem State.evReadCount_arrays (s : State) (k i v : Nat) : (s.evReadCount k i v).arrays = s.arrays := by unfold State.evReadCount; simp
@[simp] theorem State.evReadCount_motifs (s : State) (k i v : Nat) : (s.evReadCount k i v).motifs = s.motifs := by unfold State.evReadCount; simp
@[simp] theorem State.evReadCount_seqs (s : State) (k i v : Nat) : (s.evReadCount k i v).seqs = s.seqs := by unfold State.evReadCount; simp
@[simp] theorem State.evReadCount_steps (s : State) (k i v : Nat) : (s.evReadCount k i v).steps = s.steps := by unfold State.evReadCount; simp
@[simp] theorem State.evReadCount_data (s : State) (k i v : Nat) : (s.evReadCount k i v).data = s.data := by unfold State.evReadCount; simp
@[simp] theorem State.evReadCount_attn (s : State) (k i v : Nat) : (s.evReadCount k i v).attn = s.attn := by unfold State.evReadCount; simp
@[simp] theorem State.evReadCount_knots (s : State) (k i v : Nat) : (s.evReadCount k i v).knots = s.knots := by unfold State.evReadCount; simp
@[simp] theorem State.evReadCount_fabric (s : State) (k i v : Nat) : (s.evReadCount k i v).fabric = s.fabric := by unfold State.evReadCount; simp
@[simp] theorem State.evReadCount_thermal (s : State) (k i v : Nat) : (s.evReadCount k i v).thermal = s.thermal := by unfold State.evReadCount; simp
@[simp] theorem State.evReadCount_fw (s : State) (k i v : Nat) : (s.evReadCount k i v).fw = s.fw := by unfold State.evReadCount; simp
@[simp] theorem State.evReadCount_cfg (s : State) (k i v : Nat) : (s.evReadCount k i v).cfg = s.cfg := by unfold State.evReadCount; simp
@[simp] theorem State.evReadCount_islands (s : State) (k i v : Nat) : (s.evReadCount k i v).islands = s.islands := by unfold State.evReadCount; simp
@[simp] theorem State.evReadCount_take (s : State) (k i v : Nat) : (s.evReadCount k i v).take = s.take := by unfold State.evReadCount; simp
@[simp] theorem State.evReadCount_draws (s : State) (k i v : Nat) : (s.evReadCount k i v).draws = s.draws := by unfold State.evReadCount; simp
@[simp] theorem State.evReadCount_pending (s : State) (k i v : Nat) : (s.evReadCount k i v).pending = s.pending := by unfold State.evReadCount; simp

@[simp] theorem State.evUpdate_boxes (s : State) (c : Nat) (d : Bytes) : (s.evUpdate c d).boxes = s.boxes := by unfold State.evUpdate; simp
@[simp] theorem State.evUpdate_port (s : State) (c : Nat) (d : Bytes) : (s.evUpdate c d).port = s.port := by unfold State.evUpdate; simp
@[simp] theorem State.evUpdate_counters (s : State) (c : Nat) (d : Bytes) : (s.evUpdate c d).counters = s.counters := by unfold State.evUpdate; simp
@[simp] theorem State.evUpdate_monitor (s : State) (c : Nat) (d : Bytes) : (s.evUpdate c d).monitor = s.monitor := by unfold State.evUpdate; simp
@[simp] theorem State.evUpdate_time (s : State) (c : Nat) (d : Bytes) : (s.evUpdate c d).time = s.time := by unfold State.evUpdate; simp
@[simp] theorem State.evUpdate_start (s : State) (c : Nat) (d : Bytes) : (s.evUpdate c d).start = s.start := by unfold State.evUpdate; simp
@[simp] theorem State.evUpdate_mem (s : State) (c : Nat) (d : Bytes) : (s.evUpdate c d).mem = s.mem := by unfold State.evUpdate; simp
@[simp] theorem State.evUpdate_arrays (s : State) (c : Nat) (d : Bytes) : (s.evUpdate c d).arrays = s.arrays := by unfold State.evUpdate; simp
@[simp] theorem State.evUpdate_motifs (s : State) (c : Nat) (d : Bytes) : (s.evUpdate c d).motifs = s.motifs := by unfold State.evUpdate; simp
@[simp] theorem State.evUpdate_seqs (s : State) (c : Nat) (d : Bytes) : (s.evUpdate c d).seqs = s.seqs := by unfold State.evUpdate; simp
@[simp] theorem State.evUpdate_steps (s : State) (c : Nat) (d : Bytes) : (s.evUpdate c d).steps = s.steps := by unfold State.evUpdate; simp
@[simp] theorem State.evUpdate_data (s : State) (c : Nat) (d : Bytes) : (s.evUpdate c d).data = s.data := by unfold State.evUpdate; simp
@[simp] theorem State.evUpdate_attn (s : State) (c : Nat) (d : Bytes) : (s.evUpdate c d).attn = s.attn := by unfold State.evUpdate; simp
@[simp] theorem State.evUpdate_knots (s : State) (c : Nat) (d : Bytes) : (s.evUpdate c d).knots = s.knots := by unfold State.evUpdate; simp
@[simp] theorem State.evUpdate_fabric (s : State) (c : Nat) (d : Bytes) : (s.evUpdate c d).fabric = s.fabric := by unfold State.evUpdate; simp
@[simp] theorem State.evUpdate_thermal (s : State) (c : Nat) (d : Bytes) : (s.evUpdate c d).thermal = s.thermal := by unfold State.evUpdate; simp
@[simp] theorem State.evUpdate_fw (s : State) (c : Nat) (d : Bytes) : (s.evUpdate c d).fw = s.fw := by unfold State.evUpdate; simp
@[simp] theorem State.evUpdate_cfg (s : State) (c : Nat) (d : Bytes) : (s.evUpdate c d).cfg = s.cfg := by unfold State.evUpdate; simp
@[simp] theorem State.evUpdate_islands (s : State) (c : Nat) (d : Bytes) : (s.evUpdate c d).islands = s.islands := by unfold State.evUpdate; simp
@[simp] theorem State.evUpdate_take (s : State) (c : Nat) (d : Bytes) : (s.evUpdate c d).take = s.take := by unfold State.evUpdate; simp
@[simp] theorem State.evUpdate_draws (s : State) (c : Nat) (d : Bytes) : (s.evUpdate c d).draws = s.draws := by unfold State.evUpdate; simp
@[simp] theorem State.evUpdate_pending (s : State) (c : Nat) (d : Bytes) : (s.evUpdate c d).pending = s.pending := by unfold State.evUpdate; simp

@[simp] theorem State.finish_log (s : State) (m : Nat) : (s.finish m).log = s.log := by unfold State.finish; simp only; (repeat' split) <;> simp
@[simp] theorem State.finish_counters (s : State) (m : Nat) : (s.finish m).counters = s.counters := by unfold State.finish; simp only; (repeat' split) <;> simp
@[simp] theorem State.finish_monitor (s : State) (m : Nat) : (s.finish m).monitor = s.monitor := by unfold State.finish; simp only; (repeat' split) <;> simp
@[simp] theorem State.finish_time (s : State) (m : Nat) : (s.finish m).time = s.time := by unfold State.finish; simp only; (repeat' split) <;> simp
@[simp] theorem State.finish_start (s : State) (m : Nat) : (s.finish m).start = s.start := by unfold State.finish; simp only; (repeat' split) <;> simp
@[simp] theorem State.finish_mem (s : State) (m : Nat) : (s.finish m).mem = s.mem := by unfold State.finish; simp only; (repeat' split) <;> simp
@[simp] theorem State.finish_arrays (s : State) (m : Nat) : (s.finish m).arrays = s.arrays := by unfold State.finish; simp only; (repeat' split) <;> simp
@[simp] theorem State.finish_motifs (s : State) (m : Nat) : (s.finish m).motifs = s.motifs := by unfold State.finish; simp only; (repeat' split) <;> simp
@[simp] theorem State.finish_seqs (s : State) (m : Nat) : (s.finish m).seqs = s.seqs := by unfold State.finish; simp only; (repeat' split) <;> simp
@[simp] theorem State.finish_steps (s : State) (m : Nat) : (s.finish m).steps = s.steps := by unfold State.finish; simp only; (repeat' split) <;> simp
@[simp] theorem State.finish_data (s : State) (m : Nat) : (s.finish m).data = s.data := by unfold State.finish; simp only; (repeat' split) <;> simp
@[simp] theorem State.finish_attn (s : State) (m : Nat) : (s.finish m).attn = s.attn := by unfold State.finish; simp only; (repeat' split) <;> simp
@[simp] theorem State.finish_knots (s : State) (m : Nat) : (s.finish m).knots = s.knots := by unfold State.finish; simp only; (repeat' split) <;> simp
@[simp] theorem State.finish_thermal (s : State) (m : Nat) : (s.finish m).thermal = s.thermal := by unfold State.finish; simp only; (repeat' split) <;> simp
@[simp] theorem State.finish_fw (s : State) (m : Nat) : (s.finish m).fw = s.fw := by unfold State.finish; simp only; (repeat' split) <;> simp
@[simp] theorem State.finish_islands (s : State) (m : Nat) : (s.finish m).islands = s.islands := by unfold State.finish; simp only; (repeat' split) <;> simp
@[simp] theorem State.finish_take (s : State) (m : Nat) : (s.finish m).take = s.take := by unfold State.finish; simp only; (repeat' split) <;> simp
@[simp] theorem State.finish_draws (s : State) (m : Nat) : (s.finish m).draws = s.draws := by unfold State.finish; simp only; (repeat' split) <;> simp
@[simp] theorem State.finish_pending (s : State) (m : Nat) : (s.finish m).pending = s.pending := by unfold State.finish; simp only; (repeat' split) <;> simp

@[simp] theorem State.complete_log (s : State) (m st d p r : Nat) : (s.complete m st d p r).log = s.log := by unfold State.complete; simp
@[simp] theorem State.complete_counters (s : State) (m st d p r : Nat) : (s.complete m st d p r).counters = s.counters := by unfold State.complete; simp
@[simp] theorem State.complete_monitor (s : State) (m st d p r : Nat) : (s.complete m st d p r).monitor = s.monitor := by unfold State.complete; simp
@[simp] theorem State.complete_time (s : State) (m st d p r : Nat) : (s.complete m st d p r).time = s.time := by unfold State.complete; simp
@[simp] theorem State.complete_start (s : State) (m st d p r : Nat) : (s.complete m st d p r).start = s.start := by unfold State.complete; simp
@[simp] theorem State.complete_mem (s : State) (m st d p r : Nat) : (s.complete m st d p r).mem = s.mem := by unfold State.complete; simp
@[simp] theorem State.complete_arrays (s : State) (m st d p r : Nat) : (s.complete m st d p r).arrays = s.arrays := by unfold State.complete; simp
@[simp] theorem State.complete_motifs (s : State) (m st d p r : Nat) : (s.complete m st d p r).motifs = s.motifs := by unfold State.complete; simp
@[simp] theorem State.complete_seqs (s : State) (m st d p r : Nat) : (s.complete m st d p r).seqs = s.seqs := by unfold State.complete; simp
@[simp] theorem State.complete_steps (s : State) (m st d p r : Nat) : (s.complete m st d p r).steps = s.steps := by unfold State.complete; simp
@[simp] theorem State.complete_data (s : State) (m st d p r : Nat) : (s.complete m st d p r).data = s.data := by unfold State.complete; simp
@[simp] theorem State.complete_attn (s : State) (m st d p r : Nat) : (s.complete m st d p r).attn = s.attn := by unfold State.complete; simp
@[simp] theorem State.complete_knots (s : State) (m st d p r : Nat) : (s.complete m st d p r).knots = s.knots := by unfold State.complete; simp
@[simp] theorem State.complete_thermal (s : State) (m st d p r : Nat) : (s.complete m st d p r).thermal = s.thermal := by unfold State.complete; simp
@[simp] theorem State.complete_fw (s : State) (m st d p r : Nat) : (s.complete m st d p r).fw = s.fw := by unfold State.complete; simp
@[simp] theorem State.complete_islands (s : State) (m st d p r : Nat) : (s.complete m st d p r).islands = s.islands := by unfold State.complete; simp
@[simp] theorem State.complete_take (s : State) (m st d p r : Nat) : (s.complete m st d p r).take = s.take := by unfold State.complete; simp
@[simp] theorem State.complete_draws (s : State) (m st d p r : Nat) : (s.complete m st d p r).draws = s.draws := by unfold State.complete; simp
@[simp] theorem State.complete_pending (s : State) (m st d p r : Nat) : (s.complete m st d p r).pending = s.pending := by unfold State.complete; simp

@[simp] theorem State.failCmd_log (s : State) (m st d : Nat) : (s.failCmd m st d).log = s.log := by unfold State.failCmd; simp
@[simp] theorem State.failCmd_counters (s : State) (m st d : Nat) : (s.failCmd m st d).counters = s.counters := by unfold State.failCmd; simp
@[simp] theorem State.failCmd_monitor (s : State) (m st d : Nat) : (s.failCmd m st d).monitor = s.monitor := by unfold State.failCmd; simp
@[simp] theorem State.failCmd_time (s : State) (m st d : Nat) : (s.failCmd m st d).time = s.time := by unfold State.failCmd; simp
@[simp] theorem State.failCmd_start (s : State) (m st d : Nat) : (s.failCmd m st d).start = s.start := by unfold State.failCmd; simp
@[simp] theorem State.failCmd_mem (s : State) (m st d : Nat) : (s.failCmd m st d).mem = s.mem := by unfold State.failCmd; simp
@[simp] theorem State.failCmd_arrays (s : State) (m st d : Nat) : (s.failCmd m st d).arrays = s.arrays := by unfold State.failCmd; simp
@[simp] theorem State.failCmd_motifs (s : State) (m st d : Nat) : (s.failCmd m st d).motifs = s.motifs := by unfold State.failCmd; simp
@[simp] theorem State.failCmd_seqs (s : State) (m st d : Nat) : (s.failCmd m st d).seqs = s.seqs := by unfold State.failCmd; simp
@[simp] theorem State.failCmd_steps (s : State) (m st d : Nat) : (s.failCmd m st d).steps = s.steps := by unfold State.failCmd; simp
@[simp] theorem State.failCmd_data (s : State) (m st d : Nat) : (s.failCmd m st d).data = s.data := by unfold State.failCmd; simp
@[simp] theorem State.failCmd_attn (s : State) (m st d : Nat) : (s.failCmd m st d).attn = s.attn := by unfold State.failCmd; simp
@[simp] theorem State.failCmd_knots (s : State) (m st d : Nat) : (s.failCmd m st d).knots = s.knots := by unfold State.failCmd; simp
@[simp] theorem State.failCmd_thermal (s : State) (m st d : Nat) : (s.failCmd m st d).thermal = s.thermal := by unfold State.failCmd; simp
@[simp] theorem State.failCmd_fw (s : State) (m st d : Nat) : (s.failCmd m st d).fw = s.fw := by unfold State.failCmd; simp
@[simp] theorem State.failCmd_islands (s : State) (m st d : Nat) : (s.failCmd m st d).islands = s.islands := by unfold State.failCmd; simp
@[simp] theorem State.failCmd_take (s : State) (m st d : Nat) : (s.failCmd m st d).take = s.take := by unfold State.failCmd; simp
@[simp] theorem State.failCmd_draws (s : State) (m st d : Nat) : (s.failCmd m st d).draws = s.draws := by unfold State.failCmd; simp
@[simp] theorem State.failCmd_pending (s : State) (m st d : Nat) : (s.failCmd m st d).pending = s.pending := by unfold State.failCmd; simp

@[simp] theorem State.okCmd_log (s : State) (m r : Nat) : (s.okCmd m r).log = s.log := by unfold State.okCmd; simp
@[simp] theorem State.okCmd_counters (s : State) (m r : Nat) : (s.okCmd m r).counters = s.counters := by unfold State.okCmd; simp
@[simp] theorem State.okCmd_monitor (s : State) (m r : Nat) : (s.okCmd m r).monitor = s.monitor := by unfold State.okCmd; simp
@[simp] theorem State.okCmd_time (s : State) (m r : Nat) : (s.okCmd m r).time = s.time := by unfold State.okCmd; simp
@[simp] theorem State.okCmd_start (s : State) (m r : Nat) : (s.okCmd m r).start = s.start := by unfold State.okCmd; simp
@[simp] theorem State.okCmd_mem (s : State) (m r : Nat) : (s.okCmd m r).mem = s.mem := by unfold State.okCmd; simp
@[simp] theorem State.okCmd_arrays (s : State) (m r : Nat) : (s.okCmd m r).arrays = s.arrays := by unfold State.okCmd; simp
@[simp] theorem State.okCmd_motifs (s : State) (m r : Nat) : (s.okCmd m r).motifs = s.motifs := by unfold State.okCmd; simp
@[simp] theorem State.okCmd_seqs (s : State) (m r : Nat) : (s.okCmd m r).seqs = s.seqs := by unfold State.okCmd; simp
@[simp] theorem State.okCmd_steps (s : State) (m r : Nat) : (s.okCmd m r).steps = s.steps := by unfold State.okCmd; simp
@[simp] theorem State.okCmd_data (s : State) (m r : Nat) : (s.okCmd m r).data = s.data := by unfold State.okCmd; simp
@[simp] theorem State.okCmd_attn (s : State) (m r : Nat) : (s.okCmd m r).attn = s.attn := by unfold State.okCmd; simp
@[simp] theorem State.okCmd_knots (s : State) (m r : Nat) : (s.okCmd m r).knots = s.knots := by unfold State.okCmd; simp
@[simp] theorem State.okCmd_thermal (s : State) (m r : Nat) : (s.okCmd m r).thermal = s.thermal := by unfold State.okCmd; simp
@[simp] theorem State.okCmd_fw (s : State) (m r : Nat) : (s.okCmd m r).fw = s.fw := by unfold State.okCmd; simp
@[simp] theorem State.okCmd_islands (s : State) (m r : Nat) : (s.okCmd m r).islands = s.islands := by unfold State.okCmd; simp
@[simp] theorem State.okCmd_take (s : State) (m r : Nat) : (s.okCmd m r).take = s.take := by unfold State.okCmd; simp
@[simp] theorem State.okCmd_draws (s : State) (m r : Nat) : (s.okCmd m r).draws = s.draws := by unfold State.okCmd; simp
@[simp] theorem State.okCmd_pending (s : State) (m r : Nat) : (s.okCmd m r).pending = s.pending := by unfold State.okCmd; simp

@[simp] theorem State.refuseCmd_counters (s : State) (m o st : Nat) : (s.refuseCmd m o st).counters = s.counters := by unfold State.refuseCmd; simp
@[simp] theorem State.refuseCmd_monitor (s : State) (m o st : Nat) : (s.refuseCmd m o st).monitor = s.monitor := by unfold State.refuseCmd; simp
@[simp] theorem State.refuseCmd_time (s : State) (m o st : Nat) : (s.refuseCmd m o st).time = s.time := by unfold State.refuseCmd; simp
@[simp] theorem State.refuseCmd_start (s : State) (m o st : Nat) : (s.refuseCmd m o st).start = s.start := by unfold State.refuseCmd; simp
@[simp] theorem State.refuseCmd_mem (s : State) (m o st : Nat) : (s.refuseCmd m o st).mem = s.mem := by unfold State.refuseCmd; simp
@[simp] theorem State.refuseCmd_arrays (s : State) (m o st : Nat) : (s.refuseCmd m o st).arrays = s.arrays := by unfold State.refuseCmd; simp
@[simp] theorem State.refuseCmd_motifs (s : State) (m o st : Nat) : (s.refuseCmd m o st).motifs = s.motifs := by unfold State.refuseCmd; simp
@[simp] theorem State.refuseCmd_seqs (s : State) (m o st : Nat) : (s.refuseCmd m o st).seqs = s.seqs := by unfold State.refuseCmd; simp
@[simp] theorem State.refuseCmd_steps (s : State) (m o st : Nat) : (s.refuseCmd m o st).steps = s.steps := by unfold State.refuseCmd; simp
@[simp] theorem State.refuseCmd_data (s : State) (m o st : Nat) : (s.refuseCmd m o st).data = s.data := by unfold State.refuseCmd; simp
@[simp] theorem State.refuseCmd_attn (s : State) (m o st : Nat) : (s.refuseCmd m o st).attn = s.attn := by unfold State.refuseCmd; simp
@[simp] theorem State.refuseCmd_knots (s : State) (m o st : Nat) : (s.refuseCmd m o st).knots = s.knots := by unfold State.refuseCmd; simp
@[simp] theorem State.refuseCmd_thermal (s : State) (m o st : Nat) : (s.refuseCmd m o st).thermal = s.thermal := by unfold State.refuseCmd; simp
@[simp] theorem State.refuseCmd_fw (s : State) (m o st : Nat) : (s.refuseCmd m o st).fw = s.fw := by unfold State.refuseCmd; simp
@[simp] theorem State.refuseCmd_islands (s : State) (m o st : Nat) : (s.refuseCmd m o st).islands = s.islands := by unfold State.refuseCmd; simp
@[simp] theorem State.refuseCmd_take (s : State) (m o st : Nat) : (s.refuseCmd m o st).take = s.take := by unfold State.refuseCmd; simp
@[simp] theorem State.refuseCmd_draws (s : State) (m o st : Nat) : (s.refuseCmd m o st).draws = s.draws := by unfold State.refuseCmd; simp
@[simp] theorem State.refuseCmd_pending (s : State) (m o st : Nat) : (s.refuseCmd m o st).pending = s.pending := by unfold State.refuseCmd; simp

@[simp] theorem State.loadRecord_port (s : State) (m : Nat) (r : LoadReport) : (s.loadRecord m r).port = s.port := by unfold State.loadRecord; split <;> rfl
@[simp] theorem State.loadRecord_log (s : State) (m : Nat) (r : LoadReport) : (s.loadRecord m r).log = s.log := by unfold State.loadRecord; split <;> rfl
@[simp] theorem State.loadRecord_counters (s : State) (m : Nat) (r : LoadReport) : (s.loadRecord m r).counters = s.counters := by unfold State.loadRecord; split <;> rfl
@[simp] theorem State.loadRecord_monitor (s : State) (m : Nat) (r : LoadReport) : (s.loadRecord m r).monitor = s.monitor := by unfold State.loadRecord; split <;> rfl
@[simp] theorem State.loadRecord_time (s : State) (m : Nat) (r : LoadReport) : (s.loadRecord m r).time = s.time := by unfold State.loadRecord; split <;> rfl
@[simp] theorem State.loadRecord_start (s : State) (m : Nat) (r : LoadReport) : (s.loadRecord m r).start = s.start := by unfold State.loadRecord; split <;> rfl
@[simp] theorem State.loadRecord_mem (s : State) (m : Nat) (r : LoadReport) : (s.loadRecord m r).mem = s.mem := by unfold State.loadRecord; split <;> rfl
@[simp] theorem State.loadRecord_arrays (s : State) (m : Nat) (r : LoadReport) : (s.loadRecord m r).arrays = s.arrays := by unfold State.loadRecord; split <;> rfl
@[simp] theorem State.loadRecord_motifs (s : State) (m : Nat) (r : LoadReport) : (s.loadRecord m r).motifs = s.motifs := by unfold State.loadRecord; split <;> rfl
@[simp] theorem State.loadRecord_seqs (s : State) (m : Nat) (r : LoadReport) : (s.loadRecord m r).seqs = s.seqs := by unfold State.loadRecord; split <;> rfl
@[simp] theorem State.loadRecord_steps (s : State) (m : Nat) (r : LoadReport) : (s.loadRecord m r).steps = s.steps := by unfold State.loadRecord; split <;> rfl
@[simp] theorem State.loadRecord_data (s : State) (m : Nat) (r : LoadReport) : (s.loadRecord m r).data = s.data := by unfold State.loadRecord; split <;> rfl
@[simp] theorem State.loadRecord_attn (s : State) (m : Nat) (r : LoadReport) : (s.loadRecord m r).attn = s.attn := by unfold State.loadRecord; split <;> rfl
@[simp] theorem State.loadRecord_knots (s : State) (m : Nat) (r : LoadReport) : (s.loadRecord m r).knots = s.knots := by unfold State.loadRecord; split <;> rfl
@[simp] theorem State.loadRecord_fabric (s : State) (m : Nat) (r : LoadReport) : (s.loadRecord m r).fabric = s.fabric := by unfold State.loadRecord; split <;> rfl
@[simp] theorem State.loadRecord_thermal (s : State) (m : Nat) (r : LoadReport) : (s.loadRecord m r).thermal = s.thermal := by unfold State.loadRecord; split <;> rfl
@[simp] theorem State.loadRecord_fw (s : State) (m : Nat) (r : LoadReport) : (s.loadRecord m r).fw = s.fw := by unfold State.loadRecord; split <;> rfl
@[simp] theorem State.loadRecord_cfg (s : State) (m : Nat) (r : LoadReport) : (s.loadRecord m r).cfg = s.cfg := by unfold State.loadRecord; split <;> rfl
@[simp] theorem State.loadRecord_islands (s : State) (m : Nat) (r : LoadReport) : (s.loadRecord m r).islands = s.islands := by unfold State.loadRecord; split <;> rfl
@[simp] theorem State.loadRecord_take (s : State) (m : Nat) (r : LoadReport) : (s.loadRecord m r).take = s.take := by unfold State.loadRecord; split <;> rfl
@[simp] theorem State.loadRecord_draws (s : State) (m : Nat) (r : LoadReport) : (s.loadRecord m r).draws = s.draws := by unfold State.loadRecord; split <;> rfl
@[simp] theorem State.loadRecord_pending (s : State) (m : Nat) (r : LoadReport) : (s.loadRecord m r).pending = s.pending := by unfold State.loadRecord; split <;> rfl

@[simp] theorem State.startRead_log (s : State) (m q a k l : Nat) : (s.startRead m q a k l).log = s.log := by unfold State.startRead; (repeat' split) <;> rfl
@[simp] theorem State.startRead_counters (s : State) (m q a k l : Nat) : (s.startRead m q a k l).counters = s.counters := by unfold State.startRead; (repeat' split) <;> rfl
@[simp] theorem State.startRead_monitor (s : State) (m q a k l : Nat) : (s.startRead m q a k l).monitor = s.monitor := by unfold State.startRead; (repeat' split) <;> rfl
@[simp] theorem State.startRead_time (s : State) (m q a k l : Nat) : (s.startRead m q a k l).time = s.time := by unfold State.startRead; (repeat' split) <;> rfl
@[simp] theorem State.startRead_start (s : State) (m q a k l : Nat) : (s.startRead m q a k l).start = s.start := by unfold State.startRead; (repeat' split) <;> rfl
@[simp] theorem State.startRead_mem (s : State) (m q a k l : Nat) : (s.startRead m q a k l).mem = s.mem := by unfold State.startRead; (repeat' split) <;> rfl
@[simp] theorem State.startRead_arrays (s : State) (m q a k l : Nat) : (s.startRead m q a k l).arrays = s.arrays := by unfold State.startRead; (repeat' split) <;> rfl
@[simp] theorem State.startRead_motifs (s : State) (m q a k l : Nat) : (s.startRead m q a k l).motifs = s.motifs := by unfold State.startRead; (repeat' split) <;> rfl
@[simp] theorem State.startRead_seqs (s : State) (m q a k l : Nat) : (s.startRead m q a k l).seqs = s.seqs := by unfold State.startRead; (repeat' split) <;> rfl
@[simp] theorem State.startRead_steps (s : State) (m q a k l : Nat) : (s.startRead m q a k l).steps = s.steps := by unfold State.startRead; (repeat' split) <;> rfl
@[simp] theorem State.startRead_data (s : State) (m q a k l : Nat) : (s.startRead m q a k l).data = s.data := by unfold State.startRead; (repeat' split) <;> rfl
@[simp] theorem State.startRead_attn (s : State) (m q a k l : Nat) : (s.startRead m q a k l).attn = s.attn := by unfold State.startRead; (repeat' split) <;> rfl
@[simp] theorem State.startRead_knots (s : State) (m q a k l : Nat) : (s.startRead m q a k l).knots = s.knots := by unfold State.startRead; (repeat' split) <;> rfl
@[simp] theorem State.startRead_fabric (s : State) (m q a k l : Nat) : (s.startRead m q a k l).fabric = s.fabric := by unfold State.startRead; (repeat' split) <;> rfl
@[simp] theorem State.startRead_thermal (s : State) (m q a k l : Nat) : (s.startRead m q a k l).thermal = s.thermal := by unfold State.startRead; (repeat' split) <;> rfl
@[simp] theorem State.startRead_fw (s : State) (m q a k l : Nat) : (s.startRead m q a k l).fw = s.fw := by unfold State.startRead; (repeat' split) <;> rfl
@[simp] theorem State.startRead_cfg (s : State) (m q a k l : Nat) : (s.startRead m q a k l).cfg = s.cfg := by unfold State.startRead; (repeat' split) <;> rfl
@[simp] theorem State.startRead_islands (s : State) (m q a k l : Nat) : (s.startRead m q a k l).islands = s.islands := by unfold State.startRead; (repeat' split) <;> rfl
@[simp] theorem State.startRead_take (s : State) (m q a k l : Nat) : (s.startRead m q a k l).take = s.take := by unfold State.startRead; (repeat' split) <;> rfl
@[simp] theorem State.startRead_draws (s : State) (m q a k l : Nat) : (s.startRead m q a k l).draws = s.draws := by unfold State.startRead; (repeat' split) <;> rfl
@[simp] theorem State.startRead_pending (s : State) (m q a k l : Nat) : (s.startRead m q a k l).pending = s.pending := by unfold State.startRead; (repeat' split) <;> rfl

/-! ### Mailboxes and module time after operations that leave them alone -/

@[simp] theorem State.event_box (s : State) (e : Event) (j : Nat) : (s.event e).box j = s.box j := by
  unfold State.box; simp

@[simp] theorem State.toBride_box (s : State) (m : Msg) (j : Nat) : (s.toBride m).box j = s.box j := by
  unfold State.box; simp

@[simp] theorem State.send_box (s : State) (m : Msg) (j : Nat) : (s.send m).box j = s.box j := by
  unfold State.box; simp

@[simp] theorem State.headSync_box (s : State) (k m : Nat) (e : Bytes) (l : List Nat) (j : Nat) : (s.headSync k m e l).box j = s.box j := by
  unfold State.box; simp

@[simp] theorem State.ev_box (s : State) (c d o k i : Nat) (b : Bytes) (j : Nat) : (s.ev c d o k i b).box j = s.box j := by
  unfold State.box; simp

@[simp] theorem State.evDiscarded_box (s : State) (w o : Nat) (j : Nat) : (s.evDiscarded w o).box j = s.box j := by
  unfold State.box; simp

@[simp] theorem State.evReadCount_box (s : State) (k i v : Nat) (j : Nat) : (s.evReadCount k i v).box j = s.box j := by
  unfold State.box; simp

@[simp] theorem State.evUpdate_box (s : State) (c : Nat) (d : Bytes) (j : Nat) : (s.evUpdate c d).box j = s.box j := by
  unfold State.box; simp

@[simp] theorem State.setBox_now (s : State) (m : Nat) (b : Mailbox) : (s.setBox m b).now = s.now := by simp [State.now]
@[simp] theorem State.setArray_now (s : State) (a : Nat) (v : ArrayState) : (s.setArray a v).now = s.now := by simp [State.now]
@[simp] theorem State.setPhys_now (s : State) (p : Nat) (v : PhysArray) : (s.setPhys p v).now = s.now := by simp [State.now]
@[simp] theorem State.setMotif_now (s : State) (m : Nat) (e : MotifEntry) : (s.setMotif m e).now = s.now := by simp [State.now]
@[simp] theorem State.setBride_now (s : State) (b : Nat) (v : Bride) : (s.setBride b v).now = s.now := by simp [State.now]
@[simp] theorem State.setSensor_now (s : State) (i : Nat) (v : Sensor) : (s.setSensor i v).now = s.now := by simp [State.now]
@[simp] theorem State.setIsland_now (s : State) (i : Nat) (v : Island) : (s.setIsland i v).now = s.now := by simp [State.now]
@[simp] theorem State.setMonEntry_now (s : State) (i : Nat) (v : MonEntry) : (s.setMonEntry i v).now = s.now := by simp [State.now]
@[simp] theorem State.toHost_now (s : State) (o : HostOut) : (s.toHost o).now = s.now := by simp [State.now]
@[simp] theorem State.count_now (s : State) (f : Counters → Counters) : (s.count f).now = s.now := by simp [State.now]
@[simp] theorem State.update_now (s : State) (m : Nat) (f : Mailbox → Mailbox) : (s.update m f).now = s.now := by simp [State.now]
@[simp] theorem State.setCmd_now (s : State) (m : Nat) (f : Cmd → Cmd) : (s.setCmd m f).now = s.now := by simp [State.now]
@[simp] theorem State.markSlows_now (s : State) (m q : Nat) (w : BitVec 16) : (s.markSlows m q w).now = s.now := by simp [State.now]
@[simp] theorem State.markSlow_now (s : State) (m q c : Nat) : (s.markSlow m q c).now = s.now := by simp [State.now]
@[simp] theorem State.setTarget_now (s : State) (m n : Nat) : (s.setTarget m n).now = s.now := by simp [State.now]
@[simp] theorem State.setProgress_now (s : State) (m n : Nat) : (s.setProgress m n).now = s.now := by simp [State.now]
@[simp] theorem State.event_now (s : State) (e : Event) : (s.event e).now = s.now := by simp [State.now]
@[simp] theorem State.toBride_now (s : State) (m : Msg) : (s.toBride m).now = s.now := by simp [State.now]
@[simp] theorem State.send_now (s : State) (m : Msg) : (s.send m).now = s.now := by simp [State.now]
@[simp] theorem State.headSync_now (s : State) (k m : Nat) (e : Bytes) (l : List Nat) : (s.headSync k m e l).now = s.now := by simp [State.now]
@[simp] theorem State.ev_now (s : State) (c d o k i : Nat) (b : Bytes) : (s.ev c d o k i b).now = s.now := by simp [State.now]
@[simp] theorem State.evDiscarded_now (s : State) (w o : Nat) : (s.evDiscarded w o).now = s.now := by simp [State.now]
@[simp] theorem State.evReadCount_now (s : State) (k i v : Nat) : (s.evReadCount k i v).now = s.now := by simp [State.now]
@[simp] theorem State.evUpdate_now (s : State) (c : Nat) (d : Bytes) : (s.evUpdate c d).now = s.now := by simp [State.now]
@[simp] theorem State.finish_now (s : State) (m : Nat) : (s.finish m).now = s.now := by simp [State.now]
@[simp] theorem State.complete_now (s : State) (m st d p r : Nat) : (s.complete m st d p r).now = s.now := by simp [State.now]
@[simp] theorem State.failCmd_now (s : State) (m st d : Nat) : (s.failCmd m st d).now = s.now := by simp [State.now]
@[simp] theorem State.okCmd_now (s : State) (m r : Nat) : (s.okCmd m r).now = s.now := by simp [State.now]
@[simp] theorem State.refuseCmd_now (s : State) (m o st : Nat) : (s.refuseCmd m o st).now = s.now := by simp [State.now]
@[simp] theorem State.loadRecord_now (s : State) (m : Nat) (r : LoadReport) : (s.loadRecord m r).now = s.now := by simp [State.now]
@[simp] theorem State.startRead_now (s : State) (m q a k l : Nat) : (s.startRead m q a k l).now = s.now := by simp [State.now]

/-- Two states that agree in every field are the same. -/
theorem State.ext_fields {s t : State} (h_boxes : s.boxes = t.boxes) (h_port : s.port = t.port) (h_log : s.log = t.log) (h_counters : s.counters = t.counters) (h_monitor : s.monitor = t.monitor) (h_time : s.time = t.time) (h_start : s.start = t.start) (h_mem : s.mem = t.mem) (h_arrays : s.arrays = t.arrays) (h_motifs : s.motifs = t.motifs) (h_seqs : s.seqs = t.seqs) (h_steps : s.steps = t.steps) (h_data : s.data = t.data) (h_attn : s.attn = t.attn) (h_knots : s.knots = t.knots) (h_fabric : s.fabric = t.fabric) (h_thermal : s.thermal = t.thermal) (h_fw : s.fw = t.fw) (h_cfg : s.cfg = t.cfg) (h_islands : s.islands = t.islands) (h_take : s.take = t.take) (h_draws : s.draws = t.draws) (h_pending : s.pending = t.pending) : s = t := by
  cases s; cases t; simp_all

end Sys2Proof.Machine
end

