-- ==== Sys2Proof/Laws/Completion.lean ====
section
/-! SUPPORT. What completing a command does: its DONE record, its status word, and everything else left alone (R72, R75, R78). -/

namespace Sys2Proof.Machine

@[simp] theorem State.setBox_setBox (s : State) (m : Nat) (b c : Mailbox) : (s.setBox m b).setBox m c = s.setBox m c := by
  simp [State.setBox, Tab.put_put]

/-- Setting a mailbox changes no table of `boxes` but that of the mailboxes. -/
@[simp] theorem State.setBox_noted (s : State) (m : Nat) (b : Mailbox) : (s.setBox m b).boxes.noted = s.boxes.noted := rfl
@[simp] theorem State.setBox_consumed (s : State) (m : Nat) (b : Mailbox) : (s.setBox m b).boxes.consumed = s.boxes.consumed := rfl

/-- Whether the spare is told does not turn on the DONE record that waits. -/
@[simp] theorem State.tells_doneWait (s : State) (m : Nat) (d : Option DoneRec) : (s.setBox m { s.box m with doneWait := d }).tells m = s.tells m := by
  simp only [State.tells, State.loadsHere, State.isHead, State.setBox_box, if_true]
  rfl

/-- Completing a command when its record finds a free slot and no effect waits for the record: its mailbox finishes, and the spare is told. -/
theorem State.complete_eq {s : State} {m : Nat} (status detail progress result : Nat) (hr : (s.box m).records - (s.box m).readCount < 16383)
    (hb : s.cfg.breakQps = false) :
    s.complete m status detail progress result =
      if s.tells m = true then
        (s.setBox m (finishBox m s.now (s.box m) { status := status, detail := detail % 2 ^ 32, progress := progress, result := result })).sendSync 1 m [] []
      else s.setBox m (finishBox m s.now (s.box m) { status := status, detail := detail % 2 ^ 32, progress := progress, result := result }) := by
  have h1 : freeSlots { s.box m with doneWait := some { status := status, detail := detail % 2 ^ 32, progress := progress, result := result } } ≠ 0 := by
    simp [freeSlots, Config.resultSlots]; omega
  unfold State.complete State.finish
  simp only [State.setBox_box, if_true, State.setBox_now, if_neg h1, State.setBox_setBox, State.tells_doneWait]
  rw [if_neg (by split <;> simp [hb])]
  rfl

/-- A module that is no head tells no spare, but of the first load that it consumes. -/
theorem State.headSync_of_not_head {s : State} {m : Nat} (h : s.isHead = false) (hl : s.loadsHere m = false) (k : Nat) (e : Bytes) (l : List Nat) :
    s.headSync k m e l = s := by
  simp [State.headSync, State.tells, h, hl]

@[simp] theorem finishBox_cur (m now : Nat) (b : Mailbox) (d : DoneRec) : (finishBox m now b d).cur = none := rfl
@[simp] theorem finishBox_doneWait (m now : Nat) (b : Mailbox) (d : DoneRec) : (finishBox m now b d).doneWait = none := rfl
@[simp] theorem finishBox_done (m now : Nat) (b : Mailbox) (d : DoneRec) : (finishBox m now b d).done = true := rfl
@[simp] theorem finishBox_idle (m now : Nat) (b : Mailbox) (d : DoneRec) : (finishBox m now b d).idle = true := rfl
@[simp] theorem finishBox_status (m now : Nat) (b : Mailbox) (d : DoneRec) : (finishBox m now b d).status = d.status := rfl
@[simp] theorem finishBox_detail (m now : Nat) (b : Mailbox) (d : DoneRec) : (finishBox m now b d).detail = d.detail := rfl
@[simp] theorem finishBox_progress (m now : Nat) (b : Mailbox) (d : DoneRec) : (finishBox m now b d).progress = d.progress := rfl
@[simp] theorem finishBox_records (m now : Nat) (b : Mailbox) (d : DoneRec) : (finishBox m now b d).records = b.records + 1 := rfl
@[simp] theorem finishBox_version (m now : Nat) (b : Mailbox) (d : DoneRec) : (finishBox m now b d).version = b.version := rfl
@[simp] theorem finishBox_updates (m now : Nat) (b : Mailbox) (d : DoneRec) : (finishBox m now b d).updates = b.updates + 1 := rfl
@[simp] theorem finishBox_results (m now : Nat) (b : Mailbox) (d : DoneRec) :
    (finishBox m now b d).results = (putRecord m b 2 now (doneFields d)).results := by
  simp only [finishBox, touchBox]

/-- What a completion says of the command that completes (R72, R78). -/
theorem State.complete_completes {s : State} {m : Nat} (status detail progress result : Nat) (hr : (s.box m).records - (s.box m).readCount < 16383)
    (hb : s.cfg.breakQps = false) :
    Completes s (s.complete m status detail progress result) m status (detail % 2 ^ 32) progress result := by
  rw [State.complete_eq _ _ _ _ hr hb]
  split
  all_goals refine ⟨by simp, by simp, by simp, by simp, by simp, by simp, by simp, by simp, ?_, fun k hk => by simp [hk]⟩
  all_goals
    simp only [State.sendSync_box, State.setBox_box, if_true, finishBox_results, putRecord, Config.resultSlots]
    rw [Tab.get_put_same]

/-- What a completion changes. -/
theorem State.complete_frame {s : State} {m : Nat} (status detail progress result : Nat) (hr : (s.box m).records - (s.box m).readCount < 16383)
    (hb : s.cfg.breakQps = false) :
    s.complete m status detail progress result =
      { s with boxes := { s.boxes with box := (s.complete m status detail progress result).boxes.box },
               fabric := (s.complete m status detail progress result).fabric } := by
  rw [State.complete_eq _ _ _ _ hr hb]
  split <;> (apply State.ext_fields <;> simp) <;> rfl

/-- A command that fails keeps its progress, and its result is what its opcode gives (R78). -/
theorem State.failCmd_completes {s : State} {m : Nat} (status detail : Nat) (hr : (s.box m).records - (s.box m).readCount < 16383)
    (hb : s.cfg.breakQps = false) : Completes s (s.failCmd m status detail) m status (detail % 2 ^ 32) (s.box m).progress (s.resultOf (s.entryOf m)) :=
  State.complete_completes status detail _ _ hr hb

/-- A command that completes as requested shows its target. -/
theorem State.okCmd_completes {s : State} {m : Nat} (result : Nat) (hr : (s.box m).records - (s.box m).readCount < 16383)
    (hb : s.cfg.breakQps = false) : Completes s (s.okCmd m result) m 0 0 (s.box m).target result :=
  State.complete_completes 0 0 _ result hr hb

/-! ### Commands in progress -/

/-- The row of a command in progress is its effect. -/
theorem command_ready {s : State} {m op : Nat} {e : Bytes} (h : Ready s m op e) (f : State → State) : command m op s f = .next (f s) := by
  obtain ⟨hm, hs, hc, ho, hd, -, -⟩ := h
  cases hx : (s.box m).cur with
  | none => simp [hx] at hc
  | some c =>
    simp only [hx, Option.map_some, Option.some.injEq] at hc
    simp [command, need, Config.mailboxes, hm, onlyIf, activeCmd, hx, hc, ho, hd, hs]

theorem Ready.entryOf {s : State} {m op : Nat} {e : Bytes} (h : Ready s m op e) : s.entryOf m = e := by
  obtain ⟨-, -, hc, -⟩ := h
  unfold State.entryOf
  cases hx : (s.box m).cur with
  | none => simp [hx] at hc
  | some c => simpa [hx] using hc

theorem Ready.free {s : State} {m op : Nat} {e : Bytes} (h : Ready s m op e) : (s.box m).records - (s.box m).readCount < 16383 := h.2.2.2.2.2.1

theorem Ready.breakQps {s : State} {m op : Nat} {e : Bytes} (h : Ready s m op e) : s.cfg.breakQps = false := h.2.2.2.2.2.2

/-- The row of an update command that waits for none is its effect. -/
theorem updateCommand_ready {s : State} {m op : Nat} {e : Bytes} (h : Ready s m op e) (hw : s.updateWaits m = false) (f : State → State) :
    updateCommand m op s f = .next (f s) := by
  rw [updateCommand, command_ready h]
  simp [onlyIf, hw]

end Sys2Proof.Machine
end

