-- ==== Sys2Proof/Laws/Keeps.lean ====
section
/-! SUPPORT. What no operation of the model takes back: the memory window stays canonical, the version floor and the revocations stay, the queue stays. -/

namespace Sys2Proof.Machine

/-- Between `s` and `t` the memory window has stayed canonical, nothing of the selvage's trust has gone back, and the queue is the same. -/
structure Keeps (s t : State) : Prop where
  mem : s.memCanonical → t.memCanonical
  trust : s.keepsTrust t
  queue : t.pending = s.pending

theorem Keeps.refl (s : State) : Keeps s s := ⟨id, ⟨BitVec.le_refl _, BitVec.and_self⟩, rfl⟩

theorem State.keepsTrust_trans {s t u : State} (h : s.keepsTrust t) (k : t.keepsTrust u) : s.keepsTrust u := by
  refine ⟨BitVec.le_trans h.1 k.1, ?_⟩
  rw [← h.2, BitVec.and_assoc, k.2]

theorem Keeps.trans {s t u : State} (h : Keeps s t) (k : Keeps t u) : Keeps s u :=
  ⟨fun a => k.mem (h.mem a), State.keepsTrust_trans h.trust k.trust, k.queue.trans h.queue⟩

/-- A state that differs from one kept in neither the memory window, nor the trust of the selvage, nor the queue. -/
theorem Keeps.of_fields {s t u : State} (h : Keeps s t) (hm : u.mem.window = t.mem.window) (hf : u.fw.floor = t.fw.floor) (hr : u.fw.revoked = t.fw.revoked)
    (hp : u.pending = t.pending) : Keeps s u := by
  refine ⟨fun a => ?_, ⟨?_, ?_⟩, hp.trans h.queue⟩
  · have := h.mem a
    unfold State.memCanonical Memory.wf at this ⊢
    rwa [hm]
  · rw [hf]; exact h.trust.1
  · rw [hr]; exact h.trust.2

/-- A new value of fields other than the memory, the firmware and the queue. -/
theorem Keeps.put_iff {s u : State} {boxes : Mailboxes} {port : HostPort} {log : EventLog} {counters : Counters} {monitor : Monitor} {time : TimeUnit}
    {start : Startup} {arrays : Arrays} {motifs : Motifs} {seqs : Seqs} {steps : Steps} {data : DataPath} {attn : Attention} {knots : Knots} {fabric : Fabric}
    {thermal : Thermal} {cfg : ConfigState} {islands : Islands} {take : Takeover} {draws : Nat} :
    Keeps s ⟨boxes, port, log, counters, monitor, time, start, u.mem, arrays, motifs, seqs, steps, data, attn, knots, fabric, thermal, u.fw, cfg, islands, take,
      draws, u.pending⟩ ↔ Keeps s u := ⟨fun h => h.of_fields rfl rfl rfl rfl, fun h => h.of_fields rfl rfl rfl rfl⟩

/-- A new value of firmware fields that are no trust. -/
theorem Keeps.putFw {s u : State} {boxes : Mailboxes} {port : HostPort} {log : EventLog} {counters : Counters} {monitor : Monitor} {time : TimeUnit}
    {start : Startup} {arrays : Arrays} {motifs : Motifs} {seqs : Seqs} {steps : Steps} {data : DataPath} {attn : Attention} {knots : Knots} {fabric : Fabric}
    {thermal : Thermal} {fw : Firmware} {cfg : ConfigState} {islands : Islands} {take : Takeover} {draws : Nat} (h : Keeps s u)
    (hf : fw.floor = u.fw.floor) (hr : fw.revoked = u.fw.revoked) :
    Keeps s ⟨boxes, port, log, counters, monitor, time, start, u.mem, arrays, motifs, seqs, steps, data, attn, knots, fabric, thermal, fw, cfg, islands, take,
      draws, u.pending⟩ := h.of_fields rfl hf hr rfl

/-- A new value of the memory that is still canonical. -/
theorem Keeps.putMem {s u : State} {boxes : Mailboxes} {port : HostPort} {log : EventLog} {counters : Counters} {monitor : Monitor} {time : TimeUnit}
    {start : Startup} {mem : Memory} {arrays : Arrays} {motifs : Motifs} {seqs : Seqs} {steps : Steps} {data : DataPath} {attn : Attention} {knots : Knots}
    {fabric : Fabric} {thermal : Thermal} {cfg : ConfigState} {islands : Islands} {take : Takeover} {draws : Nat} (h : Keeps s u)
    (hm : u.mem.wf = true → mem.wf = true) :
    Keeps s ⟨boxes, port, log, counters, monitor, time, start, mem, arrays, motifs, seqs, steps, data, attn, knots, fabric, thermal, u.fw, cfg, islands, take,
      draws, u.pending⟩ := ⟨fun a => hm (h.mem a), h.trust, h.queue⟩

theorem Keeps.ite {s t u : State} {c : Prop} [Decidable c] (ht : Keeps s t) (hu : Keeps s u) : Keeps s (if c then t else u) := by
  split
  · exact ht
  · exact hu

theorem Keeps.foldl {α : Type} {s : State} {f : State → α → State} (hf : ∀ u x, Keeps s u → Keeps s (f u x)) (l : List α) {t : State} (h : Keeps s t) :
    Keeps s (l.foldl f t) := by
  induction l generalizing t with
  | nil => exact h
  | cons x l ih => exact ih (hf t x h)

/-- What a command row answers is kept if what it may answer is. -/
theorem need_keeps {s t u : State} {ok : Bool} {f : Fault} (hu : Keeps s u) (ht : need ok f u = .next t) : Keeps s t := by
  unfold need at ht
  split at ht <;> cases ht
  exact hu

theorem onlyIf_keeps {s t u : State} (c : Bool) (ht : Keeps s t) (hu : Keeps s u) : Keeps s (onlyIf c t u) := by
  unfold onlyIf
  split
  · exact hu
  · exact ht

theorem State.draw_keeps {s u : State}  (hsu : Keeps s u) : Keeps s (State.draw u).2 := by
  unfold State.draw
  try dsimp only
  repeat' with_reducible (first | assumption | simp only [Keeps.put_iff])

theorem State.setBox_keeps {s u : State} (m : Nat) (b : Mailbox) (hsu : Keeps s u) : Keeps s (State.setBox u m b) := by
  unfold State.setBox
  try dsimp only
  repeat' with_reducible (first | assumption | simp only [Keeps.put_iff])

theorem State.setArray_keeps {s u : State} (a : Nat) (v : ArrayState) (hsu : Keeps s u) : Keeps s (State.setArray u a v) := by
  unfold State.setArray
  try dsimp only
  repeat' with_reducible (first | assumption | simp only [Keeps.put_iff])

theorem State.setPhys_keeps {s u : State} (p : Nat) (v : PhysArray) (hsu : Keeps s u) : Keeps s (State.setPhys u p v) := by
  unfold State.setPhys
  try dsimp only
  repeat' with_reducible (first | assumption | simp only [Keeps.put_iff])

theorem State.setMotif_keeps {s u : State} (m : Nat) (e : MotifEntry) (hsu : Keeps s u) : Keeps s (State.setMotif u m e) := by
  unfold State.setMotif
  try dsimp only
  repeat' with_reducible (first | assumption | simp only [Keeps.put_iff])

theorem State.setBride_keeps {s u : State} (b : Nat) (v : Bride) (hsu : Keeps s u) : Keeps s (State.setBride u b v) := by
  unfold State.setBride
  try dsimp only
  repeat' with_reducible (first | assumption | simp only [Keeps.put_iff])

theorem State.setSensor_keeps {s u : State} (i : Nat) (v : Sensor) (hsu : Keeps s u) : Keeps s (State.setSensor u i v) := by
  unfold State.setSensor
  try dsimp only
  repeat' with_reducible (first | assumption | simp only [Keeps.put_iff])

theorem State.setIsland_keeps {s u : State} (i : Nat) (v : Island) (hsu : Keeps s u) : Keeps s (State.setIsland u i v) := by
  unfold State.setIsland
  try dsimp only
  repeat' with_reducible (first | assumption | simp only [Keeps.put_iff])

theorem State.setMonEntry_keeps {s u : State} (i : Nat) (v : MonEntry) (hsu : Keeps s u) : Keeps s (State.setMonEntry u i v) := by
  unfold State.setMonEntry
  try dsimp only
  repeat' with_reducible (first | assumption | simp only [Keeps.put_iff])

theorem State.count_keeps {s u : State} (f : Counters → Counters) (hsu : Keeps s u) : Keeps s (State.count u f) := by
  unfold State.count
  try dsimp only
  repeat' with_reducible (first | assumption | simp only [Keeps.put_iff])

theorem State.event_keeps {s u : State} (e : Event) (hsu : Keeps s u) : Keeps s (State.event u e) := by
  unfold State.event
  try dsimp only
  repeat' with_reducible (first | assumption | simp only [Keeps.put_iff] | apply Keeps.ite)

theorem State.ev_keeps {s u : State} (cls code op kind index : Nat) (detail : Bytes) (hsu : Keeps s u) : Keeps s (State.ev u cls code op kind index detail) := by
  unfold State.ev
  try dsimp only
  repeat' with_reducible (first | assumption | apply State.event_keeps)

theorem State.evDiscarded_keeps {s u : State} (window offset : Nat) (hsu : Keeps s u) : Keeps s (State.evDiscarded u window offset) := by
  unfold State.evDiscarded
  try dsimp only
  repeat' with_reducible (first | assumption | apply State.ev_keeps)

theorem State.evReadCount_keeps {s u : State} (kind index value : Nat) (hsu : Keeps s u) : Keeps s (State.evReadCount u kind index value) := by
  unfold State.evReadCount
  try dsimp only
  repeat' with_reducible (first | assumption | apply State.ev_keeps)

theorem State.evUpdate_keeps {s u : State} (code : Nat) (detail : Bytes) (hsu : Keeps s u) : Keeps s (State.evUpdate u code detail) := by
  unfold State.evUpdate
  try dsimp only
  repeat' with_reducible (first | assumption | apply State.ev_keeps)

theorem State.flitsOut_keeps {s u : State} (fs : List FlitOut) (hsu : Keeps s u) : Keeps s (State.flitsOut u fs) := by
  unfold State.flitsOut
  try dsimp only
  repeat' with_reducible (first | assumption | simp only [Keeps.put_iff])

theorem State.pump_keeps {s u : State} (b : Nat) (hsu : Keeps s u) : Keeps s (State.pump u b) := by
  unfold State.pump
  try dsimp only
  repeat' with_reducible (first | assumption | apply State.setBride_keeps | apply State.flitsOut_keeps)

theorem State.toBride_keeps {s u : State} (m : Msg) (hsu : Keeps s u) : Keeps s (State.toBride u m) := by
  unfold State.toBride
  try dsimp only
  repeat' with_reducible (first | assumption | apply State.setBride_keeps | apply State.pump_keeps | simp only [Keeps.put_iff] | apply Keeps.ite | split)

theorem State.send_keeps {s u : State} (m : Msg) (hsu : Keeps s u) : Keeps s (State.send u m) := by
  unfold State.send
  try dsimp only
  repeat' with_reducible (first | assumption | apply State.toBride_keeps | simp only [Keeps.put_iff])

theorem State.sendAll_keeps {s u : State} (dests : List Nat) (tag : Option StepTag) (body : MsgBody) (hsu : Keeps s u) : Keeps s (State.sendAll u dests tag body) := by
  unfold State.sendAll
  try dsimp only
  repeat' with_reducible (first | assumption | (apply Keeps.foldl; intro _ _ _) | apply State.send_keeps)

theorem State.toHost_keeps {s u : State} (o : HostOut) (hsu : Keeps s u) : Keeps s (State.toHost u o) := by
  unfold State.toHost
  try dsimp only
  repeat' with_reducible (first | assumption | simp only [Keeps.put_iff])

theorem State.drivePins_keeps {s u : State}  (hsu : Keeps s u) : Keeps s (State.drivePins u) := by
  unfold State.drivePins
  try dsimp only
  repeat' with_reducible (first | assumption | simp only [Keeps.put_iff])

theorem State.update_keeps {s u : State} (m : Nat) (f : Mailbox → Mailbox) (hsu : Keeps s u) : Keeps s (State.update u m f) := by
  unfold State.update
  try dsimp only
  repeat' with_reducible (first | assumption | apply State.setBox_keeps)

theorem State.markSlows_keeps {s u : State} (motif seq : Nat) (mask : BitVec 16) (hsu : Keeps s u) : Keeps s (State.markSlows u motif seq mask) := by
  unfold State.markSlows
  try dsimp only
  repeat' with_reducible (first | assumption | (apply Keeps.foldl; intro _ _ _) | apply State.update_keeps | simp only [Keeps.put_iff])

theorem State.markSlow_keeps {s u : State} (motif seq cause : Nat) (hsu : Keeps s u) : Keeps s (State.markSlow u motif seq cause) := by
  unfold State.markSlow
  try dsimp only
  repeat' with_reducible (first | assumption | apply State.markSlows_keeps)

theorem State.sendSync_keeps {s u : State} (kind m : Nat) (entry : Bytes) (tokens : List Nat) (hsu : Keeps s u) : Keeps s (State.sendSync u kind m entry tokens) := by
  unfold State.sendSync
  try dsimp only
  repeat' with_reducible (first | assumption | apply State.send_keeps | simp only [Keeps.put_iff] | apply Keeps.ite | split)

theorem State.headSync_keeps {s u : State} (kind m : Nat) (entry : Bytes) (tokens : List Nat) (hsu : Keeps s u) : Keeps s (State.headSync u kind m entry tokens) := by
  unfold State.headSync
  try dsimp only
  repeat' with_reducible (first | assumption | apply State.sendSync_keeps | simp only [Keeps.put_iff] | apply Keeps.ite)

theorem State.finish_keeps {s u : State} (m : Nat) (hsu : Keeps s u) : Keeps s (State.finish u m) := by
  unfold State.finish
  try dsimp only
  repeat' with_reducible (first | assumption | apply State.setBox_keeps | apply State.sendSync_keeps | simp only [Keeps.put_iff] | apply Keeps.ite | split)

theorem State.complete_keeps {s u : State} (m status detail progress result : Nat) (hsu : Keeps s u) : Keeps s (State.complete u m status detail progress result) := by
  unfold State.complete
  try dsimp only
  repeat' with_reducible (first | assumption | apply State.setBox_keeps | apply State.finish_keeps)

theorem State.failCmd_keeps {s u : State} (m status detail : Nat) (hsu : Keeps s u) : Keeps s (State.failCmd u m status detail) := by
  unfold State.failCmd
  try dsimp only
  repeat' with_reducible (first | assumption | apply State.complete_keeps)

theorem State.okCmd_keeps {s u : State} (m result : Nat) (hsu : Keeps s u) : Keeps s (State.okCmd u m result) := by
  unfold State.okCmd
  try dsimp only
  repeat' with_reducible (first | assumption | apply State.complete_keeps)

theorem State.setCmd_keeps {s u : State} (m : Nat) (f : Cmd → Cmd) (hsu : Keeps s u) : Keeps s (State.setCmd u m f) := by
  unfold State.setCmd
  try dsimp only
  repeat' with_reducible (first | assumption | apply State.setBox_keeps)

theorem State.refuseCmd_keeps {s u : State} (m op status : Nat) (hsu : Keeps s u) : Keeps s (State.refuseCmd u m op status) := by
  unfold State.refuseCmd
  try dsimp only
  repeat' with_reducible (first | assumption | apply State.evUpdate_keeps | apply State.failCmd_keeps)

theorem State.loadRecord_keeps {s u : State} (m : Nat) (r : LoadReport) (hsu : Keeps s u) : Keeps s (State.loadRecord u m r) := by
  unfold State.loadRecord
  try dsimp only
  repeat' with_reducible (first | assumption | apply State.setBox_keeps | simp only [Keeps.put_iff] | apply Keeps.ite)

theorem State.startRead_keeps {s u : State} (m : Nat) (qp addr rkey len : Nat) (hsu : Keeps s u) : Keeps s (State.startRead u m qp addr rkey len) := by
  unfold State.startRead
  try dsimp only
  repeat' with_reducible (first | assumption | apply State.toHost_keeps | apply State.setCmd_keeps | simp only [Keeps.put_iff] | apply Keeps.ite)

theorem State.readBuffer_keeps {s u : State} (m len : Nat) (hsu : Keeps s u) : Keeps s (State.readBuffer u m len) := by
  unfold State.readBuffer
  try dsimp only
  repeat' with_reducible (first | assumption | apply State.startRead_keeps | simp only [Keeps.put_iff] | apply Keeps.ite | split)

theorem State.deliver_keeps {s u : State} (m : Nat) (data : Bytes) (hsu : Keeps s u) : Keeps s (State.deliver u m data) := by
  unfold State.deliver
  try dsimp only
  repeat' with_reducible (first | assumption | apply State.toHost_keeps | apply State.failCmd_keeps | apply State.setCmd_keeps | simp only [Keeps.put_iff] | apply Keeps.ite | split)

theorem State.setTarget_keeps {s u : State} (m n : Nat) (hsu : Keeps s u) : Keeps s (State.setTarget u m n) := by
  unfold State.setTarget
  try dsimp only
  repeat' with_reducible (first | assumption | apply State.update_keeps)

theorem State.setProgress_keeps {s u : State} (m n : Nat) (hsu : Keeps s u) : Keeps s (State.setProgress u m n) := by
  unfold State.setProgress
  try dsimp only
  repeat' with_reducible (first | assumption | apply State.update_keeps)

theorem idle_keeps {s u : State}  (hsu : Keeps s u) : Keeps s (idle u) := by
  unfold idle
  try dsimp only
  repeat' with_reducible (first | assumption | apply onlyIf_keeps | simp only [Keeps.put_iff])

theorem logStray_keeps {s u : State} (w : Nat) (o : Option Nat) (hsu : Keeps s u) : Keeps s (logStray u w o) := by
  cases o
  · exact hsu
  · exact State.evDiscarded_keeps _ _ hsu

theorem syncReadCount_keeps {s u : State} (m : Nat) (hsu : Keeps s u) : Keeps s (syncReadCount u m) := by
  unfold syncReadCount
  try dsimp only
  repeat' with_reducible (first | assumption | apply State.headSync_keeps | simp only [Keeps.put_iff] | apply Keeps.ite)

theorem State.syncWaiting_keeps {s u : State}  (hsu : Keeps s u) : Keeps s (State.syncWaiting u) := by
  unfold State.syncWaiting
  try dsimp only
  repeat' with_reducible (first | assumption | (apply Keeps.foldl; intro _ _ _) | apply syncReadCount_keeps)

theorem takeReadCount_keeps {s u : State} (m value : Nat) (hsu : Keeps s u) : Keeps s (takeReadCount u m value) := by
  unfold takeReadCount
  try dsimp only
  repeat' with_reducible (first | assumption | apply State.setBox_keeps | apply State.evReadCount_keeps | apply syncReadCount_keeps | simp only [Keeps.put_iff] | apply Keeps.ite)

theorem takeEventCount_keeps {s u : State} (value : Nat) (hsu : Keeps s u) : Keeps s (takeEventCount u value) := by
  unfold takeEventCount
  try dsimp only
  repeat' with_reducible (first | assumption | apply State.evReadCount_keeps | simp only [Keeps.put_iff] | apply Keeps.ite)

theorem takeCaptureCount_keeps {s u : State} (value : Nat) (hsu : Keeps s u) : Keeps s (takeCaptureCount u value) := by
  unfold takeCaptureCount
  try dsimp only
  repeat' with_reducible (first | assumption | apply State.evReadCount_keeps | simp only [Keeps.put_iff] | apply Keeps.ite)

theorem writeEntry_keeps {s u : State} (qp off : Nat) (data : Bytes) (hsu : Keeps s u) : Keeps s (writeEntry u qp off data) := by
  unfold writeEntry
  try dsimp only
  repeat' with_reducible (first | assumption | apply State.setBox_keeps | apply State.ev_keeps | apply State.evDiscarded_keeps | apply State.update_keeps | simp only [Keeps.put_iff] | apply Keeps.ite)

theorem writeResults_keeps {s u : State} (off : Nat) (data : Bytes) (hsu : Keeps s u) : Keeps s (writeResults u off data) := by
  unfold writeResults
  try dsimp only
  repeat' with_reducible (first | assumption | (apply Keeps.foldl; intro _ _ _) | apply logStray_keeps | apply takeReadCount_keeps | simp only [Keeps.put_iff] | apply Keeps.ite | split)

theorem writeCoef_keeps {s u : State} (off : Nat) (data : Bytes) (hsu : Keeps s u) : Keeps s (writeCoef u off data) := by
  unfold writeCoef
  dsimp only
  apply Keeps.foldl
  · intro v k hv
    exact Keeps.put_iff.mpr hv
  · exact logStray_keeps _ _ hsu

theorem writeHostArea_keeps {s u : State} (off : Nat) (data : Bytes) (hsu : Keeps s u) : Keeps s (writeHostArea u off data) := by
  unfold writeHostArea
  have hk := logStray_keeps 7 (firstStray (fun o => u.inHostArea o 1) off data.length) hsu
  dsimp only
  split
  · exact Keeps.putMem hk fun hw => memWrite_wf _ _ _ hw
  · exact hk

theorem windowWrite_keeps {s u : State} (qp w off : Nat) (data : Bytes) (hsu : Keeps s u) : Keeps s (windowWrite u qp w off data) := by
  unfold windowWrite
  try dsimp only
  repeat' with_reducible (first | assumption | apply State.evDiscarded_keeps | apply logStray_keeps | apply takeEventCount_keeps | apply takeCaptureCount_keeps | apply writeEntry_keeps | apply writeResults_keeps | apply writeCoef_keeps | apply writeHostArea_keeps | simp only [Keeps.put_iff] | apply Keeps.ite | split)

theorem State.setQp_keeps {s u : State} (qp : Nat) (f : QueuePair → QueuePair) (hsu : Keeps s u) : Keeps s (State.setQp u qp f) := by
  unfold State.setQp
  try dsimp only
  repeat' with_reducible (first | assumption | simp only [Keeps.put_iff])

theorem State.breakQp_keeps {s u : State} (qp : Nat) (hsu : Keeps s u) : Keeps s (State.breakQp u qp) := by
  unfold State.breakQp
  try dsimp only
  repeat' with_reducible (first | assumption | apply State.setQp_keeps)

theorem scan_keeps {s u : State}  (hsu : Keeps s u) : Keeps s (scan u) := by
  unfold scan
  try dsimp only
  repeat' with_reducible (first | assumption | simp only [Keeps.put_iff])

theorem State.setStep_keeps {s u : State} (t : StepTag) (f : StepRec → StepRec) (hsu : Keeps s u) : Keeps s (State.setStep u t f) := by
  unfold State.setStep
  try dsimp only
  repeat' with_reducible (first | assumption | simp only [Keeps.put_iff])

theorem State.purge_keeps {s u : State} (t : StepTag) (hsu : Keeps s u) : Keeps s (State.purge u t) := by
  unfold State.purge
  exact Keeps.putMem hsu id

theorem State.switchProgress_keeps {s u : State} (motif gen : Nat) (hsu : Keeps s u) : Keeps s (State.switchProgress u motif gen) := by
  unfold State.switchProgress
  try dsimp only
  repeat' with_reducible (first | assumption | apply State.update_keeps | simp only [Keeps.put_iff] | apply Keeps.ite | split)

theorem State.endStep_keeps {s u : State} (t : StepTag) (length : Nat) (uncommitted : Bool) (hsu : Keeps s u) : Keeps s (State.endStep u t length uncommitted) := by
  unfold State.endStep
  try dsimp only
  repeat' with_reducible (first | assumption | apply State.setStep_keeps | apply State.purge_keeps | apply State.switchProgress_keeps | simp only [Keeps.put_iff] | apply Keeps.ite | split)

theorem State.dropBygone_keeps {s u : State} (t : StepTag) (hsu : Keeps s u) : Keeps s (State.dropBygone u t) := by
  unfold State.dropBygone
  try dsimp only
  repeat' with_reducible (first | assumption | simp only [Keeps.put_iff] | apply Keeps.ite)

theorem State.endCompanions_keeps {s u : State} (t : StepTag) (hsu : Keeps s u) : Keeps s (State.endCompanions u t) := by
  unfold State.endCompanions
  try dsimp only
  repeat' with_reducible (first | assumption | (apply Keeps.foldl; intro _ _ _) | apply State.endStep_keeps | simp only [Keeps.put_iff] | apply Keeps.ite)

theorem State.withStep_keeps {s u : State} (t : StepTag) (hsu : Keeps s u) : Keeps s (State.withStep u t) := by
  unfold State.withStep
  try dsimp only
  repeat' with_reducible (first | assumption | apply State.dropBygone_keeps | apply State.endCompanions_keeps | simp only [Keeps.put_iff] | apply Keeps.ite)

theorem State.stepSlow_keeps {s u : State} (t : StepTag) (cause : Nat) (hsu : Keeps s u) : Keeps s (State.stepSlow u t cause) := by
  unfold State.stepSlow
  try dsimp only
  repeat' with_reducible (first | assumption | apply State.setStep_keeps)

theorem State.noteSent_keeps {s u : State} (t : StepTag) (dest : Nat) (attn : Bool) (hsu : Keeps s u) : Keeps s (State.noteSent u t dest attn) := by
  unfold State.noteSent
  try dsimp only
  repeat' with_reducible (first | assumption | apply State.setStep_keeps)

theorem State.sendData_keeps {s u : State} (t : StepTag) (dest : Nat) (last attn : Bool) (body : MsgBody) (hsu : Keeps s u) : Keeps s (State.sendData u t dest last attn body) := by
  unfold State.sendData
  try dsimp only
  repeat' with_reducible (first | assumption | apply State.send_keeps | apply State.noteSent_keeps)

theorem State.sweepAll_keeps {s u : State} (t : StepTag) (lo : Nat) (lam : Lineage) (keep : Keep) (outs : Nat → ArrayOut → Bool) (hsu : Keeps s u) : Keeps s (State.sweepAll u t lo lam keep outs) := by
  unfold State.sweepAll
  try dsimp only
  repeat' with_reducible (first | assumption | simp only [Keeps.put_iff])

theorem State.discardTree_keeps {s u : State} (t : StepTag) (hsu : Keeps s u) : Keeps s (State.discardTree u t) := by
  unfold State.discardTree
  try dsimp only
  repeat' with_reducible (first | assumption | simp only [Keeps.put_iff] | apply Keeps.ite)

theorem State.applyRecall_keeps {s u : State} (t : StepTag) (f : Nat) (lam : Lineage) (origin keepAttn : Bool) (body : RecallBody) (hsu : Keeps s u) : Keeps s (State.applyRecall u t f lam origin keepAttn body) := by
  unfold State.applyRecall
  try dsimp only
  repeat' with_reducible (first | assumption | apply State.sendAll_keeps | apply State.setStep_keeps | apply State.sweepAll_keeps | apply State.discardTree_keeps | simp only [Keeps.put_iff] | apply Keeps.ite | split)

theorem State.raiseOne_keeps {s u : State} (t : StepTag) (cause f array kind index : Nat) (noReplay : Bool) (hsu : Keeps s u) : Keeps s (State.raiseOne u t cause f array kind index noReplay) := by
  unfold State.raiseOne
  try dsimp only
  repeat' with_reducible (first | assumption | apply State.count_keeps | apply State.event_keeps | apply State.sendAll_keeps | apply State.setStep_keeps | apply State.applyRecall_keeps | simp only [Keeps.put_iff] | apply Keeps.ite | split)

theorem State.recallDependents_keeps {s u : State} (t : StepTag) (f : Nat) (noReplay : Bool) (hsu : Keeps s u) : Keeps s (State.recallDependents u t f noReplay) := by
  unfold State.recallDependents
  try dsimp only
  repeat' with_reducible (first | assumption | (apply Keeps.foldl; intro _ _ _) | apply State.raiseOne_keeps | simp only [Keeps.put_iff] | apply Keeps.ite)

theorem State.raiseRecall_keeps {s u : State} (t : StepTag) (cause f array kind index : Nat) (hsu : Keeps s u) : Keeps s (State.raiseRecall u t cause f array kind index) := by
  unfold State.raiseRecall
  try dsimp only
  repeat' with_reducible (first | assumption | apply State.raiseOne_keeps | apply State.recallDependents_keeps)

theorem State.takeRecall_keeps {s u : State} (t : StepTag) (lam : Lineage) (f : Nat) (body : RecallBody) (hsu : Keeps s u) : Keeps s (State.takeRecall u t lam f body) := by
  unfold State.takeRecall
  try dsimp only
  repeat' with_reducible (first | assumption | apply State.setStep_keeps | apply State.applyRecall_keeps | apply State.recallDependents_keeps | simp only [Keeps.put_iff] | apply Keeps.ite | split)

theorem State.arrive_keeps {s u : State} (t : StepTag) (hsu : Keeps s u) : Keeps s (State.arrive u t).1 := by
  unfold State.arrive
  try dsimp only
  repeat' with_reducible (first | assumption | apply State.setStep_keeps | apply State.withStep_keeps | apply State.takeRecall_keeps | simp only [Keeps.put_iff] | apply Keeps.ite | split)

theorem consume_keeps {s u : State} (m : Nat) (hsu : Keeps s u) : Keeps s (consume u m) := by
  unfold consume
  try dsimp only
  repeat' with_reducible (first | assumption | apply State.setBox_keeps | apply State.headSync_keeps | apply State.failCmd_keeps | apply State.refuseCmd_keeps | simp only [Keeps.put_iff] | apply Keeps.ite | split)

theorem identify_keeps {s u : State} (m : Nat) (hsu : Keeps s u) : Keeps s (identify u m) := by
  unfold identify
  try dsimp only
  repeat' with_reducible (first | assumption | apply State.setBox_keeps | apply State.failCmd_keeps | apply State.okCmd_keeps | simp only [Keeps.put_iff] | apply Keeps.ite | split)

theorem State.storeKnot_keeps {s u : State} (n : Nat) (k : Knot) (hsu : Keeps s u) : Keeps s (State.storeKnot u n k) := by
  unfold State.storeKnot
  try dsimp only
  repeat' with_reducible (first | assumption | simp only [Keeps.put_iff])

theorem State.putKnot_keeps {s u : State} (n : Nat) (k : Knot) (hsu : Keeps s u) : Keeps s (State.putKnot u n k) := by
  unfold State.putKnot
  try dsimp only
  repeat' with_reducible (first | assumption | apply State.storeKnot_keeps | simp only [Keeps.put_iff] | apply Keeps.ite)

theorem State.reply_keeps {s u : State} (r : KnotReply) (hsu : Keeps s u) : Keeps s (State.reply u r) := by
  unfold State.reply
  try dsimp only
  repeat' with_reducible (first | assumption | simp only [Keeps.put_iff])

theorem State.setKnot_keeps {s u : State} (port n : Nat) (k : Knot) (hsu : Keeps s u) : Keeps s (State.setKnot u port n k) := by
  unfold State.setKnot
  try dsimp only
  repeat' with_reducible (first | assumption | apply State.storeKnot_keeps | apply State.putKnot_keeps | simp only [Keeps.put_iff] | apply Keeps.ite)

theorem State.addKnot_keeps {s u : State} (n : Nat) (delta guard : BitVec 32) (hsu : Keeps s u) : Keeps s (State.addKnot u n delta guard) := by
  unfold State.addKnot
  try dsimp only
  repeat' with_reducible (first | assumption | apply State.storeKnot_keeps | apply State.putKnot_keeps | simp only [Keeps.put_iff] | apply Keeps.ite)

theorem State.setPrec_keeps {s u : State} (motif gen layer : Nat) (f : LayerPrec → LayerPrec) (hsu : Keeps s u) : Keeps s (State.setPrec u motif gen layer f) := by
  unfold State.setPrec
  try dsimp only
  repeat' with_reducible (first | assumption | simp only [Keeps.put_iff])

theorem State.setPrecT_keeps {s u : State} (t : StepTag) (f : LayerPrec → LayerPrec) (hsu : Keeps s u) : Keeps s (State.setPrecT u t f) := by
  unfold State.setPrecT
  try dsimp only
  repeat' with_reducible (first | assumption | apply State.setPrec_keeps)

theorem State.countClamps_keeps {s u : State} (t : StepTag) (n : Nat) (hsu : Keeps s u) : Keeps s (State.countClamps u t n) := by
  unfold State.countClamps
  try dsimp only
  repeat' with_reducible (first | assumption | apply State.setPrecT_keeps | simp only [Keeps.put_iff] | apply Keeps.ite)

theorem State.countQuant_keeps {s u : State} (t : StepTag) (q : Quant) (hsu : Keeps s u) : Keeps s (State.countQuant u t q) := by
  unfold State.countQuant
  try dsimp only
  repeat' with_reducible (first | assumption | apply State.setPrecT_keeps | simp only [Keeps.put_iff] | apply Keeps.ite)

theorem State.latchFormat_keeps {s u : State} (t : StepTag) (hsu : Keeps s u) : Keeps s (State.latchFormat u t) := by
  unfold State.latchFormat
  try dsimp only
  repeat' with_reducible (first | assumption | apply State.setStep_keeps | simp only [Keeps.put_iff] | apply Keeps.ite | split)

theorem State.noteThrottle_keeps {s u : State} (t : StepTag) (waited : Bool) (hsu : Keeps s u) : Keeps s (State.noteThrottle u t waited) := by
  unfold State.noteThrottle
  try dsimp only
  repeat' with_reducible (first | assumption | apply State.setStep_keeps)

theorem State.unitServes_keeps {s u : State} (t : StepTag) (island : Nat) (work : Nat × Nat) (hsu : Keeps s u) : Keeps s (State.unitServes u t island work) := by
  unfold State.unitServes
  try dsimp only
  repeat' with_reducible (first | assumption | apply State.draw_keeps | apply State.setStep_keeps | simp only [Keeps.put_iff] | apply Keeps.ite | split)

theorem State.workAt_keeps {s u : State} (t : StepTag) (kind place : Nat) (hsu : Keeps s u) : Keeps s (State.workAt u t kind place) := by
  unfold State.workAt
  try dsimp only
  repeat' with_reducible (first | assumption | apply State.unitServes_keeps | simp only [Keeps.put_iff] | apply Keeps.ite | split)

theorem State.commitShadow_keeps {s u : State} (ph : Nat) (hsu : Keeps s u) : Keeps s (State.commitShadow u ph) := by
  unfold State.commitShadow
  try dsimp only
  repeat' with_reducible (first | assumption | apply State.setArray_keeps | apply State.setPhys_keeps | simp only [Keeps.put_iff] | apply Keeps.ite | split)

theorem State.atLatch_keeps {s u : State} (array p : Nat) (v : LiveVector) (hsu : Keeps s u) : Keeps s (State.atLatch u array p v) := by
  unfold State.atLatch
  try dsimp only
  repeat' with_reducible (first | assumption | apply State.commitShadow_keeps | simp only [Keeps.put_iff] | apply Keeps.ite)

theorem State.latchVector_keeps {s u : State} (array p : Nat) (v : LiveVector) (hsu : Keeps s u) : Keeps s (State.latchVector u array p v) := by
  unfold State.latchVector
  try dsimp only
  repeat' with_reducible (first | assumption | apply State.setArray_keeps | apply State.count_keeps | apply State.atLatch_keeps | simp only [Keeps.put_iff])

theorem State.toTambour_keeps {s u : State} (array : Nat) (v : LiveVector) (hsu : Keeps s u) : Keeps s (State.toTambour u array v) := by
  unfold State.toTambour
  try dsimp only
  repeat' with_reducible (first | assumption | simp only [Keeps.put_iff] | apply Keeps.ite | split)

theorem drainWait_keeps {s u : State} (l : List (Nat × LiveVector)) (hsu : Keeps s u) : Keeps s (drainWait l u) := by
  induction l generalizing u with
  | nil => exact Keeps.put_iff.mpr hsu
  | cons e l ih =>
    obtain ⟨a, v⟩ := e
    rw [drainWait]
    split
    · exact ih (State.toTambour_keeps _ _ hsu)
    · split
      · exact ih (State.toTambour_keeps _ _ hsu)
      · split
        · exact ih (State.latchVector_keeps _ _ _ hsu)
        · exact Keeps.put_iff.mpr hsu

theorem reportClean_keeps {s u : State} (array : Nat) (o : ArrayOut) (hsu : Keeps s u) : Keeps s (reportClean u array o) := by
  unfold reportClean
  try dsimp only
  repeat' with_reducible (first | assumption | apply State.setArray_keeps | apply State.setPhys_keeps)

theorem reportSuspect_keeps {s u : State} (array : Nat) (o : ArrayOut) (f : Nat × Nat × Int × Nat) (hsu : Keeps s u) : Keeps s (reportSuspect u array o f) := by
  unfold reportSuspect
  try dsimp only
  repeat' with_reducible (first | assumption | apply State.setArray_keeps | apply State.count_keeps | apply State.event_keeps | apply State.setStep_keeps | apply State.raiseRecall_keeps | simp only [Keeps.put_iff] | apply Keeps.ite | split)

theorem State.putPart_keeps {s u : State} (c : ChainPart) (hsu : Keeps s u) : Keeps s (State.putPart u c) := by
  unfold State.putPart
  try dsimp only
  repeat' with_reducible (first | assumption | simp only [Keeps.put_iff])

theorem State.auditCopy_keeps {s u : State} (k : ChainKey) (position : Nat) (o : Option (Nat × ArrayOut)) (c : ChainPart) (hsu : Keeps s u) : Keeps s (State.auditCopy u k position o c) := by
  unfold State.auditCopy
  try dsimp only
  repeat' with_reducible (first | assumption | simp only [Keeps.put_iff])

theorem State.auditSelect_keeps {s u : State} (k : ChainKey) (hsu : Keeps s u) : Keeps s (State.auditSelect u k) := by
  unfold State.auditSelect
  try dsimp only
  repeat' with_reducible (first | assumption | (apply Keeps.foldl; intro _ _ _) | apply State.draw_keeps | apply State.setArray_keeps | apply State.setStep_keeps | simp only [Keeps.put_iff] | apply Keeps.ite | split)

theorem State.useTambour_keeps {s u : State} (n : Nat) (hsu : Keeps s u) : Keeps s (State.useTambour u n) := by
  unfold State.useTambour
  try dsimp only
  repeat' with_reducible (first | assumption | simp only [Keeps.put_iff])

theorem State.noteTambour_keeps {s u : State} (t : StepTag) (array : Nat) (hsu : Keeps s u) : Keeps s (State.noteTambour u t array) := by
  unfold State.noteTambour
  try dsimp only
  repeat' with_reducible (first | assumption | apply State.setStep_keeps | apply State.useTambour_keeps)

theorem State.serveJob_keeps {s u : State} (j : TambourJob) (hsu : Keeps s u) : Keeps s (State.serveJob u j) := by
  unfold State.serveJob
  try dsimp only
  repeat' with_reducible (first | assumption | apply State.noteTambour_keeps | simp only [Keeps.put_iff] | apply Keeps.ite | split)

theorem fallbackEvent_keeps {s u : State} (motif layer : Nat) (p : LayerPrec) (o n z : Bool) (hsu : Keeps s u) : Keeps s (fallbackEvent motif layer p o n z u) := by
  unfold fallbackEvent
  try dsimp only
  repeat' with_reducible (first | assumption | apply State.ev_keeps)

theorem State.evWord_keeps {s u : State} (kind index addr reader : Nat) (tag : Option StepTag) (hsu : Keeps s u) : Keeps s (State.evWord u kind index addr reader tag) := by
  unfold State.evWord
  try dsimp only
  repeat' with_reducible (first | assumption | apply State.event_keeps)

theorem allocate_keeps {s u t : State} (tag : StepTag) (size : Nat) (home : Bool) (l : List Nat) (hsu : Keeps s u)
    (ht : allocate tag size home l u = some t) : Keeps s t := by
  induction l generalizing u with
  | nil => cases ht; exact hsu
  | cons e l ih =>
    rw [allocate] at ht
    split at ht
    · exact ih hsu ht
    · split at ht
      · cases ht
      · exact ih (Keeps.put_iff.mpr hsu) ht

theorem copyFrames_keeps {s u t : State} (newId kv : Nat) (l : List FrameRef) (hsu : Keeps s u) (ht : copyFrames newId kv l u = .ok t) : Keeps s t := by
  induction l generalizing u with
  | nil => cases ht; exact hsu
  | cons f l ih =>
    rw [copyFrames] at ht
    dsimp only at ht
    split at ht
    · exact ih (Keeps.put_iff.mpr hsu) ht
    · split at ht
      · split at ht
        · exact ih hsu ht
        · split at ht
          · cases ht
          · exact ih (Keeps.putMem hsu fun hw => memWrite_wf _ _ _ hw) ht
      · exact ih hsu ht

theorem State.putLatch_keeps {s u : State} (l : Latch) (hsu : Keeps s u) : Keeps s (State.putLatch u l) := by
  unfold State.putLatch
  try dsimp only
  repeat' with_reducible (first | assumption | simp only [Keeps.put_iff])

theorem State.uncovered_keeps {s u : State} (t : StepTag) (generation status : Nat) (hsu : Keeps s u) : Keeps s (State.uncovered u t generation status) := by
  unfold State.uncovered
  try dsimp only
  repeat' with_reducible (first | assumption | apply State.event_keeps | apply State.raiseRecall_keeps)

theorem State.cover_keeps {s u : State} (t : StepTag) (p : Pricking) (r : LayerRec) (l : Latch) (last : Nat) (hsu : Keeps s u) :
    Keeps s (u.cover t p r l last).1 := by
  unfold State.cover
  dsimp only
  split
  · split
    · exact State.uncovered_keeps _ _ _ hsu
    · split
      · exact State.uncovered_keeps _ _ _ hsu
      · exact hsu
  · split
    · exact State.uncovered_keeps _ _ _ hsu
    · next heq =>
      obtain ⟨v, hv, hw⟩ := Option.bind_eq_some_iff.mp heq
      exact State.putLatch_keeps _ (allocate_keeps t _ false _ (allocate_keeps t _ true _ hsu hv) hw)

theorem State.meetFork_keeps {s u : State} (t : StepTag) (c : StepRec) (hsu : Keeps s u) : Keeps s (State.meetFork u t c) := by
  unfold State.meetFork
  dsimp only
  split
  · exact hsu
  · split
    · next heq => exact copyFrames_keeps _ _ _ hsu heq
    · exact hsu

theorem State.latchPages_keeps {s u : State} (t : StepTag) (last : Nat) (hsu : Keeps s u) : Keeps s (u.latchPages t last).1 := by
  unfold State.latchPages
  dsimp only
  split
  · next c _ _ _ =>
    have hm := State.meetFork_keeps t c hsu
    split
    · exact State.cover_keeps _ _ _ _ _ hsu
    · rw [apply_ite Prod.fst]
      exact Keeps.ite (State.uncovered_keeps _ _ _ hm) (State.cover_keeps _ _ _ _ _ (State.putLatch_keeps _ hm))
  · exact hsu

theorem State.taken_keeps {s u : State} (source : Nat) (t : StepTag) (hsu : Keeps s u) : Keeps s (State.taken u source t).1 := by
  unfold State.taken
  try dsimp only
  repeat' with_reducible (first | assumption | apply State.arrive_keeps | simp only [Keeps.put_iff] | apply Keeps.ite | split)

/-- Slots written into a frame leave the memory canonical. -/
theorem writeSlot_wf (m : Memory) (b g frame t : Nat) (d : SlotData) (hw : m.wf = true) : (writeSlot m b g frame t d).wf = true := by
  unfold writeSlot
  generalize (d.heads.mapIdx fun g x => (g, x)) = l
  induction l generalizing m with
  | nil => exact hw
  | cons x l ih => exact ih _ (memWrite_wf _ _ _ (memWrite_wf _ _ _ (memWrite_wf _ _ _ (memWrite_wf _ _ _ hw))))

/-- A slot written into several frames. -/
theorem foldl_writeSlot_wf {α : Type} (l : List α) (b g t : Nat) (frame : α → Nat) (d : α → SlotData) (m : Memory) (hw : m.wf = true) :
    (l.foldl (fun m x => writeSlot m b g (frame x) t (d x)) m).wf = true := by
  induction l generalizing m with
  | nil => exact hw
  | cons x l ih => exact ih _ (writeSlot_wf _ _ _ _ _ _ hw)

theorem State.writeSlots_keeps {s u : State} (t : StepTag) (b g : Nat) (slots : List SlotData) (hsu : Keeps s u) : Keeps s (u.writeSlots t b g slots) := by
  unfold State.writeSlots
  split
  · exact hsu
  · apply Keeps.foldl
    · intro v d hv
      dsimp only
      split
      · exact Keeps.putMem hv fun hw => foldl_writeSlot_wf _ b g _ (fun f => f) (fun _ => d) _ hw
      · exact Keeps.putMem hv fun hw => foldl_writeSlot_wf _ b g _ (fun f => f) (fun _ => d) _ hw
    · exact hsu

theorem State.takeSlots_keeps {s u : State} (t : StepTag) (b h : Nat) (slots : List SlotData) (hsu : Keeps s u) : Keeps s (State.takeSlots u t b h slots) := by
  unfold State.takeSlots
  try dsimp only
  repeat' with_reducible (first | assumption | apply State.latchPages_keeps | apply State.writeSlots_keeps | simp only [Keeps.put_iff] | apply Keeps.ite | split)

theorem State.releaseSlots_keeps {s u : State} (t : StepTag) (b h : Nat) (hsu : Keeps s u) : Keeps s (State.releaseSlots u t b h) := by
  unfold State.releaseSlots
  try dsimp only
  repeat' with_reducible (first | assumption | apply State.takeSlots_keeps | simp only [Keeps.put_iff] | apply Keeps.ite)

theorem State.keepRows_keeps {s u : State} (t : StepTag) (last : Bool) (rows : List QueryRow) (p : Pricking) (r : LayerRec) (hsu : Keeps s u) : Keeps s (State.keepRows u t last rows p r) := by
  unfold State.keepRows
  try dsimp only
  repeat' with_reducible (first | assumption | apply State.setPrecT_keeps | apply State.latchPages_keeps | apply State.releaseSlots_keeps | simp only [Keeps.put_iff] | apply Keeps.ite | split)

theorem State.sendSlots_keeps {s u : State} (t : StepTag) (r : LayerRec) (slots : List SlotData) (hsu : Keeps s u) : Keeps s (State.sendSlots u t r slots) := by
  unfold State.sendSlots
  try dsimp only
  repeat' with_reducible (first | assumption | (apply Keeps.foldl; intro _ _ _) | apply State.sendData_keeps | simp only [Keeps.put_iff] | apply Keeps.ite | split)

theorem State.startUnit_keeps {s u : State} (pipe : Nat) (t : StepTag) (r : LayerRec) (b group run : Nat) (rows : List QueryRow) (pages : List (Nat × Nat)) (hsu : Keeps s u) : Keeps s (State.startUnit u pipe t r b group run rows pages) := by
  unfold State.startUnit
  try dsimp only
  repeat' with_reducible (first | assumption | apply State.event_keeps | apply State.stepSlow_keeps | apply State.setPrecT_keeps | apply State.unitServes_keeps | simp only [Keeps.put_iff] | apply Keeps.ite)

theorem State.takeMerged_keeps {s u : State} (t : StepTag) (recs : List RowPartial) (hsu : Keeps s u) : Keeps s (State.takeMerged u t recs) := by
  unfold State.takeMerged
  try dsimp only
  repeat' with_reducible (first | assumption | apply State.count_keeps | apply State.stepSlow_keeps | apply State.setPrecT_keeps | apply State.countClamps_keeps | simp only [Keeps.put_iff] | apply Keeps.ite)

theorem State.mergeRows_keeps {s u : State} (t : StepTag) (r : LayerRec) (rows : List Nat) (hsu : Keeps s u) : Keeps s (State.mergeRows u t r rows) := by
  unfold State.mergeRows
  try dsimp only
  repeat' with_reducible (first | assumption | apply State.sendData_keeps | apply State.countClamps_keeps | apply State.takeMerged_keeps | simp only [Keeps.put_iff] | apply Keeps.ite)

theorem State.writeCopy_keeps {s u : State} (t : StepTag) (b h : Nat) (d : SlotData) (hsu : Keeps s u) : Keeps s (u.writeCopy t b h d) := by
  unfold State.writeCopy
  exact Keeps.putMem hsu fun hw => foldl_writeSlot_wf _ b h _ (fun f => f) (fun _ => d) _ hw

theorem State.putSeq_keeps {s u : State} (q : Seq) (hsu : Keeps s u) : Keeps s (State.putSeq u q) := by
  unfold State.putSeq
  try dsimp only
  repeat' with_reducible (first | assumption | simp only [Keeps.put_iff])

theorem State.addSeq_keeps {s u : State} (q : Seq) (hsu : Keeps s u) : Keeps s (State.addSeq u q) := by
  unfold State.addSeq
  try dsimp only
  repeat' with_reducible (first | assumption | simp only [Keeps.put_iff])

theorem State.onMotif_keeps {s u : State} (m motif : Nat) (f : Pricking → State) (hk : ∀ x0, Keeps s (f x0)) (hsu : Keeps s u) : Keeps s (State.onMotif u m motif f) := by
  unfold State.onMotif
  try dsimp only
  repeat' with_reducible (first | assumption | apply State.failCmd_keeps | apply hk | simp only [Keeps.put_iff] | apply Keeps.ite | split)

theorem State.onSeq_keeps {s u : State} (m : Nat) (f : Pricking → Seq → State) (hk : ∀ x0 x1, Keeps s (f x0 x1)) (hsu : Keeps s u) : Keeps s (State.onSeq u m f) := by
  unfold State.onSeq
  try dsimp only
  repeat' with_reducible (first | assumption | apply State.failCmd_keeps | apply State.onMotif_keeps | apply hk | simp only [Keeps.put_iff] | apply Keeps.ite | split | intro _)

theorem State.onPages_keeps {s u : State} (m : Nat) (f : Pricking → Seq → State) (hk : ∀ x0 x1, Keeps s (f x0 x1)) (hsu : Keeps s u) : Keeps s (State.onPages u m f) := by
  unfold State.onPages
  try dsimp only
  repeat' with_reducible (first | assumption | apply State.failCmd_keeps | apply State.onSeq_keeps | apply hk | simp only [Keeps.put_iff] | apply Keeps.ite | split | intro _)

theorem State.dropSeq_keeps {s u : State} (q : Seq) (hsu : Keeps s u) : Keeps s (State.dropSeq u q) := by
  unfold State.dropSeq
  try dsimp only
  repeat' with_reducible (first | assumption | simp only [Keeps.put_iff])

theorem State.endWork_keeps {s u : State} (q : Seq) (status detail : Nat) (hsu : Keeps s u) : Keeps s (State.endWork u q status detail) := by
  unfold State.endWork
  try dsimp only
  repeat' with_reducible (first | assumption | apply State.complete_keeps | apply State.putSeq_keeps | simp only [Keeps.put_iff] | apply Keeps.ite | split)

theorem State.finishClose_keeps {s u : State} (q : Seq) (hsu : Keeps s u) : Keeps s (State.finishClose u q) := by
  unfold State.finishClose
  try dsimp only
  repeat' with_reducible (first | assumption | apply State.okCmd_keeps | apply State.dropSeq_keeps | apply State.endWork_keeps | simp only [Keeps.put_iff] | apply Keeps.ite | split)

theorem State.closeIfDone_keeps {s u : State} (motif seq : Nat) (hsu : Keeps s u) : Keeps s (State.closeIfDone u motif seq) := by
  unfold State.closeIfDone
  try dsimp only
  repeat' with_reducible (first | assumption | apply State.finishClose_keeps | simp only [Keeps.put_iff] | apply Keeps.ite | split)

theorem State.cancelFetch_keeps {s u : State} (q : Seq) (hsu : Keeps s u) : Keeps s (State.cancelFetch u q) := by
  unfold State.cancelFetch
  try dsimp only
  repeat' with_reducible (first | assumption | (apply Keeps.foldl; intro _ _ _) | apply State.complete_keeps)

theorem State.closeRecalled_keeps {s u : State} (r : StepRec) (hsu : Keeps s u) : Keeps s (State.closeRecalled u r) := by
  unfold State.closeRecalled
  try dsimp only
  repeat' with_reducible (first | assumption | apply State.send_keeps | apply State.setStep_keeps | simp only [Keeps.put_iff] | apply Keeps.ite | split)

theorem State.beginAppend_keeps {s u : State} (m : Nat) (q : Seq) (ids : List Nat) (hsu : Keeps s u) : Keeps s (State.beginAppend u m q ids) := by
  unfold State.beginAppend
  try dsimp only
  repeat' with_reducible (first | assumption | apply State.headSync_keeps | apply State.setCmd_keeps | apply State.setTarget_keeps | apply State.putSeq_keeps | apply State.endWork_keeps | simp only [Keeps.put_iff] | apply Keeps.ite)

theorem State.beginGenerate_keeps {s u : State} (m : Nat) (q : Seq) (e : Bytes) (hsu : Keeps s u) : Keeps s (State.beginGenerate u m q e) := by
  unfold State.beginGenerate
  try dsimp only
  repeat' with_reducible (first | assumption | apply State.count_keeps | apply State.setCmd_keeps | apply State.setTarget_keeps | apply State.discardTree_keeps | apply State.putSeq_keeps)

theorem State.finishBinds_keeps {s u : State}  (hsu : Keeps s u) : Keeps s (State.finishBinds u) := by
  unfold State.finishBinds
  try dsimp only
  repeat' with_reducible (first | assumption | (apply Keeps.foldl; intro _ _ _) | apply State.okCmd_keeps | simp only [Keeps.put_iff])

theorem State.enterLayer_keeps {s u : State} (t : StepTag) (first : Nat) (rows : List Bytes) (hsu : Keeps s u) : Keeps s (State.enterLayer u t first rows) := by
  unfold State.enterLayer
  try dsimp only
  repeat' with_reducible (first | assumption | apply State.setStep_keeps | apply State.setPrecT_keeps | apply State.latchFormat_keeps | simp only [Keeps.put_iff] | apply Keeps.ite | split)

theorem State.startStep_keeps {s u : State} (p : Pricking) (q : Seq) (n : Nat) (prefill : Bool) (nodes : List TreeNode) (slow : BitVec 16) (hsu : Keeps s u) : Keeps s (State.startStep u p q n prefill nodes slow) := by
  unfold State.startStep
  try dsimp only
  repeat' with_reducible (first | assumption | apply State.countQuant_keeps | apply State.noteThrottle_keeps | apply State.putSeq_keeps | apply State.enterLayer_keeps | simp only [Keeps.put_iff] | apply Keeps.ite)

theorem State.giveTree_keeps {s u : State} (q : Seq) (nodes : List TreeNode) (hsu : Keeps s u) : Keeps s (State.giveTree u q nodes) := by
  unfold State.giveTree
  try dsimp only
  repeat' with_reducible (first | assumption | apply State.putSeq_keeps)

theorem State.badRow_keeps {s u : State} (t : StepTag) (hsu : Keeps s u) : Keeps s (State.badRow u t) := by
  unfold State.badRow
  try dsimp only
  repeat' with_reducible (first | assumption | apply State.draw_keeps | apply State.event_keeps)

theorem State.sendRows_keeps {s u : State} (r : StepRec) (t : StepTag) (dest first : Nat) (rows : List Bytes) (hsu : Keeps s u) : Keeps s (State.sendRows u r t dest first rows) := by
  unfold State.sendRows
  try dsimp only
  repeat' with_reducible (first | assumption | (apply Keeps.foldl; intro _ _ _) | apply State.sendData_keeps)

theorem State.leaveLayer_keeps {s u : State} (p : Pricking) (t : StepTag) (first : Nat) (rows : List Bytes) (hsu : Keeps s u) : Keeps s (State.leaveLayer u p t first rows) := by
  unfold State.leaveLayer
  try dsimp only
  repeat' with_reducible (first | assumption | apply State.setStep_keeps | apply State.enterLayer_keeps | apply State.sendRows_keeps | simp only [Keeps.put_iff] | apply Keeps.ite | split)

theorem State.takeRows_keeps {s u : State} (p : Pricking) (tag : StepTag) (firstRow : Nat) (rows : List Bytes) (hsu : Keeps s u) : Keeps s (State.takeRows u p tag firstRow rows) := by
  unfold State.takeRows
  try dsimp only
  repeat' with_reducible (first | assumption | apply State.arrive_keeps | apply State.enterLayer_keeps | apply State.badRow_keeps | simp only [Keeps.put_iff] | apply Keeps.ite | split)

theorem State.offerRows_keeps {s u : State} (tag : StepTag) (firstRow : Nat) (rows : List Bytes) (hsu : Keeps s u) : Keeps s (State.offerRows u tag firstRow rows) := by
  unfold State.offerRows
  try dsimp only
  repeat' with_reducible (first | assumption | apply State.takeRows_keeps | simp only [Keeps.put_iff] | apply Keeps.ite | split)

theorem State.admitRows_keeps {s u : State}  (hsu : Keeps s u) : Keeps s (State.admitRows u) := by
  unfold State.admitRows
  try dsimp only
  repeat' with_reducible (first | assumption | (apply Keeps.foldl; intro _ _ _) | apply State.offerRows_keeps | simp only [Keeps.put_iff])

theorem State.sendCommit_keeps {s u : State} (p : Pricking) (t : StepTag) (c : CommitBody) (hsu : Keeps s u) : Keeps s (State.sendCommit u p t c) := by
  unfold State.sendCommit
  try dsimp only
  repeat' with_reducible (first | assumption | (apply Keeps.foldl; intro _ _ _) | apply State.send_keeps)

theorem State.relayCommit_keeps {s u : State} (p : Pricking) (t : StepTag) (c : CommitBody) (hsu : Keeps s u) : Keeps s (State.relayCommit u p t c) := by
  unfold State.relayCommit
  try dsimp only
  repeat' with_reducible (first | assumption | apply State.sendAll_keeps)

theorem State.moveSlot_keeps {s u : State} (t : StepTag) (p : Pricking) (r : LayerRec) (mv : Nat × Nat × Nat) (hsu : Keeps s u) :
    Keeps s (u.moveSlot t p r mv).1 := by
  unfold State.moveSlot
  split
  · dsimp only
    split
    · exact hsu
    · exact Keeps.put_iff.mpr hsu
  · exact Keeps.putMem hsu fun hw => foldl_writeSlot_wf _ _ _ _ (fun g => g) (fun _ => _) _ hw

theorem sendCopies_keeps {s u : State} (t : StepTag) (l : List (Nat × SlotData)) (hsu : Keeps s u) : Keeps s (sendCopies t l u) := by
  induction l generalizing u with
  | nil => exact hsu
  | cons x l ih => rw [sendCopies]; exact ih (State.send_keeps _ hsu)

/-- The moves of a layer, folded with the copies to send. -/
theorem moveSlots_keeps {s : State} (t : StepTag) (p : Pricking) (r : LayerRec) (mvs : List (Nat × Nat × Nat)) {x : State × List (Nat × SlotData)}
    (hx : Keeps s x.1) :
    Keeps s (mvs.foldl (fun (u : State × List (Nat × SlotData)) mv => ((u.1.moveSlot t p r mv).1, u.2 ++ (u.1.moveSlot t p r mv).2)) x).1 := by
  induction mvs generalizing x with
  | nil => exact hx
  | cons mv l ih => exact ih (State.moveSlot_keeps _ _ _ _ hx)

theorem State.compactLayer_keeps {s u : State} (t : StepTag) (p : Pricking) (r : LayerRec) (mvs : List (Nat × Nat × Nat)) (hsu : Keeps s u) :
    Keeps s (u.compactLayer t p r mvs) := sendCopies_keeps _ _ (moveSlots_keeps t p r mvs hsu)

theorem State.takeWaiting_keeps {s u : State} (t : StepTag) (hsu : Keeps s u) : Keeps s (State.takeWaiting u t) := by
  unfold State.takeWaiting
  try dsimp only
  repeat' with_reducible (first | assumption | (apply Keeps.foldl; intro _ _ _) | apply State.writeCopy_keeps | simp only [Keeps.put_iff] | apply Keeps.ite | split)

theorem State.compactAll_keeps {s u : State} (t : StepTag) (p : Pricking) (c : CommitBody) (hsu : Keeps s u) : Keeps s (State.compactAll u t p c) := by
  unfold State.compactAll
  try dsimp only
  repeat' with_reducible (first | assumption | (apply Keeps.foldl; intro _ _ _) | apply State.compactLayer_keeps | apply State.takeWaiting_keeps)

theorem State.headGenerate_keeps {s u : State} (q : Seq) (g : GenInfo) (r : StepRec) (c : CommitBody) (hsu : Keeps s u) : Keeps s (State.headGenerate u q g r c) := by
  unfold State.headGenerate
  try dsimp only
  repeat' with_reducible (first | assumption | apply State.setBox_keeps | apply State.markSlows_keeps | apply State.setProgress_keeps | apply State.putSeq_keeps | apply State.endWork_keeps | simp only [Keeps.put_iff] | apply Keeps.ite | split)

theorem State.headPrefill_keeps {s u : State} (q : Seq) (a : AppendInfo) (r : StepRec) (c : CommitBody) (hsu : Keeps s u) : Keeps s (State.headPrefill u q a r c) := by
  unfold State.headPrefill
  try dsimp only
  repeat' with_reducible (first | assumption | apply State.markSlows_keeps | apply State.setProgress_keeps | apply State.putSeq_keeps | apply State.endWork_keeps | simp only [Keeps.put_iff] | apply Keeps.ite)

theorem State.headUncommitted_keeps {s u : State} (q : Seq) (r : StepRec) (hsu : Keeps s u) : Keeps s (State.headUncommitted u q r) := by
  unfold State.headUncommitted
  try dsimp only
  repeat' with_reducible (first | assumption | apply State.endWork_keeps | simp only [Keeps.put_iff] | apply Keeps.ite | split)

theorem State.advanceCompanion_keeps {s u : State} (motif seq : Nat) (hsu : Keeps s u) : Keeps s (State.advanceCompanion u motif seq) := by
  unfold State.advanceCompanion
  try dsimp only
  repeat' with_reducible (first | assumption | apply State.putSeq_keeps | simp only [Keeps.put_iff] | apply Keeps.ite | split)

theorem State.vacateSeq_keeps {s u : State} (motif seq : Nat) (hsu : Keeps s u) : Keeps s (State.vacateSeq u motif seq) := by
  unfold State.vacateSeq
  try dsimp only
  repeat' with_reducible (first | assumption | (apply Keeps.foldl; intro _ _ _) | apply State.failCmd_keeps | apply State.putSeq_keeps | apply State.endWork_keeps | simp only [Keeps.put_iff] | apply Keeps.ite | split)

theorem State.headCommit_keeps {s u : State} (r : StepRec) (c : CommitBody) (hsu : Keeps s u) : Keeps s (State.headCommit u r c) := by
  unfold State.headCommit
  try dsimp only
  repeat' with_reducible (first | assumption | apply State.putSeq_keeps | apply State.closeIfDone_keeps | apply State.finishBinds_keeps | apply State.headGenerate_keeps | apply State.headPrefill_keeps | apply State.headUncommitted_keeps | apply State.advanceCompanion_keeps | apply State.vacateSeq_keeps | simp only [Keeps.put_iff] | apply Keeps.ite | split)

theorem State.shortRecall_keeps {s u : State} (t : StepTag) (body : RecallBody) (hsu : Keeps s u) : Keeps s (State.shortRecall u t body) := by
  unfold State.shortRecall
  try dsimp only
  repeat' with_reducible (first | assumption | apply State.endWork_keeps | apply State.closeIfDone_keeps | apply State.vacateSeq_keeps | simp only [Keeps.put_iff] | apply Keeps.ite | split)

theorem State.applyCommit_keeps {s u : State} (t : StepTag) (c : CommitBody) (hsu : Keeps s u) : Keeps s (State.applyCommit u t c) := by
  unfold State.applyCommit
  try dsimp only
  repeat' with_reducible (first | assumption | apply State.endStep_keeps | apply State.withStep_keeps | apply State.admitRows_keeps | apply State.compactAll_keeps | apply State.headCommit_keeps | simp only [Keeps.put_iff] | apply Keeps.ite | split)

theorem State.sendTree_keeps {s u : State} (t : StepTag) (main : Nat) (nodes : List TreeNode) (hsu : Keeps s u) : Keeps s (State.sendTree u t main nodes) := by
  unfold State.sendTree
  try dsimp only
  repeat' with_reducible (first | assumption | apply State.send_keeps | simp only [Keeps.put_iff] | apply Keeps.ite | split)

theorem State.treeOut_keeps {s u : State} (p : Pricking) (r : StepRec) (main : Nat) (hsu : Keeps s u) : Keeps s (State.treeOut u p r main) := by
  unfold State.treeOut
  try dsimp only
  repeat' with_reducible (first | assumption | apply onlyIf_keeps | apply State.endStep_keeps | apply State.giveTree_keeps | apply State.sendTree_keeps | simp only [Keeps.put_iff] | apply Keeps.ite | split)

theorem State.startCompanion_keeps {s u : State} (c : Seq) (n pending : Nat) (hsu : Keeps s u) : Keeps s (State.startCompanion u c n pending) := by
  unfold State.startCompanion
  try dsimp only
  repeat' with_reducible (first | assumption | apply onlyIf_keeps | apply State.startStep_keeps | simp only [Keeps.put_iff] | apply Keeps.ite | split)

theorem State.endCompanion_keeps {s u : State} (q c : Seq) (r : StepRec) (logits : List (List Fp32)) (hsu : Keeps s u) : Keeps s (State.endCompanion u q c r logits) := by
  unfold State.endCompanion
  try dsimp only
  repeat' with_reducible (first | assumption | apply State.endStep_keeps | apply State.putSeq_keeps | apply State.giveTree_keeps | simp only [Keeps.put_iff] | apply Keeps.ite | split)

theorem State.endFarCompanion_keeps {s u : State} (p : Pricking) (c : Seq) (r : StepRec) (main : Nat) (logits : List (List Fp32)) (hsu : Keeps s u) : Keeps s (State.endFarCompanion u p c r main logits) := by
  unfold State.endFarCompanion
  try dsimp only
  repeat' with_reducible (first | assumption | apply State.endStep_keeps | apply State.putSeq_keeps | apply State.sendTree_keeps | simp only [Keeps.put_iff] | apply Keeps.ite | split)

theorem State.farStep_keeps {s u : State} (main seq draft : Nat) (logits : List (List Fp32)) (hsu : Keeps s u) : Keeps s (State.farStep u main seq draft logits) := by
  unfold State.farStep
  try dsimp only
  repeat' with_reducible (first | assumption | apply State.addSeq_keeps | apply State.startCompanion_keeps | apply State.endFarCompanion_keeps | simp only [Keeps.put_iff] | apply Keeps.ite | split)

theorem State.resend_keeps {s u : State} (p : Pricking) (t : StepTag) (f : Nat) (lam : Lineage) (hsu : Keeps s u) : Keeps s (State.resend u p t f lam) := by
  unfold State.resend
  try dsimp only
  repeat' with_reducible (first | assumption | (apply Keeps.foldl; intro _ _ _) | apply State.sendRows_keeps | simp only [Keeps.put_iff] | apply Keeps.ite | split)

theorem State.feedTakeover_keeps {s u : State} (machine holder : Nat) (but : StepRec → Bool) (hsu : Keeps s u) : Keeps s (State.feedTakeover u machine holder but) := by
  unfold State.feedTakeover
  try dsimp only
  repeat' with_reducible (first | assumption | (apply Keeps.foldl; intro _ _ _) | apply State.takeRecall_keeps | apply State.resend_keeps | simp only [Keeps.put_iff] | apply Keeps.ite | split)

theorem State.learnLoss_keeps {s u : State} (tag : StepTag) (r : RecallBody) (hsu : Keeps s u) : Keeps s (State.learnLoss u tag r) := by
  unfold State.learnLoss
  try dsimp only
  repeat' with_reducible (first | assumption | apply State.feedTakeover_keeps | simp only [Keeps.put_iff] | apply Keeps.ite | split)

theorem State.program_keeps {s u : State} (ph : Nat) (h : Option Held) (hsu : Keeps s u) : Keeps s (State.program u ph h) := by
  unfold State.program
  try dsimp only
  repeat' with_reducible (first | assumption | apply State.setPhys_keeps)

theorem State.hostCommit_keeps {s u : State} (ph outcome : Nat) (c : CoefSet) (hsu : Keeps s u) : Keeps s (State.hostCommit u ph outcome c) := by
  unfold State.hostCommit
  try dsimp only
  repeat' with_reducible (first | assumption | apply State.setPhys_keeps)

theorem State.takeHost_keeps {s u : State} (a : Nat) (hsu : Keeps s u) : Keeps s (State.takeHost u a) := by
  unfold State.takeHost
  try dsimp only
  repeat' with_reducible (first | assumption | apply State.setArray_keeps | apply State.hostCommit_keeps | simp only [Keeps.put_iff] | apply Keeps.ite | split)

theorem State.startArrays_keeps {s u : State}  (hsu : Keeps s u) : Keeps s (State.startArrays u) := by
  unfold State.startArrays
  try dsimp only
  repeat' with_reducible (first | assumption | simp only [Keeps.put_iff])

theorem State.retireArray_keeps {s u : State} (a reason : Nat) (hsu : Keeps s u) : Keeps s (State.retireArray u a reason) := by
  unfold State.retireArray
  try dsimp only
  repeat' with_reducible (first | assumption | apply State.setArray_keeps | apply State.setPhys_keeps | apply State.event_keeps | simp only [Keeps.put_iff] | apply Keeps.ite | split)

theorem State.takeSpare_keeps {s u : State} (a p : Nat) (hsu : Keeps s u) : Keeps s (State.takeSpare u a p) := by
  unfold State.takeSpare
  try dsimp only
  repeat' with_reducible (first | assumption | apply State.setArray_keeps | apply State.program_keeps | simp only [Keeps.put_iff])

theorem State.drain_keeps {s u : State} (a : Nat) (hsu : Keeps s u) : Keeps s (State.drain u a).1 := by
  unfold State.drain
  try dsimp only
  repeat' with_reducible (first | assumption | apply State.setArray_keeps | simp only [Keeps.put_iff] | apply Keeps.ite | split)

theorem State.giveBack_keeps {s u : State} (a : Nat) (hsu : Keeps s u) : Keeps s (State.giveBack u a) := by
  unfold State.giveBack
  try dsimp only
  repeat' with_reducible (first | assumption | apply State.setArray_keeps | apply State.takeHost_keeps | simp only [Keeps.put_iff] | apply Keeps.ite | split)

theorem State.dropLoad_keeps {s u : State} (l : LoadState) (hsu : Keeps s u) : Keeps s (State.dropLoad u l) := by
  unfold State.dropLoad
  try dsimp only
  repeat' with_reducible (first | assumption | simp only [Keeps.put_iff])

theorem State.setLoad_keeps {s u : State} (l : LoadState) (hsu : Keeps s u) : Keeps s (State.setLoad u l) := by
  unfold State.setLoad
  try dsimp only
  repeat' with_reducible (first | assumption | apply State.dropLoad_keeps | simp only [Keeps.put_iff])

theorem State.freeArrays_keeps {s u : State} (l : List Nat) (hsu : Keeps s u) : Keeps s (State.freeArrays u l) := by
  unfold State.freeArrays
  try dsimp only
  repeat' with_reducible (first | assumption | (apply Keeps.foldl; intro _ _ _) | apply State.setArray_keeps | apply State.setPhys_keeps | apply State.takeHost_keeps)

theorem State.dropCopy_keeps {s u : State} (motif : Nat) (hsu : Keeps s u) : Keeps s (State.dropCopy u motif) := by
  unfold State.dropCopy
  try dsimp only
  repeat' with_reducible (first | assumption | apply State.setMotif_keeps | apply State.freeArrays_keeps)

theorem State.releaseLoad_keeps {s u : State} (l : LoadState) (hsu : Keeps s u) : Keeps s (State.releaseLoad u l) := by
  unfold State.releaseLoad
  try dsimp only
  repeat' with_reducible (first | assumption | apply State.setMotif_keeps | apply State.dropLoad_keeps | apply State.freeArrays_keeps | apply State.dropCopy_keeps | simp only [Keeps.put_iff] | apply Keeps.ite)

theorem State.opensFail_keeps {s u : State} (motif : Nat) (hsu : Keeps s u) : Keeps s (State.opensFail u motif) := by
  unfold State.opensFail
  try dsimp only
  repeat' with_reducible (first | assumption | (apply Keeps.foldl; intro _ _ _) | apply State.failCmd_keeps | simp only [Keeps.put_iff] | apply Keeps.ite)

theorem State.loadFailed_keeps {s u : State} (l : LoadState) (status detail : Nat) (hsu : Keeps s u) : Keeps s (State.loadFailed u l status detail) := by
  unfold State.loadFailed
  try dsimp only
  repeat' with_reducible (first | assumption | apply State.send_keeps | apply State.sendAll_keeps | apply State.failCmd_keeps | apply State.releaseLoad_keeps | apply State.opensFail_keeps | simp only [Keeps.put_iff] | apply Keeps.ite | split)

theorem State.takeProgress_keeps {s u : State} (l : LoadState) (m : Nat) (r : LoadReport) (hsu : Keeps s u) : Keeps s (State.takeProgress u l m r) := by
  unfold State.takeProgress
  try dsimp only
  repeat' with_reducible (first | assumption | apply State.loadRecord_keeps | apply State.setProgress_keeps | apply State.setLoad_keeps)

theorem State.reportLoad_keeps {s u : State} (l : LoadState) (n : Nat) (hsu : Keeps s u) : Keeps s (State.reportLoad u l n) := by
  unfold State.reportLoad
  try dsimp only
  repeat' with_reducible (first | assumption | apply State.send_keeps | apply State.takeProgress_keeps | simp only [Keeps.put_iff] | apply Keeps.ite | split)

theorem State.noteMirrored_keeps {s u : State} (motif spare : Nat) (hsu : Keeps s u) : Keeps s (State.noteMirrored u motif spare) := by
  unfold State.noteMirrored
  try dsimp only
  repeat' with_reducible (first | assumption | apply State.setLoad_keeps | simp only [Keeps.put_iff] | apply Keeps.ite | split)

theorem State.dropPending_keeps {s u : State} (motif : Nat) (hsu : Keeps s u) : Keeps s (State.dropPending u motif) := by
  unfold State.dropPending
  try dsimp only
  repeat' with_reducible (first | assumption | apply State.setMotif_keeps)

theorem State.forgetLoad_keeps {s u : State} (motif : Nat) (hsu : Keeps s u) : Keeps s (State.forgetLoad u motif) := by
  unfold State.forgetLoad
  try dsimp only
  repeat' with_reducible (first | assumption | simp only [Keeps.put_iff])

theorem State.undoLoad_keeps {s u : State} (l : LoadState) (hsu : Keeps s u) : Keeps s (State.undoLoad u l) := by
  unfold State.undoLoad
  try dsimp only
  repeat' with_reducible (first | assumption | apply State.draw_keeps | apply State.setMotif_keeps | apply State.releaseLoad_keeps | apply State.dropPending_keeps | apply State.forgetLoad_keeps | simp only [Keeps.put_iff] | apply Keeps.ite)

theorem State.fetch_keeps {s u : State} (l : LoadState) (off len : Nat) (hsu : Keeps s u) : Keeps s (State.fetch u l off len) := by
  unfold State.fetch
  try dsimp only
  repeat' with_reducible (first | assumption | apply State.toHost_keeps | apply State.setLoad_keeps | apply State.loadFailed_keeps | simp only [Keeps.put_iff] | apply Keeps.ite | split)

theorem State.takeOrder_keeps {s u : State} (l : LoadState) (o : LoadOrder) (hsu : Keeps s u) : Keeps s (State.takeOrder u l o) := by
  unfold State.takeOrder
  try dsimp only
  repeat' with_reducible (first | assumption | apply State.setLoad_keeps | apply State.dropCopy_keeps | apply State.loadFailed_keeps | apply State.forgetLoad_keeps | apply State.fetch_keeps | simp only [Keeps.put_iff] | apply Keeps.ite)

theorem State.copyShard_keeps {s u : State} (dest motif gen : Nat) (data : Bytes) (hsu : Keeps s u) : Keeps s (State.copyShard u dest motif gen data) := by
  unfold State.copyShard
  try dsimp only
  repeat' with_reducible (first | assumption | (apply Keeps.foldl; intro _ _ _) | apply State.send_keeps)

theorem State.copyToSpare_keeps {s u : State} (motif gen : Nat) (data : Bytes) (hsu : Keeps s u) : Keeps s (State.copyToSpare u motif gen data) := by
  unfold State.copyToSpare
  try dsimp only
  repeat' with_reducible (first | assumption | apply State.copyShard_keeps | simp only [Keeps.put_iff] | apply Keeps.ite | split)

theorem State.tellAgain_keeps {s u : State} (l : LoadState) (source : Nat) (hsu : Keeps s u) : Keeps s (State.tellAgain u l source) := by
  unfold State.tellAgain
  try dsimp only
  repeat' with_reducible (first | assumption | apply State.send_keeps | apply State.copyToSpare_keeps | simp only [Keeps.put_iff] | apply Keeps.ite | split)

theorem State.fetched_keeps {s u : State} (l : LoadState) (data : Bytes) (hsu : Keeps s u) : Keeps s (State.fetched u l data) := by
  unfold State.fetched
  try dsimp only
  repeat' with_reducible (first | assumption | apply State.setMotif_keeps | apply State.setLoad_keeps | apply State.fetch_keeps | simp only [Keeps.put_iff] | apply Keeps.ite | split)

theorem State.cmdAnswered_keeps {s u : State} (m qp : Nat) (ok : Bool) (data : Bytes) (hsu : Keeps s u) : Keeps s (State.cmdAnswered u m qp ok data) := by
  unfold State.cmdAnswered
  try dsimp only
  repeat' with_reducible (first | assumption | apply State.failCmd_keeps | apply State.okCmd_keeps | apply State.setCmd_keeps | simp only [Keeps.put_iff] | apply Keeps.ite | split)

theorem State.fetchAnswered_keeps {s u : State} (motif qp : Nat) (ok : Bool) (data : Bytes) (hsu : Keeps s u) : Keeps s (State.fetchAnswered u motif qp ok data) := by
  unfold State.fetchAnswered
  try dsimp only
  repeat' with_reducible (first | assumption | apply State.loadFailed_keeps | apply State.fetched_keeps | simp only [Keeps.put_iff] | apply Keeps.ite | split)

theorem State.fetchWaiting_keeps {s u : State}  (hsu : Keeps s u) : Keeps s (State.fetchWaiting u) := by
  unfold State.fetchWaiting
  try dsimp only
  repeat' with_reducible (first | assumption | (apply Keeps.foldl; intro _ _ _) | apply State.fetch_keeps | simp only [Keeps.put_iff] | apply Keeps.ite | split)

theorem State.outArrays_keeps {s u : State} (l : List Nat) (hsu : Keeps s u) : Keeps s (State.outArrays u l) := by
  unfold State.outArrays
  try dsimp only
  repeat' with_reducible (first | assumption | (apply Keeps.foldl; intro _ _ _) | apply State.setArray_keeps | apply State.takeHost_keeps)

theorem State.acceptShard_keeps {s u : State} (l : LoadState) (e : ShardEntry) (sh : Shard) (inArrays : Bool) (hsu : Keeps s u) : Keeps s (State.acceptShard u l e sh inArrays) := by
  unfold State.acceptShard
  try dsimp only
  repeat' with_reducible (first | assumption | apply State.setMotif_keeps | apply State.setLoad_keeps | apply State.reportLoad_keeps | apply State.copyToSpare_keeps | apply State.fetched_keeps | apply State.outArrays_keeps | simp only [Keeps.put_iff] | apply Keeps.ite)

theorem State.programArray_keeps {s u : State} (a : Nat) (hsu : Keeps s u) : Keeps s (State.programArray u a) := by
  unfold State.programArray
  try dsimp only
  repeat' with_reducible (first | assumption | apply State.setArray_keeps | apply State.program_keeps | simp only [Keeps.put_iff] | apply Keeps.ite | split)

theorem State.verifyArray_keeps {s u : State} (a : Nat) (rewritten : Bool) (hsu : Keeps s u) : Keeps s (State.verifyArray u a rewritten) := by
  unfold State.verifyArray
  try dsimp only
  repeat' with_reducible (first | assumption | apply State.setPhys_keeps | apply State.giveBack_keeps | simp only [Keeps.put_iff] | apply Keeps.ite | split)

theorem State.failArray_keeps {s u : State} (a row : Nat) (hsu : Keeps s u) : Keeps s (State.failArray u a row) := by
  unfold State.failArray
  try dsimp only
  repeat' with_reducible (first | assumption | apply State.event_keeps | apply State.retireArray_keeps)

theorem State.countTiles_keeps {s u : State} (l : LoadState) (n : Nat) (hsu : Keeps s u) : Keeps s (State.countTiles u l n) := by
  unfold State.countTiles
  try dsimp only
  repeat' with_reducible (first | assumption | (apply Keeps.foldl; intro _ _ _) | apply State.dropLoad_keeps | apply State.setLoad_keeps | apply State.reportLoad_keeps | simp only [Keeps.put_iff] | apply Keeps.ite)

theorem State.freshLayers_keeps {s u : State} (motif : Nat) (gen : Option Nat) (hsu : Keeps s u) : Keeps s (State.freshLayers u motif gen) := by
  unfold State.freshLayers
  try dsimp only
  repeat' with_reducible (first | assumption | simp only [Keeps.put_iff])

theorem State.noteDone_keeps {s u : State} (l : LoadState) (hsu : Keeps s u) : Keeps s (State.noteDone u l) := by
  unfold State.noteDone
  try dsimp only
  repeat' with_reducible (first | assumption | apply State.forgetLoad_keeps | simp only [Keeps.put_iff])

theorem State.beginLoad_keeps {s u : State} (m motif : Nat) (replace : Bool) (p : Pricking) (e : Bytes) (hsu : Keeps s u) : Keeps s (State.beginLoad u m motif replace p e) := by
  unfold State.beginLoad
  try dsimp only
  repeat' with_reducible (first | assumption | (apply Keeps.foldl; intro _ _ _) | apply State.setMotif_keeps | apply State.send_keeps | apply State.setCmd_keeps | apply State.setTarget_keeps | apply State.setLoad_keeps | apply State.dropCopy_keeps | apply State.takeOrder_keeps | simp only [Keeps.put_iff] | apply Keeps.ite | split)

theorem State.loadTurned_keeps {s u : State} (m motif status detail : Nat) (hsu : Keeps s u) : Keeps s (State.loadTurned u m motif status detail) := by
  unfold State.loadTurned
  try dsimp only
  repeat' with_reducible (first | assumption | apply State.failCmd_keeps | apply State.opensFail_keeps)

theorem State.readTables_keeps {s u : State} (m motif n : Nat) (c : Cmd) (hsu : Keeps s u) : Keeps s (State.readTables u m motif n c) := by
  unfold State.readTables
  try dsimp only
  repeat' with_reducible (first | assumption | apply State.startRead_keeps | apply State.loadTurned_keeps | simp only [Keeps.put_iff] | apply Keeps.ite | split)

theorem State.loadCommand_keeps {s u : State} (m : Nat) (replace : Bool) (hsu : Keeps s u) : Keeps s (State.loadCommand u m replace) := by
  unfold State.loadCommand
  try dsimp only
  repeat' with_reducible (first | assumption | apply State.okCmd_keeps | apply State.beginLoad_keeps | apply State.loadTurned_keeps | apply State.readTables_keeps | simp only [Keeps.put_iff] | apply Keeps.ite | split)

theorem State.switchMotif_keeps {s u : State} (motif : Nat) (hsu : Keeps s u) : Keeps s (State.switchMotif u motif) := by
  unfold State.switchMotif
  try dsimp only
  repeat' with_reducible (first | assumption | apply State.setMotif_keeps)

theorem State.onResident_keeps {s u : State} (m motif : Nat) (f : Pricking → State) (hk : ∀ x0, Keeps s (f x0)) (hsu : Keeps s u) : Keeps s (State.onResident u m motif f) := by
  unfold State.onResident
  try dsimp only
  repeat' with_reducible (first | assumption | apply State.failCmd_keeps | apply hk | simp only [Keeps.put_iff] | apply Keeps.ite | split)

theorem State.placeLate_keeps {s u : State} (motif : Nat) (hsu : Keeps s u) : Keeps s (State.placeLate u motif) := by
  unfold State.placeLate
  try dsimp only
  repeat' with_reducible (first | assumption | apply State.setMotif_keeps | apply State.setLoad_keeps | apply State.outArrays_keeps | simp only [Keeps.put_iff] | apply Keeps.ite | split)

theorem State.releaseOld_keeps {s u : State} (motif : Nat) (hsu : Keeps s u) : Keeps s (State.releaseOld u motif) := by
  unfold State.releaseOld
  try dsimp only
  repeat' with_reducible (first | assumption | apply State.setMotif_keeps | apply State.freeArrays_keeps | apply State.freshLayers_keeps | apply State.placeLate_keeps)

theorem State.dropMotif_keeps {s u : State} (motif : Nat) (hsu : Keeps s u) : Keeps s (State.dropMotif u motif) := by
  unfold State.dropMotif
  try dsimp only
  repeat' with_reducible (first | assumption | apply State.setMotif_keeps | apply State.freeArrays_keeps | apply State.freshLayers_keeps | simp only [Keeps.put_iff])

theorem State.learnTables_keeps {s u : State} (motif gen : Nat) (hsu : Keeps s u) : Keeps s (State.learnTables u motif gen) := by
  unfold State.learnTables
  try dsimp only
  repeat' with_reducible (first | assumption | apply State.draw_keeps | apply State.setMotif_keeps | simp only [Keeps.put_iff] | apply Keeps.ite)

theorem State.restoreShard_keeps {s u : State} (motif gen : Nat) (x : ShardEntry) (sh : Shard) (hsu : Keeps s u) : Keeps s (State.restoreShard u motif gen x sh) := by
  unfold State.restoreShard
  try dsimp only
  repeat' with_reducible (first | assumption | apply State.setMotif_keeps | apply State.startArrays_keeps)

theorem State.mirrorShard_keeps {s u : State} (source motif gen : Nat) (sh : Shard) (hsu : Keeps s u) : Keeps s (State.mirrorShard u source motif gen sh) := by
  unfold State.mirrorShard
  try dsimp only
  repeat' with_reducible (first | assumption | apply State.setMotif_keeps | apply State.send_keeps | apply State.noteMirrored_keeps | simp only [Keeps.put_iff] | apply Keeps.ite)

theorem State.keepShard_keeps {s u : State} (source motif gen : Nat) (x : ShardEntry) (data : Bytes) (hsu : Keeps s u) : Keeps s (State.keepShard u source motif gen x data) := by
  unfold State.keepShard
  try dsimp only
  repeat' with_reducible (first | assumption | apply State.restoreShard_keeps | apply State.mirrorShard_keeps | simp only [Keeps.put_iff] | apply Keeps.ite)

theorem State.refuseShard_keeps {s u : State} (source motif gen : Nat) (x : ShardEntry) (hsu : Keeps s u) : Keeps s (State.refuseShard u source motif gen x) := by
  unfold State.refuseShard
  try dsimp only
  repeat' with_reducible (first | assumption | apply State.setMotif_keeps | apply State.dropPending_keeps | simp only [Keeps.put_iff] | apply Keeps.ite)

theorem State.takePiece_keeps {s u : State} (source motif gen offset : Nat) (data : Bytes) (x : ShardEntry) (hsu : Keeps s u) : Keeps s (State.takePiece u source motif gen offset data x) := by
  unfold State.takePiece
  try dsimp only
  repeat' with_reducible (first | assumption | apply State.setMotif_keeps | apply State.send_keeps | apply State.keepShard_keeps | apply State.refuseShard_keeps | simp only [Keeps.put_iff] | apply Keeps.ite)

theorem State.copyFrame_keeps {s u v : State} (t : StepTag) (p : Pricking) (k page : Nat) (home : Bool) (f : Nat) (hsu : Keeps s u)
    (hv : u.copyFrame t p k page home = some (v, f)) : Keeps s v := by
  unfold State.copyFrame at hv
  split at hv
  · obtain ⟨off, -, h2⟩ := Option.bind_eq_some_iff.mp hv
    obtain ⟨g, -, h4⟩ := Option.map_eq_some_iff.mp h2
    cases h4; exact hsu
  · obtain ⟨w, h1, h2⟩ := Option.bind_eq_some_iff.mp hv
    obtain ⟨g, -, h4⟩ := Option.map_eq_some_iff.mp h2
    cases h4; exact allocate_keeps _ _ _ _ hsu h1

theorem State.takePage_keeps {s u : State} (seq motif layer localIndex : Nat) (home : Bool) (data : Bytes) (hsu : Keeps s u) :
    Keeps s (u.takePage seq motif layer localIndex home data) := by
  unfold State.takePage
  dsimp only
  repeat' with_reducible (first | assumption | apply Keeps.ite | split)
  next heq => exact Keeps.putMem (State.copyFrame_keeps _ _ _ _ _ _ hsu heq) fun hw => memWrite_wf _ _ _ hw

theorem State.unsync_keeps {s u : State} (m : Nat) (hsu : Keeps s u) : Keeps s (State.unsync u m) := by
  unfold State.unsync
  try dsimp only
  repeat' with_reducible (first | assumption | simp only [Keeps.put_iff])

theorem State.mirrorBegin_keeps {s u : State} (m : Nat) (h : HeadSync) (hsu : Keeps s u) : Keeps s (State.mirrorBegin u m h) := by
  unfold State.mirrorBegin
  try dsimp only
  repeat' with_reducible (first | assumption | apply State.count_keeps | apply State.setTarget_keeps | apply State.putSeq_keeps | simp only [Keeps.put_iff] | apply Keeps.ite | split)

theorem State.mirrorBind_keeps {s u : State} (q : Seq) (e : Bytes) (hsu : Keeps s u) : Keeps s (State.mirrorBind u q e) := by
  unfold State.mirrorBind
  try dsimp only
  repeat' with_reducible (first | assumption | simp only [Keeps.put_iff] | apply Keeps.ite | split)

theorem State.mirrorEffect_keeps {s u : State} (m : Nat) (e : Bytes) (hsu : Keeps s u) : Keeps s (State.mirrorEffect u m e) := by
  unfold State.mirrorEffect
  try dsimp only
  repeat' with_reducible (first | assumption | apply State.draw_keeps | apply State.addSeq_keeps | apply State.dropSeq_keeps | apply State.mirrorBind_keeps | simp only [Keeps.put_iff] | apply Keeps.ite | split)

theorem State.mirrorDone_keeps {s u : State} (m : Nat) (h : HeadSync) (hsu : Keeps s u) : Keeps s (State.mirrorDone u m h) := by
  unfold State.mirrorDone
  try dsimp only
  repeat' with_reducible (first | assumption | apply State.draw_keeps | apply State.complete_keeps | apply State.endWork_keeps | apply State.unsync_keeps | apply State.mirrorEffect_keeps | simp only [Keeps.put_iff] | apply Keeps.ite | split)

theorem State.moveRole_keeps {s u : State} (machine holder : Nat) (lost : Bool) (hsu : Keeps s u) : Keeps s (State.moveRole u machine holder lost) := by
  unfold State.moveRole
  try dsimp only
  repeat' with_reducible (first | assumption | simp only [Keeps.put_iff] | apply Keeps.ite)

theorem State.vacateIdle_keeps {s u : State}  (hsu : Keeps s u) : Keeps s (State.vacateIdle u) := by
  unfold State.vacateIdle
  try dsimp only
  repeat' with_reducible (first | assumption | (apply Keeps.foldl; intro _ _ _) | apply State.vacateSeq_keeps)

theorem State.vacate_keeps {s u : State} (holder : Nat) (hsu : Keeps s u) : Keeps s (State.vacate u holder) := by
  unfold State.vacate
  try dsimp only
  repeat' with_reducible (first | assumption | apply State.setProgress_keeps | apply State.moveRole_keeps | apply State.vacateIdle_keeps | simp only [Keeps.put_iff] | apply Keeps.ite | split)

theorem State.returnHome_keeps {s u : State}  (hsu : Keeps s u) : Keeps s (State.returnHome u) := by
  unfold State.returnHome
  try dsimp only
  repeat' with_reducible (first | assumption | (apply Keeps.foldl; intro _ _ _) | apply State.complete_keeps | apply State.freshLayers_keeps | apply State.moveRole_keeps | simp only [Keeps.put_iff] | apply Keeps.ite | split)

theorem State.noteSpare_keeps {s u : State} (machine holder : Nat) (hsu : Keeps s u) : Keeps s (State.noteSpare u machine holder) := by
  unfold State.noteSpare
  try dsimp only
  repeat' with_reducible (first | assumption | simp only [Keeps.put_iff] | apply Keeps.ite)

theorem State.adopt_keeps {s u : State} (motif peer : Nat) (sh : Shard) (hsu : Keeps s u) : Keeps s (State.adopt u motif peer sh) := by
  unfold State.adopt
  try dsimp only
  repeat' with_reducible (first | assumption | apply State.setMotif_keeps | apply State.setLoad_keeps | apply State.outArrays_keeps | apply State.freshLayers_keeps)

theorem State.announce_keeps {s u : State} (machine holder why : Nat) (hsu : Keeps s u) : Keeps s (State.announce u machine holder why) := by
  unfold State.announce
  try dsimp only
  repeat' with_reducible (first | assumption | apply State.sendAll_keeps)

theorem State.slowAll_keeps {s u : State}  (hsu : Keeps s u) : Keeps s (State.slowAll u) := by
  unfold State.slowAll
  try dsimp only
  repeat' with_reducible (first | assumption | simp only [Keeps.put_iff])

theorem State.serveFor_keeps {s u : State} (peer : Nat) (hsu : Keeps s u) : Keeps s (State.serveFor u peer) := by
  unfold State.serveFor
  try dsimp only
  repeat' with_reducible (first | assumption | (apply Keeps.foldl; intro _ _ _) | apply State.moveRole_keeps | apply State.adopt_keeps | apply State.announce_keeps | apply State.slowAll_keeps | simp only [Keeps.put_iff] | apply Keeps.ite | split)

theorem State.announceArrays_keeps {s u : State}  (hsu : Keeps s u) : Keeps s (State.announceArrays u) := by
  unfold State.announceArrays
  try dsimp only
  repeat' with_reducible (first | assumption | apply State.moveRole_keeps | apply State.announce_keeps | simp only [Keeps.put_iff] | apply Keeps.ite | split)

theorem State.sendPage_keeps {s u : State} (p : Pricking) (r : LayerRec) (x : PageSend) (hsu : Keeps s u) : Keeps s (State.sendPage u p r x) := by
  unfold State.sendPage
  try dsimp only
  repeat' with_reducible (first | assumption | apply State.send_keeps | apply State.evWord_keeps | simp only [Keeps.put_iff] | apply Keeps.ite | split)

theorem State.sendWaiting_keeps {s u : State}  (hsu : Keeps s u) : Keeps s (State.sendWaiting u) := by
  unfold State.sendWaiting
  try dsimp only
  repeat' with_reducible (first | assumption | (apply Keeps.foldl; intro _ _ _) | apply State.sendPage_keeps | simp only [Keeps.put_iff] | apply Keeps.ite | split)

theorem State.sendTable_keeps {s u : State} (dest : Nat) (as : LayerRec → Nat → Bool → Option Bool) (p : Pricking) (r : LayerRec) (motif seq off : Nat) (hsu : Keeps s u) : Keeps s (State.sendTable u dest as p r motif seq off) := by
  unfold State.sendTable
  try dsimp only
  repeat' with_reducible (first | assumption | (apply Keeps.foldl; intro _ _ _) | apply State.sendPage_keeps | simp only [Keeps.put_iff] | apply Keeps.ite | split)

theorem State.sendFrames_keeps {s u : State} (dest : Nat) (as : LayerRec → Nat → Bool → Option Bool) (hsu : Keeps s u) : Keeps s (State.sendFrames u dest as) := by
  unfold State.sendFrames
  try dsimp only
  repeat' with_reducible (first | assumption | (apply Keeps.foldl; intro _ _ _) | apply State.sendPage_keeps | apply State.sendTable_keeps | simp only [Keeps.put_iff] | apply Keeps.ite | split)

theorem State.giveRolesBack_keeps {s u : State} (peer : Nat) (hsu : Keeps s u) : Keeps s (State.giveRolesBack u peer) := by
  unfold State.giveRolesBack
  try dsimp only
  repeat' with_reducible (first | assumption | apply State.moveRole_keeps | apply State.vacateIdle_keeps | apply State.announce_keeps | apply State.sendFrames_keeps | simp only [Keeps.put_iff] | apply Keeps.ite)

theorem State.releaseServed_keeps {s u : State}  (hsu : Keeps s u) : Keeps s (State.releaseServed u) := by
  unfold State.releaseServed
  try dsimp only
  repeat' with_reducible (first | assumption | (apply Keeps.foldl; intro _ _ _) | apply State.setMotif_keeps | apply State.freeArrays_keeps | simp only [Keeps.put_iff] | apply Keeps.ite | split)

theorem State.endLost_keeps {s u : State}  (hsu : Keeps s u) : Keeps s (State.endLost u) := by
  unfold State.endLost
  try dsimp only
  repeat' with_reducible (first | assumption | (apply Keeps.foldl; intro _ _ _) | apply State.failCmd_keeps | apply State.endStep_keeps | apply State.endWork_keeps | apply State.closeIfDone_keeps | apply State.loadFailed_keeps | simp only [Keeps.put_iff] | apply Keeps.ite | split)

theorem State.plannedServe_keeps {s u : State} (peer : Nat) (hsu : Keeps s u) : Keeps s (State.plannedServe u peer) := by
  unfold State.plannedServe
  try dsimp only
  repeat' with_reducible (first | assumption | apply State.serveFor_keeps | simp only [Keeps.put_iff] | apply Keeps.ite)

theorem State.learnLost_keeps {s u : State} (machine : Nat) (hsu : Keeps s u) : Keeps s (State.learnLost u machine) := by
  unfold State.learnLost
  try dsimp only
  repeat' with_reducible (first | assumption | simp only [Keeps.put_iff] | apply Keeps.ite)

theorem State.continueCommands_keeps {s u : State}  (hsu : Keeps s u) : Keeps s (State.continueCommands u) := by
  unfold State.continueCommands
  try dsimp only
  repeat' with_reducible (first | assumption | (apply Keeps.foldl; intro _ _ _) | apply State.setBox_keeps | apply State.unsync_keeps | simp only [Keeps.put_iff] | apply Keeps.ite | split)

theorem State.recallLost_keeps {s u : State} (peer : Nat) (hsu : Keeps s u) : Keeps s (State.recallLost u peer) := by
  unfold State.recallLost
  try dsimp only
  repeat' with_reducible (first | assumption | (apply Keeps.foldl; intro _ _ _) | apply State.send_keeps | apply State.raiseRecall_keeps | simp only [Keeps.put_iff] | apply Keeps.ite | split)

theorem State.beginTakeover_keeps {s u : State} (m : Option Nat) (hsu : Keeps s u) : Keeps s (State.beginTakeover u m) := by
  unfold State.beginTakeover
  try dsimp only
  repeat' with_reducible (first | assumption | apply State.send_keeps | apply State.sendFrames_keeps | simp only [Keeps.put_iff] | apply Keeps.ite | split)

theorem State.programOutgrown_keeps {s u : State}  (hsu : Keeps s u) : Keeps s (State.programOutgrown u) := by
  unfold State.programOutgrown
  try dsimp only
  repeat' with_reducible (first | assumption | (apply Keeps.foldl; intro _ _ _) | apply State.setLoad_keeps | apply State.outArrays_keeps | simp only [Keeps.put_iff] | apply Keeps.ite | split)

theorem State.verifyMirrors_keeps {s u : State}  (hsu : Keeps s u) : Keeps s (State.verifyMirrors u) := by
  unfold State.verifyMirrors
  try dsimp only
  repeat' with_reducible (first | assumption | (apply Keeps.foldl; intro _ _ _) | apply State.verifyArray_keeps | simp only [Keeps.put_iff] | apply Keeps.ite | split)

theorem State.handbackArrays_keeps {s u : State} (m holder : Nat) (hsu : Keeps s u) : Keeps s (State.handbackArrays u m holder) := by
  unfold State.handbackArrays
  try dsimp only
  repeat' with_reducible (first | assumption | apply State.send_keeps | apply State.setProgress_keeps | apply State.programOutgrown_keeps | apply State.verifyMirrors_keeps | simp only [Keeps.put_iff] | apply Keeps.ite)

theorem State.sendMirrors_keeps {s u : State} (peer : Nat) (hsu : Keeps s u) : Keeps s (State.sendMirrors u peer) := by
  unfold State.sendMirrors
  try dsimp only
  repeat' with_reducible (first | assumption | (apply Keeps.foldl; intro _ _ _) | apply State.copyShard_keeps | simp only [Keeps.put_iff] | apply Keeps.ite | split)

theorem State.declareMissing_keeps {s u : State} (peer reason : Nat) (hsu : Keeps s u) : Keeps s (State.declareMissing u peer reason) := by
  unfold State.declareMissing
  try dsimp only
  repeat' with_reducible (first | assumption | apply State.count_keeps | apply State.ev_keeps | apply State.endLost_keeps | simp only [Keeps.put_iff])

theorem State.checkDue_keeps {s u : State} (ph : Nat) (hsu : Keeps s u) : Keeps s (State.checkDue u ph) := by
  unfold State.checkDue
  try dsimp only
  repeat' with_reducible (first | assumption | apply State.setArray_keeps | simp only [Keeps.put_iff] | apply Keeps.ite | split)

theorem State.noteSpread_keeps {s u : State} (ph : Nat) (st : Stats) (inBand : Bool) (hsu : Keeps s u) : Keeps s (State.noteSpread u ph st inBand) := by
  unfold State.noteSpread
  try dsimp only
  repeat' with_reducible (first | assumption | apply State.setArray_keeps | apply State.setPhys_keeps | apply State.event_keeps | simp only [Keeps.put_iff] | apply Keeps.ite | split)

theorem State.noteFreeze_keeps {s u : State} (ph : Nat) (rs : List Resid) (hsu : Keeps s u) : Keeps s (State.noteFreeze u ph rs) := by
  unfold State.noteFreeze
  try dsimp only
  repeat' with_reducible (first | assumption | apply State.event_keeps | simp only [Keeps.put_iff] | apply Keeps.ite | split)

theorem State.endService_keeps {s u : State} (ph : Nat) (cols : List Nat) (taps : Bool) (hsu : Keeps s u) : Keeps s (State.endService u ph cols taps) := by
  unfold State.endService
  try dsimp only
  repeat' with_reducible (first | assumption | apply State.setPhys_keeps | apply State.checkDue_keeps | apply State.noteSpread_keeps | apply State.noteFreeze_keeps | simp only [Keeps.put_iff] | apply Keeps.ite)

theorem State.converged_keeps {s u : State} (ph : Nat) (hsu : Keeps s u) : Keeps s (State.converged u ph) := by
  unfold State.converged
  try dsimp only
  repeat' with_reducible (first | assumption | apply State.setArray_keeps | apply State.setPhys_keeps | apply State.giveBack_keeps | apply State.announceArrays_keeps | apply State.checkDue_keeps | simp only [Keeps.put_iff] | apply Keeps.ite | split)

theorem State.noConverge_keeps {s u : State} (ph : Nat) (rs : List Resid) (hsu : Keeps s u) : Keeps s (State.noConverge u ph rs) := by
  unfold State.noConverge
  try dsimp only
  repeat' with_reducible (first | assumption | apply State.setArray_keeps | apply State.setPhys_keeps | apply State.event_keeps | simp only [Keeps.put_iff] | apply Keeps.ite | split)

theorem State.takeOut_keeps {s u : State} (a : Nat) (hsu : Keeps s u) : Keeps s (State.takeOut u a).1 := by
  unfold State.takeOut
  try dsimp only
  repeat' with_reducible (first | assumption | apply State.setArray_keeps | apply State.drain_keeps)

theorem State.noteHost_keeps {s u : State} (a outcome : Nat) (h : Bytes) (epoch : BitVec 32) (hsu : Keeps s u) : Keeps s (State.noteHost u a outcome h epoch) := by
  unfold State.noteHost
  try dsimp only
  repeat' with_reducible (first | assumption | apply State.event_keeps | simp only [Keeps.put_iff] | apply Keeps.ite)

theorem State.judgeHost_keeps {s u : State} (a : Nat) (hsu : Keeps s u) : Keeps s (State.judgeHost u a) := by
  unfold State.judgeHost
  try dsimp only
  repeat' with_reducible (first | assumption | apply State.setArray_keeps | apply State.setPhys_keeps | apply State.hostCommit_keeps | apply State.noteHost_keeps | simp only [Keeps.put_iff] | apply Keeps.ite)

theorem State.advanceHost_keeps {s u : State} (a : Nat) (hsu : Keeps s u) : Keeps s (State.advanceHost u a) := by
  unfold State.advanceHost
  try dsimp only
  repeat' with_reducible (first | assumption | apply State.takeHost_keeps | apply State.takeOut_keeps | simp only [Keeps.put_iff] | apply Keeps.ite | split)

theorem State.countMargin_keeps {s u : State} (r : MarginResult) (hsu : Keeps s u) : Keeps s (State.countMargin u r) := by
  unfold State.countMargin
  try dsimp only
  repeat' with_reducible (first | assumption | apply State.count_keeps)

theorem State.marginRun_keeps {s u : State} (a p : Nat) (r : MarginResult) (hsu : Keeps s u) : Keeps s (State.marginRun u a p r) := by
  unfold State.marginRun
  try dsimp only
  repeat' with_reducible (first | assumption | apply State.setArray_keeps | apply State.setPhys_keeps | apply State.event_keeps | apply State.countMargin_keeps | simp only [Keeps.put_iff] | apply Keeps.ite)

theorem State.handOver_keeps {s u : State} (island : Nat) (hsu : Keeps s u) : Keeps s (State.handOver u island) := by
  unfold State.handOver
  try dsimp only
  repeat' with_reducible (first | assumption | simp only [Keeps.put_iff] | apply Keeps.ite)

theorem State.noteWrong_keeps {s u : State} (a : Nat) (epoch : BitVec 32) (cells : List CellReading) (hsu : Keeps s u) : Keeps s (State.noteWrong u a epoch cells) := by
  unfold State.noteWrong
  try dsimp only
  repeat' with_reducible (first | assumption | (apply Keeps.foldl; intro _ _ _) | apply State.event_keeps)

theorem State.verifyCells_keeps {s u : State} (a p : Nat) (readings : List CellReading) (hsu : Keeps s u) : Keeps s (State.verifyCells u a p readings) := by
  unfold State.verifyCells
  try dsimp only
  repeat' with_reducible (first | assumption | apply State.setArray_keeps | apply State.setPhys_keeps | apply State.noteWrong_keeps)

theorem State.reseed_keeps {s u : State} (a p : Nat) (hsu : Keeps s u) : Keeps s (State.reseed u a p) := by
  unfold State.reseed
  try dsimp only
  repeat' with_reducible (first | assumption | apply State.setArray_keeps | apply State.setPhys_keeps | apply State.hostCommit_keeps | simp only [Keeps.put_iff] | apply Keeps.ite | split)

theorem State.refreshArray_keeps {s u : State} (a p : Nat) (readings : List CellReading) (margin : MarginResult) (hsu : Keeps s u) : Keeps s (State.refreshArray u a p readings margin) := by
  unfold State.refreshArray
  try dsimp only
  repeat' with_reducible (first | assumption | apply State.setArray_keeps | apply State.marginRun_keeps | apply State.verifyCells_keeps | apply State.reseed_keeps)

theorem State.auditVerdict_keeps {s u : State} (a : Nat) (fault : Bool) (hsu : Keeps s u) : Keeps s (State.auditVerdict u a fault) := by
  unfold State.auditVerdict
  try dsimp only
  repeat' with_reducible (first | assumption | apply State.setArray_keeps | simp only [Keeps.put_iff] | apply Keeps.ite)

theorem State.judgeFinding_keeps {s u : State} (g : Nat) (t : StepTag) (f : ArrayFinding) (hsu : Keeps s u) : Keeps s (State.judgeFinding u g t f) := by
  unfold State.judgeFinding
  try dsimp only
  repeat' with_reducible (first | assumption | apply State.setPhys_keeps | apply State.event_keeps | apply State.auditVerdict_keeps | simp only [Keeps.put_iff] | apply Keeps.ite)

theorem State.auditFault_keeps {s u : State} (t : StepTag) (array kind index : Nat) (hsu : Keeps s u) : Keeps s (State.auditFault u t array kind index) := by
  unfold State.auditFault
  try dsimp only
  repeat' with_reducible (first | assumption | apply State.count_keeps | apply State.setStep_keeps | apply State.raiseRecall_keeps | simp only [Keeps.put_iff] | apply Keeps.ite | split)

theorem State.judgeNode_keeps {s u : State} (t : StepTag) (array : Nat) (epoch : BitVec 32) (d : Nat × Nat × Int) (hsu : Keeps s u) : Keeps s (State.judgeNode u t array epoch d) := by
  unfold State.judgeNode
  try dsimp only
  repeat' with_reducible (first | assumption | apply State.event_keeps | apply State.auditVerdict_keeps)

theorem State.judgeEnd_keeps {s u : State} (t : StepTag) (length unit : Nat) (d : Nat × Int) (hsu : Keeps s u) : Keeps s (State.judgeEnd u t length unit d) := by
  unfold State.judgeEnd
  try dsimp only
  repeat' with_reducible (first | assumption | apply State.setIsland_keeps | apply State.event_keeps)

theorem State.auditArray_keeps {s u : State} (g : Nat) (sel : AuditSel) (fs : List ArrayFinding) (nodes : List (Nat × Nat × Int)) (a : Nat) (hsu : Keeps s u) : Keeps s (State.auditArray u g sel fs nodes a) := by
  unfold State.auditArray
  try dsimp only
  repeat' with_reducible (first | assumption | (apply Keeps.foldl; intro _ _ _) | apply State.judgeFinding_keeps | apply State.auditFault_keeps | apply State.judgeNode_keeps | simp only [Keeps.put_iff] | apply Keeps.ite)

theorem State.auditJudge_keeps {s u : State} (r : LayerRec) (tiles : List Tile) (sel : AuditSel) (hsu : Keeps s u) : Keeps s (State.auditJudge u r tiles sel) := by
  unfold State.auditJudge
  try dsimp only
  repeat' with_reducible (first | assumption | (apply Keeps.foldl; intro _ _ _) | apply State.auditFault_keeps | apply State.judgeEnd_keeps | apply State.auditArray_keeps | simp only [Keeps.put_iff] | apply Keeps.ite | split)

theorem State.dropAudit_keeps {s u : State} (key : ChainKey) (hsu : Keeps s u) : Keeps s (State.dropAudit u key) := by
  unfold State.dropAudit
  try dsimp only
  repeat' with_reducible (first | assumption | simp only [Keeps.put_iff])

theorem State.outvote_keeps {s u : State} (island : Nat) (hsu : Keeps s u) : Keeps s (State.outvote u island) := by
  unfold State.outvote
  try dsimp only
  repeat' with_reducible (first | assumption | apply State.setIsland_keeps)

theorem State.dupFault_keeps {s u : State} (tag : StepTag) (island peer : Nat) (third : Option Nat) (r0 r1 r2 : Bytes) (hsu : Keeps s u) : Keeps s (State.dupFault u tag island peer third r0 r1 r2) := by
  unfold State.dupFault
  try dsimp only
  repeat' with_reducible (first | assumption | (apply Keeps.foldl; intro _ _ _) | apply State.draw_keeps | apply State.count_keeps | apply State.event_keeps | apply State.raiseRecall_keeps | apply State.outvote_keeps | simp only [Keeps.put_iff] | apply Keeps.ite | split)

theorem State.restore_keeps {s u : State} (stack addr row : Nat) (data : Bytes) (motif array : Option Nat) (hsu : Keeps s u) :
    Keeps s (u.restore stack addr row data motif array) := by
  unfold State.restore
  exact State.sendWaiting_keeps (State.ev_keeps _ _ _ _ _ _ (Keeps.putMem hsu fun hw => memWrite_wf _ _ _ hw))

theorem State.noSource_keeps {s u : State} (block row : Nat) (motif array : Option Nat) (hsu : Keeps s u) :
    Keeps s (u.noSource block row motif array) := by
  have hk : Keeps s ({ u with mem := { u.mem with tried := (block, triedOf u.mem block + 1) :: u.mem.tried.filter fun e => e.1 ≠ block } } : State) :=
    Keeps.putMem hsu id
  unfold State.noSource
  dsimp only
  split
  · split
    · exact State.setMotif_keeps _ _ hk
    · exact hk
  · exact hk

theorem State.trySource_keeps {s u : State} (stack addr row : Nat) (d : Rebuild) (motif array : Option Nat) (hsu : Keeps s u) : Keeps s (State.trySource u stack addr row d motif array) := by
  unfold State.trySource
  try dsimp only
  repeat' with_reducible (first | assumption | apply State.restore_keeps | apply State.noSource_keeps | simp only [Keeps.put_iff] | apply Keeps.ite)

theorem State.judgeSensor_keeps {s u : State} (i reason : Nat) (v : Int) (med2 : Option Int) (hsu : Keeps s u) : Keeps s (State.judgeSensor u i reason v med2) := by
  unfold State.judgeSensor
  try dsimp only
  repeat' with_reducible (first | assumption | apply State.setSensor_keeps | apply State.ev_keeps | simp only [Keeps.put_iff] | apply Keeps.ite)

theorem State.notice_keeps {s u : State} (i : Nat) (v : Int) (hsu : Keeps s u) : Keeps s (State.notice u i v) := by
  unfold State.notice
  try dsimp only
  repeat' with_reducible (first | assumption | apply State.setSensor_keeps | apply State.ev_keeps | simp only [Keeps.put_iff] | apply Keeps.ite | split)

theorem State.noteLadder_keeps {s u : State}  (hsu : Keeps s u) : Keeps s (State.noteLadder u) := by
  unfold State.noteLadder
  try dsimp only
  repeat' with_reducible (first | assumption | simp only [Keeps.put_iff])

theorem State.endCommands_keeps {s u : State} (detail : Nat) (hsu : Keeps s u) : Keeps s (State.endCommands u detail) := by
  unfold State.endCommands
  try dsimp only
  repeat' with_reducible (first | assumption | (apply Keeps.foldl; intro _ _ _) | apply State.failCmd_keeps | simp only [Keeps.put_iff] | apply Keeps.ite)

theorem State.stopUnits_keeps {s u : State}  (hsu : Keeps s u) : Keeps s (State.stopUnits u) := by
  unfold State.stopUnits
  try dsimp only
  repeat' with_reducible (first | assumption | simp only [Keeps.put_iff])

theorem State.tidyArrays_keeps {s u : State}  (hsu : Keeps s u) : Keeps s (State.tidyArrays u) := by
  unfold State.tidyArrays
  try dsimp only
  repeat' with_reducible (first | assumption | simp only [Keeps.put_iff])

theorem State.trip_keeps {s u : State} (kind sensor value : Nat) (hsu : Keeps s u) : Keeps s (State.trip u kind sensor value) := by
  unfold State.trip
  try dsimp only
  repeat' with_reducible (first | assumption | apply State.ev_keeps | apply State.drivePins_keeps | apply State.endCommands_keeps | apply State.stopUnits_keeps | apply State.tidyArrays_keeps | simp only [Keeps.put_iff])

theorem State.hardwareTrip_keeps {s u : State} (a : Nat) (hsu : Keeps s u) : Keeps s (State.hardwareTrip u a) := by
  unfold State.hardwareTrip
  try dsimp only
  repeat' with_reducible (first | assumption | apply State.trip_keeps | simp only [Keeps.put_iff] | apply Keeps.ite)

theorem State.confirmAll_keeps {s u : State}  (hsu : Keeps s u) : Keeps s (State.confirmAll u) := by
  unfold State.confirmAll
  try dsimp only
  repeat' with_reducible (first | assumption | simp only [Keeps.put_iff])

theorem State.deliverResult_keeps {s u : State} (entry : Nat) (e : MonEntry) (r : Nat × Bool × Bool) (outside : Bool) (hsu : Keeps s u) : Keeps s (State.deliverResult u entry e r outside) := by
  unfold State.deliverResult
  try dsimp only
  repeat' with_reducible (first | assumption | apply State.ev_keeps | simp only [Keeps.put_iff] | apply Keeps.ite)

theorem State.deliverOld_keeps {s u : State} (entry : Nat) (e : MonEntry) (samples : List Int) (hsu : Keeps s u) : Keeps s (State.deliverOld u entry e samples) := by
  unfold State.deliverOld
  try dsimp only
  repeat' with_reducible (first | assumption | apply State.setMonEntry_keeps | apply State.deliverResult_keeps | simp only [Keeps.put_iff] | apply Keeps.ite)

theorem State.reroute_keeps {s u : State}  (hsu : Keeps s u) : Keeps s (State.reroute u) := by
  unfold State.reroute
  try dsimp only
  repeat' with_reducible (first | assumption | simp only [Keeps.put_iff])

theorem State.sendNotice_keeps {s u : State} (b : Nat) (hsu : Keeps s u) : Keeps s (State.sendNotice u b) := by
  unfold State.sendNotice
  try dsimp only
  repeat' with_reducible (first | assumption | apply State.sendAll_keeps)

theorem State.brideTo_keeps {s u : State} (b st : Nat) (hsu : Keeps s u) : Keeps s (State.brideTo u b st) := by
  unfold State.brideTo
  try dsimp only
  repeat' with_reducible (first | assumption | apply State.setBride_keeps | apply State.reroute_keeps | apply State.sendNotice_keeps | simp only [Keeps.put_iff] | apply Keeps.ite)

theorem State.flitOut_keeps {s u : State} (f : FlitOut) (hsu : Keeps s u) : Keeps s (State.flitOut u f) := by
  unfold State.flitOut
  try dsimp only
  repeat' with_reducible (first | assumption | apply State.flitsOut_keeps)

theorem State.nakOut_keeps {s u : State} (b : Nat) (mask marker : BitVec 8) (hsu : Keeps s u) : Keeps s (State.nakOut u b mask marker) := by
  unfold State.nakOut
  try dsimp only
  repeat' with_reducible (first | assumption | apply State.flitOut_keeps)

theorem State.idleOut_keeps {s u : State} (b : Nat) (hsu : Keeps s u) : Keeps s (State.idleOut u b) := by
  unfold State.idleOut
  try dsimp only
  repeat' with_reducible (first | assumption | apply idle_keeps | apply State.flitOut_keeps)

theorem State.hears_keeps {s u : State} (peer : Nat) (hsu : Keeps s u) : Keeps s (State.hears u peer) := by
  unfold State.hears
  try dsimp only
  repeat' with_reducible (first | assumption | simp only [Keeps.put_iff] | apply Keeps.ite)

theorem State.replayBride_keeps {s u : State} (b : Nat) (x : Bride) (expected : BitVec 16) (hsu : Keeps s u) : Keeps s (State.replayBride u b x expected) := by
  unfold State.replayBride
  try dsimp only
  repeat' with_reducible (first | assumption | apply State.setBride_keeps | apply State.flitsOut_keeps | apply State.pump_keeps)

theorem State.dropLane_keeps {s u : State} (b lane : Nat) (hsu : Keeps s u) : Keeps s (State.dropLane u b lane) := by
  unfold State.dropLane
  try dsimp only
  repeat' with_reducible (first | assumption | apply State.setBride_keeps | apply State.brideTo_keeps | apply State.nakOut_keeps | simp only [Keeps.put_iff] | apply Keeps.ite | split)

theorem State.sendAhead_keeps {s u : State} (ms : List Msg) (hsu : Keeps s u) : Keeps s (State.sendAhead u ms) := by
  unfold State.sendAhead
  try dsimp only
  repeat' with_reducible (first | assumption | (apply Keeps.foldl; intro _ _ _) | apply State.setBride_keeps | apply State.pump_keeps | simp only [Keeps.put_iff])

theorem State.resendBride_keeps {s u : State} (b named : Nat) (hsu : Keeps s u) : Keeps s (State.resendBride u b named) := by
  unfold State.resendBride
  try dsimp only
  repeat' with_reducible (first | assumption | apply State.setBride_keeps | apply State.sendAhead_keeps)

theorem State.recallDiscarded_keeps {s u : State} (m : Msg) (hsu : Keeps s u) : Keeps s (State.recallDiscarded u m) := by
  unfold State.recallDiscarded
  try dsimp only
  repeat' with_reducible (first | assumption | apply State.setStep_keeps | apply State.withStep_keeps | apply State.raiseRecall_keeps | simp only [Keeps.put_iff] | apply Keeps.ite | split)

theorem State.noteFarLoss_keeps {s u : State} (g : Nat) (hsu : Keeps s u) : Keeps s (State.noteFarLoss u g) := by
  unfold State.noteFarLoss
  try dsimp only
  repeat' with_reducible (first | assumption | apply State.endLost_keeps | simp only [Keeps.put_iff] | apply Keeps.ite)

theorem State.evFound_keeps {s u : State} (b code : Nat) (hsu : Keeps s u) : Keeps s (State.evFound u b code) := by
  unfold State.evFound
  try dsimp only
  repeat' with_reducible (first | assumption | apply State.ev_keeps)

theorem State.classAs_keeps {s u : State} (b code : Nat) (hsu : Keeps s u) : Keeps s (State.classAs u b code) := by
  unfold State.classAs
  try dsimp only
  repeat' with_reducible (first | assumption | apply State.setBride_keeps | apply State.evFound_keeps | simp only [Keeps.put_iff] | apply Keeps.ite)

theorem State.classLength_keeps {s u : State} (b : Nat) (hsu : Keeps s u) : Keeps s (State.classLength u b) := by
  unfold State.classLength
  try dsimp only
  repeat' with_reducible (first | assumption | apply State.setBride_keeps | apply State.evFound_keeps | simp only [Keeps.put_iff] | apply Keeps.ite)

theorem State.classify_keeps {s u : State} (b : Nat) (hsu : Keeps s u) : Keeps s (State.classify u b) := by
  unfold State.classify
  try dsimp only
  repeat' with_reducible (first | assumption | apply onlyIf_keeps | apply State.classAs_keeps | apply State.classLength_keeps | simp only [Keeps.put_iff] | apply Keeps.ite)

theorem State.topoSettle_keeps {s u : State}  (hsu : Keeps s u) : Keeps s (State.topoSettle u) := by
  unfold State.topoSettle
  try dsimp only
  repeat' with_reducible (first | assumption | apply State.sendAll_keeps | simp only [Keeps.put_iff] | apply Keeps.ite)

theorem State.linked_keeps {s u : State} (b : Nat) (hsu : Keeps s u) : Keeps s (State.linked u b) := by
  unfold State.linked
  try dsimp only
  repeat' with_reducible (first | assumption | apply State.setBride_keeps | apply State.hears_keeps | apply State.topoSettle_keeps | simp only [Keeps.put_iff] | apply Keeps.ite)

theorem State.trainWith_keeps {s u : State} (bride : Nat) (r1 r2 : TrainRec) (rtt : RoundTrip) (lanes : BitVec 8) (hsu : Keeps s u) : Keeps s (State.trainWith u bride r1 r2 rtt lanes) := by
  unfold State.trainWith
  try dsimp only
  repeat' with_reducible (first | assumption | apply State.setBride_keeps | apply State.brideTo_keeps | apply State.flitOut_keeps | apply State.linked_keeps)

theorem State.dimBride_keeps {s u : State} (st : Nat) (low : BitVec 8) (b : Nat) (hsu : Keeps s u) : Keeps s (State.dimBride u st low b) := by
  unfold State.dimBride
  try dsimp only
  repeat' with_reducible (first | assumption | (apply Keeps.foldl; intro _ _ _) | apply State.brideTo_keeps | apply State.dropLane_keeps | simp only [Keeps.put_iff] | apply Keeps.ite)

theorem State.elect_keeps {s u : State}  (hsu : Keeps s u) : Keeps s (State.elect u) := by
  unfold State.elect
  try dsimp only
  repeat' with_reducible (first | assumption | simp only [Keeps.put_iff] | apply Keeps.ite)

theorem State.pickSource_keeps {s u : State}  (hsu : Keeps s u) : Keeps s (State.pickSource u) := by
  unfold State.pickSource
  try dsimp only
  repeat' with_reducible (first | assumption | simp only [Keeps.put_iff] | apply Keeps.ite)

theorem State.becomeLocked_keeps {s u : State}  (hsu : Keeps s u) : Keeps s (State.becomeLocked u) := by
  unfold State.becomeLocked
  try dsimp only
  repeat' with_reducible (first | assumption | apply State.ev_keeps | simp only [Keeps.put_iff])

theorem State.loseSource_keeps {s u : State} (lost : Nat) (hsu : Keeps s u) : Keeps s (State.loseSource u lost) := by
  unfold State.loseSource
  try dsimp only
  repeat' with_reducible (first | assumption | apply State.ev_keeps | simp only [Keeps.put_iff] | apply Keeps.ite)

theorem State.relock_keeps {s u : State} (lost : Nat) (hsu : Keeps s u) : Keeps s (State.relock u lost) := by
  unfold State.relock
  try dsimp only
  repeat' with_reducible (first | assumption | apply State.becomeLocked_keeps | apply State.loseSource_keeps | simp only [Keeps.put_iff] | apply Keeps.ite)

theorem State.noteTheta_keeps {s u : State} (b : Nat) (f : TimingFlit) (rx : Nat) (hsu : Keeps s u) : Keeps s (State.noteTheta u b f rx) := by
  unfold State.noteTheta
  try dsimp only
  repeat' with_reducible (first | assumption | simp only [Keeps.put_iff] | apply Keeps.ite)

theorem State.takeTiming_keeps {s u : State} (bride : Nat) (f : TimingFlit) (rx : Nat) (hsu : Keeps s u) : Keeps s (State.takeTiming u bride f rx) := by
  unfold State.takeTiming
  try dsimp only
  repeat' with_reducible (first | assumption | apply State.noteTheta_keeps | simp only [Keeps.put_iff] | apply Keeps.ite)

theorem State.sendOffset_keeps {s u : State}  (hsu : Keeps s u) : Keeps s (State.sendOffset u) := by
  unfold State.sendOffset
  try dsimp only
  repeat' with_reducible (first | assumption | apply State.send_keeps | simp only [Keeps.put_iff] | apply Keeps.ite | split)

theorem State.moved_keeps {s u : State} (d : Int) (hsu : Keeps s u) : Keeps s (u.moved d) := by
  unfold State.moved
  exact Keeps.putMem hsu id

theorem State.retrain_keeps {s u : State} (b : Nat) (hsu : Keeps s u) : Keeps s (State.retrain u b) := by
  unfold State.retrain
  try dsimp only
  repeat' with_reducible (first | assumption | apply State.brideTo_keeps | simp only [Keeps.put_iff] | apply Keeps.ite)

theorem State.retrainAll_keeps {s u : State} (old : MachineCfg) (hsu : Keeps s u) : Keeps s (State.retrainAll u old) := by
  unfold State.retrainAll
  try dsimp only
  repeat' with_reducible (first | assumption | (apply Keeps.foldl; intro _ _ _) | apply State.retrain_keeps | simp only [Keeps.put_iff] | apply Keeps.ite)

theorem State.replan_keeps {s u : State}  (hsu : Keeps s u) : Keeps s (State.replan u) := by
  unfold State.replan
  try dsimp only
  repeat' with_reducible (first | assumption | (apply Keeps.foldl; intro _ _ _) | apply State.brideTo_keeps | apply State.classify_keeps | simp only [Keeps.put_iff] | apply Keeps.ite)

theorem State.reshape_keeps {s u : State} (old : MachineCfg) (hsu : Keeps s u) : Keeps s (State.reshape u old) := by
  unfold State.reshape
  try dsimp only
  repeat' with_reducible (first | assumption | (apply Keeps.foldl; intro _ _ _) | apply State.setBride_keeps | apply State.brideTo_keeps | apply State.topoSettle_keeps | simp only [Keeps.put_iff] | apply Keeps.ite)

theorem State.moveGroup_keeps {s u : State} (oldId : Nat) (hsu : Keeps s u) : Keeps s (State.moveGroup u oldId) := by
  unfold State.moveGroup
  try dsimp only
  repeat' with_reducible (first | assumption | simp only [Keeps.put_iff] | apply Keeps.ite)

theorem State.applyCfg_keeps {s u : State} (c : MachineCfg) (hsu : Keeps s u) : Keeps s (State.applyCfg u c) := by
  unfold State.applyCfg
  try dsimp only
  repeat' with_reducible (first | assumption | apply State.reroute_keeps | apply State.elect_keeps | apply State.retrainAll_keeps | apply State.replan_keeps | apply State.reshape_keeps | apply State.moveGroup_keeps | simp only [Keeps.put_iff])

theorem State.breaksAfter_keeps {s u : State} (c : MachineCfg) (hsu : Keeps s u) : Keeps s (State.breaksAfter u c) := by
  unfold State.breaksAfter
  try dsimp only
  repeat' with_reducible (first | assumption | simp only [Keeps.put_iff])

theorem State.switchCfg_keeps {s u : State} (m : Nat) (x : CfgSlot) (revert : Bool) (hsu : Keeps s u) : Keeps s (State.switchCfg u m x revert) := by
  unfold State.switchCfg
  try dsimp only
  repeat' with_reducible (first | assumption | apply State.evUpdate_keeps | apply State.failCmd_keeps | apply State.okCmd_keeps | apply State.applyCfg_keeps | apply State.breaksAfter_keeps | simp only [Keeps.put_iff] | apply Keeps.ite | split)

theorem State.restart_keeps {s u : State} (m i : Nat) (hsu : Keeps s u) : Keeps s (u.restart m i) :=
  hsu.of_fields rfl rfl rfl rfl

theorem State.beginActivation_keeps {s u : State} (m : Nat) (hsu : Keeps s u) : Keeps s (u.beginActivation m) := by
  unfold State.beginActivation
  have hk := State.setCmd_keeps m (fun c => { c with begun := true }) hsu
  dsimp only
  split
  · exact State.beginTakeover_keeps _ (Keeps.putFw hk rfl rfl)
  · exact Keeps.putFw hk rfl rfl

theorem State.activate_keeps {s u : State} (m i : Nat) (hsu : Keeps s u) : Keeps s (State.activate u m i) := by
  unfold State.activate
  try dsimp only
  repeat' with_reducible (first | assumption | apply State.restart_keeps | apply State.beginActivation_keeps | simp only [Keeps.put_iff] | apply Keeps.ite)

/-- A confirmation neither lets the floor fall nor takes a revocation back (R432). -/
theorem Firmware.confirmed_trust (f : Firmware) : f.floor ≤ f.confirmed.floor ∧ f.revoked &&& f.confirmed.revoked = f.revoked := by
  constructor
  · show f.floor ≤ if f.floor < _ then _ else f.floor
    split
    · next hlt => exact BitVec.le_of_lt hlt
    · exact BitVec.le_refl _
  · show f.revoked &&& (f.revoked ||| _) = f.revoked
    ext i hi
    simp only [BitVec.getElem_and, BitVec.getElem_or]
    cases f.revoked[i] <;> rfl

theorem State.confirmSlot_keeps {s u : State} (hsu : Keeps s u) : Keeps s u.confirmSlot := by
  have hk : Keeps s { u with fw := u.fw.confirmed } := hsu.trans ⟨id, Firmware.confirmed_trust u.fw, rfl⟩
  unfold State.confirmSlot
  dsimp only
  repeat' with_reducible (first | exact hk | apply State.evUpdate_keeps | apply Keeps.ite)

/-- Filling a slot changes no trust. -/
theorem Firmware.putSlot_floor (f : Firmware) (i : Nat) (x : FwSlot) : (f.putSlot i x).floor = f.floor := by unfold Firmware.putSlot; split <;> rfl
theorem Firmware.putSlot_revoked (f : Firmware) (i : Nat) (x : FwSlot) : (f.putSlot i x).revoked = f.revoked := by unfold Firmware.putSlot; split <;> rfl

theorem State.recordFailure_keeps {s u : State} (hsu : Keeps s u) : Keeps s u.recordFailure := by
  unfold State.recordFailure
  dsimp only
  exact State.evUpdate_keeps _ _ (Keeps.putFw hsu (Firmware.putSlot_floor _ _ _) (Firmware.putSlot_revoked _ _ _))

theorem State.recordReset_keeps {s u : State} (x : CfgSlot) (hsu : Keeps s u) : Keeps s (State.recordReset u x) := by
  unfold State.recordReset
  try dsimp only
  repeat' with_reducible (first | assumption | apply State.evUpdate_keeps | simp only [Keeps.put_iff] | apply Keeps.ite)

theorem State.resetVersion_keeps {s u : State} (m : Nat) (hsu : Keeps s u) : Keeps s (State.resetVersion u m) := by
  unfold State.resetVersion
  try dsimp only
  repeat' with_reducible (first | assumption | apply State.setBox_keeps | apply State.evUpdate_keeps | simp only [Keeps.put_iff] | apply Keeps.ite | split)

theorem State.resetSettings_keeps {s u : State}  (hsu : Keeps s u) : Keeps s (State.resetSettings u) := by
  unfold State.resetSettings
  try dsimp only
  repeat' with_reducible (first | assumption | (apply Keeps.foldl; intro _ _ _) | apply State.recordReset_keeps | apply State.resetVersion_keeps | simp only [Keeps.put_iff])

theorem State.readConfig_keeps {s u : State}  (hsu : Keeps s u) : Keeps s (State.readConfig u) := by
  unfold State.readConfig
  try dsimp only
  repeat' with_reducible (first | assumption | apply State.applyCfg_keeps | simp only [Keeps.put_iff] | apply Keeps.ite)

theorem State.finishActivation_keeps {s u : State} (failed : Bool) (hsu : Keeps s u) : Keeps s (u.finishActivation failed) := by
  unfold State.finishActivation
  split
  · exact hsu
  · dsimp only
    split <;> exact State.complete_keeps _ _ _ _ _ (Keeps.putFw hsu rfl rfl)

theorem State.afterBoot_keeps {s u : State}  (hsu : Keeps s u) : Keeps s (State.afterBoot u) := by
  unfold State.afterBoot
  try dsimp only
  repeat' with_reducible (first | assumption | simp only [Keeps.put_iff])

theorem State.enterRom_keeps {s u : State} (hsu : Keeps s u) : Keeps s u.enterRom := by
  unfold State.enterRom
  apply Keeps.foldl
  · intro v b hv; exact State.setBride_keeps _ _ hv
  · exact Keeps.putFw hsu rfl rfl

theorem State.stopped_keeps {s u : State} (hsu : Keeps s u) : Keeps s u.stopped :=
  hsu.trans ⟨fun _ => rfl, ⟨BitVec.le_refl _, BitVec.and_self⟩, rfl⟩

theorem Firmware.powerLost_floor (f : Firmware) : f.powerLost.floor = f.floor := by unfold Firmware.powerLost; split <;> rfl
theorem Firmware.powerLost_revoked (f : Firmware) : f.powerLost.revoked = f.revoked := by unfold Firmware.powerLost; split <;> rfl

theorem State.powerLoss_keeps {s u : State} (hsu : Keeps s u) : Keeps s u.powerLoss := by
  unfold State.powerLoss
  exact Keeps.putFw (State.stopped_keeps hsu) (Firmware.powerLost_floor _) (Firmware.powerLost_revoked _)

theorem State.beginStart_keeps {s u : State} (slotPins : Nat) (hsu : Keeps s u) : Keeps s (State.beginStart u slotPins) := by
  unfold State.beginStart
  try dsimp only
  repeat' with_reducible (first | assumption | simp only [Keeps.put_iff])

/-- A command's row keeps what its effect keeps. -/
theorem command_keeps {s t : State} {m op : Nat} {f : State → State} (hf : Keeps s (f s)) (ht : command m op s f = .next t) : Keeps s t :=
  need_keeps (onlyIf_keeps _ (Keeps.refl s) hf) ht

/-- An update command's row keeps what its effect keeps. -/
theorem updateCommand_keeps {s t : State} {m op : Nat} {f : State → State} (hf : Keeps s (f s)) (ht : updateCommand m op s f = .next t) : Keeps s t :=
  command_keeps (f := fun u => onlyIf (!u.updateWaits m) u (f u)) (onlyIf_keeps _ (Keeps.refl s) hf) ht

end Sys2Proof.Machine
end

