-- ==== Sys2Proof/Tests/Slice0.lean ====
section
/-! SUPPORT. The module's own tests: ill-formed commands that WellFormed turns away, small steps whose results the spec gives, and, for the statements of
Certificates/Slice0, states that meet the hypotheses of their clauses. -/

namespace Sys2Proof.Tests

open Sys2Proof Sys2Proof.Machine

/-! ### Small states -/

/-- A running module. -/
def tOn : State := { State.reset with start := { State.reset.start with stage := 6 } }

/-- A live queue pair. -/
def tQp (n : Nat) : QueuePair :=
  { qpn := n, load := true, error := false, priority := 3, mtu := 4096, rate := 1600000000000, cnpSent := none, cnpGot := none, retries := 0, since := 0 }

/-- The module with queue pair 5 and window keys 1 to 8. -/
def tPort (s : State) : State := { s with port := { s.port with up := true, qps := [tQp 5], rkeys := [1, 2, 3, 4, 5, 6, 7, 8] } }

/-- A ring entry. -/
def tEntry (op : Nat) (f : List (Nat × Nat × Nat)) : Bytes := layout 64 ((2, 2, op) :: f)

/-- A command in progress. -/
def tCmd (e : Bytes) (x : Xfer) (data : Bytes) (begun : Bool) : Cmd :=
  { entry := e, index := 0, qp := 5, order := 0, xfer := x, data := data, want := 0, begun := begun,
    tokensThen := 0, latchedThen := [], continued := false, via := 0 }

/-- The state with a command in progress on mailbox 63. -/
def tRun (e : Bytes) (x : Xfer) (data : Bytes) (begun : Bool) (s : State) : State :=
  s.setBox 63 { Mailbox.init with cur := some (tCmd e x data begun), done := false, idle := false, version := some 0x0100 }

/-- A posted entry waiting on mailbox 63, which a scan has noted. -/
def tPosted (e : Bytes) (v : Option Nat) (s : State) : State :=
  let t := s.setBox 63 { Mailbox.init with entries := [(0, overlay e 0 [0x80])], posted := [(0, 5)], version := v }
  { t with boxes := { t.boxes with noted := [63] } }

/-- One module's layer table entry. -/
def tLayer (l owner : Nat) : LayerRec :=
  { layer := l, headDim := 128, pairing := 0, gainTap := 4, retry := false, w3 := false, fallback := true, baseFormat := 2, k := 1, owner := owner,
    qHeads := 1, kvHeads := 1, returnWindows := 2, fbWindow := 16, ovrLimit := 1, nsatLimit := 1, zeroedLimit := 1, attnMode := 0, window := 0,
    lambda := 0, spread := [15], headSeed := 0 }

/-- A pricking of two layers, head and tail on one module. -/
def tPrick (head : Nat) (layers : List LayerRec) : Pricking :=
  { vocabDigest := 7, vocabSize := 256, width := 1024, head := head, tail := head, kvI8 := false, frameKib := 64, layers := layers, shards := [], digest := [] }

/-- The module, stand-alone, as head and owner of a resident motif. -/
def tMotif (s : State) : State := s.setMotif 0 { MotifEntry.init with state := 2, gen := 1, vocabDigest := 7, prick := some (tPrick 0xFFFF [tLayer 0 0xFFFF, tLayer 1 0xFFFF]) }

/-! ### Ill-formed commands -/

/-- EveryCommandIsAnswered: commands that are well-formed, each at the end of its range. -/
theorem test_wf_mailbox : Instr.wf (.identify 64) = false ∧ Instr.wf (.identify 63) = true := by decide
theorem test_wf_array : Instr.wf (.picotCheckReport 32768) = false ∧ Instr.wf (.picotCheckReport 32767) = true := by decide
theorem test_wf_phys : Instr.wf (.shadowCommit 33280) = false ∧ Instr.wf (.shadowCommit 33279) = true := by decide
theorem test_wf_knot : Instr.wf (.free 0 4096) = false ∧ Instr.wf (.free 0 4095) = true := by decide
theorem test_wf_bride : Instr.wf (.brideDown 32) = false ∧ Instr.wf (.brideDown 31) = true := by decide
theorem test_wf_motif : Instr.wf (.loadComplete 16) = false ∧ Instr.wf (.loadComplete 15) = true := by decide
theorem test_wf_machine : Instr.wf (.heartbeatMissing 4096) = false ∧ Instr.wf (.heartbeatMissing 4095) = true := by decide
theorem test_wf_seq : Instr.wf (.prefillStepStart 0 16777216) = false ∧ Instr.wf (.prefillStepStart 0 16777215) = true := by decide
theorem test_wf_sensor : Instr.wf (.sensorGood 196) = false ∧ Instr.wf (.sensorGood 195) = true := by decide
theorem test_wf_input : Instr.wf (.lightSupplyGood 9) = false ∧ Instr.wf (.lightSupplyGood 8) = true := by decide
theorem test_wf_pipe : Instr.wf (.workUnitEnd 48) = false ∧ Instr.wf (.workUnitEnd 47) = true := by decide
theorem test_wf_island : Instr.wf (.marginWindow 252) = false ∧ Instr.wf (.marginWindow 251) = true := by decide
theorem test_wf_entry : Instr.wf (.late 32) = false ∧ Instr.wf (.late 31) = true := by decide
theorem test_wf_field : Instr.wf (.readCountWrite 0 (2 ^ 64)) = false ∧ Instr.wf (.readCountWrite 0 (2 ^ 64 - 1)) = true := by decide
theorem test_wf_qp : Instr.wf (.disconnect (2 ^ 24)) = false ∧ Instr.wf (.disconnect (2 ^ 24 - 1)) = true := by decide
theorem test_wf_priority : Instr.wf (.pause 8 0) = false ∧ Instr.wf (.pause 7 0) = true := by decide
theorem test_wf_bytes : Instr.wf (.hostWrite 0 0 []) = false ∧ Instr.wf (.hostWrite 0 0 [1]) = true := by decide
/-- The tag of the tests' step. -/
def tTag (layer : Nat) : StepTag := { step := 1, seq := 0, motif := 0, gen := 1, layer := layer, lineage := 0, companion := none }
theorem test_wf_tag : Instr.wf (.checkSend (tTag 4096)) = false ∧ Instr.wf (.checkSend (tTag 4095)) = true := by decide
theorem test_wf_vector : LiveVector.ok { tag := tTag 0, matrix := 0, row := 0, bits := 9, exponent := 0, elems := [] } = false := by
  decide
theorem test_wf_key :
    Instr.wf (.matrixOutput { tag := tTag 0, matrix := 256, outputBlock := 0, chain := 0, row := 0 }) = false ∧
    Instr.wf (.matrixOutput { tag := tTag 0, matrix := 255, outputBlock := 0, chain := 0, row := 0 }) = true := by decide
theorem test_wf_tree : Instr.wf (.tree (tTag 0) [{ token := 0, parent := 64 }]) = false ∧ Instr.wf (.tree (tTag 0) [{ token := 0, parent := 0 }]) = true := by
  decide
theorem test_wf_position :
    Instr.wf (.chainPartial { tag := tTag 0, matrix := 0, outputBlock := 0, chain := 0, row := 0 } 16) = false := by decide
theorem test_wf_flit : Instr.wf (.flit 0 [] 0 0) = false := by decide
theorem test_wf_rows : Instr.wf (.query 0 (tTag 0) true ⟨[{ row := 0, qHead := 0, kvHead := 0, node := 0, position := 0, kvLength := 0, ancestors := 0, elems := [], scales := [] }], []⟩) = false := by
  decide
theorem test_wf_word : CodeWord.ok { symbols := [], crc := 0 } = false := by decide
theorem test_wf_cell : CellReading.ok { row := 1024, column := 0, error16 := 0 } = false := by decide

/-! ### The hypotheses of the statements are met: the step, mailboxes and windows -/

/-- StepRunsTheFrontCommand, CommandsLeaveTheQueue, MemoryStaysCanonical, TrustNeverGoesBack: a step that has a next state. -/
theorem test_step_front : (tOn).memCanonical ∧ step { tOn with pending := [.announce 0, .ringScan] } = .next { tOn with pending := [.ringScan] } ∧
    exec (.announce 0) tOn = .next tOn := ⟨by unfold State.memCanonical; decide, rfl, rfl⟩
/-- StepRunsTheFrontCommand: the empty queue, with each alternative. -/
theorem test_idle : tOn.pending = [] ∧ tOn.time.ppb = 0 ∧ tOn.time.rate = 0 ∧ tOn.level = 0 ∧ 0 < ({ tOn with thermal := { tOn.thermal with level := 1 } } : State).level := by decide
/-- NumbersOfNoObjectStopTheCommand: the first number that names nothing. -/
theorem test_no_mailbox (s : State) : exec (.mailboxConsume 64) s = .fault .noSuchMailbox ∧ exec (.free 0 4096) s = .fault .noSuchKnot := ⟨rfl, rfl⟩
/-- WindowsAnswerTheHost: an access that begins in a window and ends beyond it; a read and a write of the windows. -/
theorem test_windows : (∀ w, w < 8 → ¬ ((windowOf w).1 ≤ 0xFFF ∧ 0xFFF + 2 ≤ (windowOf w).1 + (windowOf w).2)) ∧ (tPort tOn).qpOk 5 = true ∧
    (tPort tOn).port.rkeys.getD 1 0 = 2 ∧ (tPort tOn).port.rkeys.getD 7 0 = 8 ∧ (tPort tOn).mem.flagged = [] ∧
    ((tPort tOn).log.recent.all fun r => r.1 != (12, 1, kWindow * 2 ^ 24 + 1)) = true ∧ 0xFF8 + [1, 2, 3, 4, 5, 6, 7, (8 : Byte)].length ≤ 0x1000 := by decide
/-- The host area of the configured state takes whole writes. -/
theorem test_host_area : ({ tOn with cfg := { tOn.cfg with cur := { tOn.cfg.cur with hostOffset := 64, hostSize := 128 } } } : State).inHostArea 64 128 = true ∧
    ({ tOn with cfg := { tOn.cfg with cur := { tOn.cfg.cur with hostOffset := 64, hostSize := 128 } } } : State).inHostArea 63 1 = false := by decide
/-- EntryWritesAreTakenOrDiscarded: a free entry, a posted one, and a part of one. -/
theorem test_entry_writes : entryOwn (entryBytes (tOn.box 63) 4095) = false ∧ entryOwn (entryBytes ((tPosted (tEntry 1 []) none tOn).box 63) 0) = true ∧
    63 * 0x40000 + 0x3FFFF + 1 ≤ 0x1000000 ∧ 0x3FFFF % 64 ≠ 0 ∧
    (tOn.setBox 63 { Mailbox.init with cleared := some (4095, 0) }).now = 0 ∧ ((tOn.setBox 63 { Mailbox.init with cleared := some (4095, 0) }).box 63).cleared = some (4095, 0) ∧
    (tOn.log.recent.all fun r => r.1 != (12, 3, kWindow * 2 ^ 24 + 2)) = true := by decide
/-- ReadCountsAndDoorbells: a value within the records written, scans in and out of the ROM state. -/
theorem test_doorbells : (tPort tOn).qpOk 5 = true ∧ tOn.restarting = false ∧ tOn.bobbinRuns = true ∧ (0 : Nat) ≤ (tOn.box 63).records ∧
    (scanResult (tPosted (tEntry 1 []) none tOn)) = [63] := by decide
/-- ConsumptionTakesAndChecksEntries, first clause: an entry that passes. -/
theorem test_consume : let s := tPosted (tEntry 0x60 []) (some 0x0100) tOn
    s.bobbinRuns = true ∧ s.boxes.noted.head? = some 63 ∧ (s.box 63).cur = none ∧ entryOwn (entryBytes (s.box 63) (s.box 63).consume) = true ∧ s.isHead = false ∧
    entryCheck s (s.box 63) (entryBytes (s.box 63) (s.box 63).consume) = none ∧ updateRefusal s (entryOp (entryBytes (s.box 63) (s.box 63).consume)) = none := by decide
/-- ConsumptionTakesAndChecksEntries, second clause: no version, an undefined opcode, a reserved byte, a parameter out of range. -/
theorem test_consume_fails : let s := tPosted (tEntry 0x60 []) none tOn
    s.bobbinRuns = true ∧ s.start.rom = false ∧ s.cfg.breakQps = false ∧ (s.box 63).doneWait = none ∧ (s.box 63).records - (s.box 63).readCount < 16383 ∧
    0x0077 ∉ opcodes ∧ firstReserved (tEntry 0x60 [(0x3F, 1, 1)]) 0x60 = some 0x3F ∧ firstReserved (tEntry 0x40 [(8, 1, 2)]) 0x40 = none ∧
    firstBad (tEntry 0x40 [(8, 1, 2)]) 0x40 = some 8 := by decide
/-- StatusWordsAndSimpleCommands: commands in progress, and a DONE record that waits with and without a free slot. -/
theorem test_simple : let s := tRun (tEntry 1 [(8, 2, 0x0100), (0xA, 2, 0x0100)]) .none [] false tOn
    s.restarting = false ∧ s.isHead = false ∧ s.cfg.breakQps = false ∧ (s.box 63).records - (s.box 63).readCount < 16383 ∧ (s.box 63).doneWait = none ∧
    (s.box 63).cur.map (fun c => entryOp c.entry) = some 1 ∧ max 0x0100 s.fw.runningSlot.ifMin ≤ min 0x0100 s.fw.runningSlot.ifMax ∧
    min 0x00FF s.fw.runningSlot.ifMax < max 0x0080 s.fw.runningSlot.ifMin := by decide
theorem test_done_waits : let s := tOn.setBox 63 { Mailbox.init with doneWait := some ⟨0, 0, 0, 0⟩, records := 16383 }
    (s.box 63).doneWait = some ⟨0, 0, 0, 0⟩ ∧ 16383 ≤ (s.box 63).records - (s.box 63).readCount ∧ s.isHead = false ∧
    ((s.setBox 63 { s.box 63 with readCount := 1 }).box 63).records - ((s.setBox 63 { s.box 63 with readCount := 1 }).box 63).readCount < 16383 := by decide

/-! ### The host port, sequences and knots -/

/-- QueuePairsComeAndGo: input 8 GOOD for 100 ms to the tick, a port up, requests that are taken and rejected. -/
theorem test_port : let s := { tOn with fabric := { tOn.fabric with light := [(8, { state := 3, low := 0, since := 0 })] },
                                         time := { tOn.time with t16 := 100000000 * 65536 } }
    (Tab.get Light.init s.fabric.light 8).state = 3 ∧ (Tab.get Light.init s.fabric.light 8).since + 100000000 ≤ s.now ∧ s.start.powerGood = true ∧ 4 ≤ s.start.stage ∧
    (tPort s).port.up = true ∧ field (layout 16 [(0, 4, 0x51485746)]) 0 4 = 0x51485746 ∧ (layout 16 [(0, 4, 0x51485746)]).length = 16 ∧ (tPort s).port.qps.length < 512 ∧
    field (zeros 16) 0 4 ≠ 0x51485746 := by decide
/-- FramesPausesAndCongestion: the pause priorities of the default configuration, and a queue pair with the stamps of each clause. -/
theorem test_frames : let p := tOn.portCfg
    (∃ x, x < 8 ∧ x ≠ p.pfcA ∧ x ≠ p.pfcB) ∧ ownAddress tOn 1 (linkLocal tOn.fw.mac) = true ∧ ownAddress tOn 1 0 = false ∧
    (tPort tOn).port.qps.find? (fun r => r.qpn = 5) = some (tQp 5) ∧ ({ tQp 5 with cnpGot := some 0 }).cnpGot = some 0 ∧ (0 : Nat) ∉ (tPort tOn).port.pausedRx := by decide
/-- FramesPausesAndCongestion: a frame of a second VLAN, a fragment and a UD packet; a packet that a pause of its priority holds back; numbers left for a pair. -/
theorem test_frames_in : let s : State := { tPort tOn with port := { (tPort tOn).port with out := [{ body := .ack 5, priority := some 3, vlan := none, ect := true, held := some 9 }] } }
    (1 : Nat) ≠ s.portCfg.vlan ∧ (s.port.out[0]?).map (fun f => (f.priority, f.held)) = some (some 3, some 9) ∧ s.now < 9 ∧ s.qpnsUsed.length < 2 ^ 24 ∧
    (3 = s.portCfg.pfcA ∨ 3 = s.portCfg.pfcB) ∧ (9217 : Nat) > 9216 := by decide
/-- SequencesOpenAndClose: a resident motif, a free id, no draft motif. -/
theorem test_seq_open : let s := tRun (tEntry 0x30 [(0xA, 1, 0xFF)]) .none [] false (tMotif tOn)
    Ready s 63 0x30 (tEntry 0x30 [(0xA, 1, 0xFF)]) ∧ s.seqMotif 0 = some (.ok (tPrick 0xFFFF [tLayer 0 0xFFFF, tLayer 1 0xFFFF])) ∧ s.fabric.reshape = none ∧
    s.findSeq 0 0 = none ∧ s.openCount < 4096 ∧ field (tEntry 0x30 [(0xA, 1, 0xFF)]) 0xA 1 = 0xFF ∧ s.seqWaits 63 = false ∧ s.take.vacatedTo = none := by unfold Ready; decide
/-- The sequence of the tests. -/
def tSeq : Seq := Seq.start 0 0 0 true none none { temp := 0, topK := 0, topP := 0 }
/-- The motif's head with sequence 0 in a state and with tokens. -/
def tSeqs (q : Seq) (s : State) : State := { tMotif s with seqs := { s.seqs with open_ := [q] } }
/-- The pricking that is resident in the tests. -/
def tP : Pricking := tPrick 0xFFFF [tLayer 0 0xFFFF, tLayer 1 0xFFFF]

/-- SequencesOpenAndClose: a free id with a draft motif of the same vocabulary, and the refusals in their order. -/
theorem test_seq_draft : let s := ((tMotif tOn).setMotif 15 { MotifEntry.init with state := 2, vocabDigest := 7 }).setMotif 14 { MotifEntry.init with state := 2 }
    (s.motif 15).state = 2 ∧ (s.motif 15).vocabDigest = tP.vocabDigest ∧ (s.motif 14).vocabDigest ≠ tP.vocabDigest ∧ (s.motif 14).state ≠ 1 ∧ (s.motif 14).state ≠ 0 ∧
    ((tSeqs tSeq tOn).findSeq 0 0).isSome = true ∧ s.loadConsumed 14 = false ∧ s.loadConsumed 15 = false := by decide
/-- A head with `n` open sequences. -/
def tMany (n : Nat) : State := { tMotif tOn with seqs := { tOn.seqs with open_ := (List.range n).map fun i => { tSeq with id := i } } }
theorem test_seq_limit (n : Nat) : (tMany n).openCount = n := by
  show (((List.range n).map fun i => ({ tSeq with id := i } : Seq)).filter fun q => q.companion.isNone).length = n
  rw [List.filter_eq_self.2, List.length_map, List.length_range]
  intro q hq
  obtain ⟨i, -, rfl⟩ := List.mem_map.1 hq
  rfl
theorem test_seq_close : let s := tRun (tEntry 0x34 []) .none [] false (tSeqs tSeq tOn)
    Ready s 63 0x34 (tEntry 0x34 []) ∧ s.seqMotif 0 = some (.ok tP) ∧ s.findSeq 0 0 = some tSeq ∧ tSeq.state = .opened ∧ tSeq.gen = none ∧ tSeq.append = none ∧
    s.seqBusy tSeq = false ∧ s.seqWaits 63 = false ∧ s.take.vacatedTo = none ∧
    (s.boxes.box.all fun b => match b.2.cur with | some c => !fetching c | none => true) = true := by unfold Ready; decide
/-- A step of sequence 0 as its module knows it. -/
def tStep : StepRec :=
  { motif := 0, seq := 0, step := 1, gen := 1, companion := none, prefill := false, n := 1, width := 1, nodes := [{ token := 3, parent := 0 }], formats := [(0, 2)],
    floors := [], maxLineage := 0, inputs := [], outputs := [], checks := [], checkSent := [], flagged := [], replay := none, noReplay := none, slow := 0,
    replays := 0, served := [], drawn := [], tau := 6, auditLog2 := 12, ended := false, uncommitted := false, sentTo := [], avoid := [], damaged := [], after := 0, checkTold := [], unitsDrawn := [] }
/-- A state with that step in flight. -/
def tLive (r : StepRec) (s : State) : State := { s with steps := { s.steps with live := [r] } }
theorem test_seq_close_waits : let s := tLive tStep (tSeqs { tSeq with tokens := [3] } tOn)
    (s.seqInFlight (seqTag { tSeq with tokens := [3] })) = [tStep] ∧ tStep.replay = none ∧ ({ tSeq with state := .closing, closeBox := some 62 } : Seq).closeBox = some 62 := by decide
/-- SequencesAppendAndFork: an append that reads, one whose tokens are in, a full sequence, a fork of a host-managed sequence. -/
theorem test_seq_append : let c := tCmd (tEntry 0x31 [(0x1C, 4, 4)]) .readDone (leBytes 4 9) false
    let s := (tPort (tSeqs tSeq tOn)).setBox 63 { Mailbox.init with cur := some c, done := false }
    Ready s 63 0x31 c.entry ∧ (s.box 63).cur = some c ∧ c.begun = false ∧ s.seqMotif (field c.entry 8 1) = some (.ok tP) ∧
    s.findSeq (field c.entry 8 1) (field c.entry 0xC 3) = some tSeq ∧ s.qpOk c.qp = true ∧ c.continued = false ∧ s.seqWaits 63 = false ∧
    s.take.vacatedTo = none ∧ s.beyond tP tSeq = false ∧ (tokensOf c.data).all (fun x => decide (x < tP.vocabSize)) = true ∧
    tokensOf c.data ≠ [] ∧ (tokensOf c.data).length = 1 ∧ tSeq.tokens = [] := by unfold Ready; decide
theorem test_seq_full : 16777216 < (List.replicate 16777216 0).length + (tokensOf (leBytes 4 9)).length := by
  rw [List.length_replicate]
  decide
/-- A queue pair with room for a read of the module's own, and one on which 16 are outstanding (R341). -/
theorem test_read_room : (tPort tOn).readRoom 5 = true ∧
    ((List.range 16).foldl (fun u m => u.setBox m { Mailbox.init with cur := some { tCmd (tEntry 0x31 []) .reading [] false with via := 5, want := 64 } }) (tPort tOn)).readRoom 5 = false := by
  decide +kernel
theorem test_seq_fork : let s := tRun (tEntry 0x33 [(0x10, 4, 1)]) .none [] false (tSeqs tSeq tOn)
    Ready s 63 0x33 (tEntry 0x33 [(0x10, 4, 1)]) ∧ s.seqMotif 0 = some (.ok tP) ∧ s.findSeq 0 0 = some tSeq ∧ tSeq.state ≠ .closing ∧ s.findSeq tSeq.motif 1 = none ∧
    s.openCount < 4096 ∧ tSeq.hostPages = true ∧ tSeq.draft = none ∧ (s.findSeq tSeq.motif 0).isSome = true ∧ s.seqWaits 63 = false ∧ s.take.vacatedTo = none ∧
    s.beyond tP tSeq = false := by unfold Ready; decide
/-- GenerationsBeginAndAreCancelled: a count of 1, a cancel, a generation in flight. -/
theorem test_generate : let e := tEntry 0x32 [(0x10, 4, 1)]
    let s := tRun e .none [] false (tSeqs { tSeq with tokens := [3] } tOn)
    Ready s 63 0x32 e ∧ begunOn s 63 = false ∧ field e 0x10 4 ≠ 0 ∧ s.seqMotif (field e 8 1) = some (.ok tP) ∧
    s.findSeq (field e 8 1) (field e 0xC 3) = some { tSeq with tokens := [3] } ∧ generateBad tP { tSeq with tokens := [3] } e = none ∧ s.seqWaits 63 = false ∧ s.take.vacatedTo = none ∧
    s.beyond tP { tSeq with tokens := [3] } = false := by unfold Ready; decide
/-- A generation of sequence 0. -/
def tGen : GenInfo := { mailbox := 62, count := 2, delivered := 0, stops := [], branches := [], cancelled := false }
theorem test_cancel : let e := tEntry 0x32 []
    let q : Seq := { tSeq with tokens := [3], state := .generating, gen := some tGen }
    let s := tRun e .none [] false (tLive tStep (tSeqs q tOn))
    Ready s 63 0x32 e ∧ field e 0x10 4 = 0 ∧ s.findSeq (field e 8 1) (field e 0xC 3) = some q ∧ generateBad tP q e = none ∧ s.seqBusy q = true ∧
    s.seqMotif (field e 8 1) = some (.ok tP) ∧ s.seqWaits 63 = false ∧ s.take.vacatedTo = none := by unfold Ready; decide
/-- PagesBindBindsATable: the last layer and a table at the end of the host area; the first layer beyond. -/
theorem test_bind : let e := tEntry 0x38 [(0x10, 2, 1), (0x12, 2, 1), (0x18, 8, 96)]
    let s := tRun e .none [] false { tSeqs tSeq tOn with cfg := { tOn.cfg with cur := { tOn.cfg.cur with hostOffset := 64, hostSize := 64 } } }
    Ready s 63 0x38 e ∧ begunOn s 63 = false ∧ s.seqMotif 0 = some (.ok tP) ∧ s.findSeq 0 0 = some tSeq ∧ tSeq.hostPages = true ∧
    field e 0x10 2 < tP.layers.length ∧ field e 0x10 2 + field e 0x12 2 ≤ tP.layers.length ∧ s.inHostArea (field e 0x18 8) (32 * field e 0x12 2) = true ∧
    s.inHostArea 97 32 = false ∧ tP.layers.length ≤ 2 ∧ tP.layers.length < field e 0x10 2 + 2 ∧ (s.seqs.bindings.any fun x => x.overlaps ⟨0, 0, 1, 1, 96⟩) = false ∧ s.seqWaits 63 = false ∧ s.take.vacatedTo = none := by
  unfold Ready; decide
/-- KnotOperations: a free knot, an armed one of port 5 with guard 9, a fired one. -/
theorem test_knots : (tOn.knot 4095).state = 0 ∧
    (let s := { tOn with knots := { tOn.knots with knot := [(4095, { owner := 5, state := 1, refused := 0, guard := 9, threshold := 2, count := 1, serves := none })] } }
     (s.knot 4095).state ≠ 0 ∧ (s.knot 4095).guard = 9 ∧ (s.knot 4095).owner = 5 ∧ (s.knot 4095).guard ≠ 8) := by decide
/-- An ADD that brings the count to the threshold fires the knot and wakes its owner; the next is applied without a wake (R248). -/
theorem test_knot_fires :
    let s := { tOn with knots := { tOn.knots with knot := [(0, { owner := 5, state := 1, refused := 0, guard := 9, threshold := 2, count := 1, serves := none })] } }
    (match exec (.add 1 0 1 9) s with
     | .next t => decide ((t.knot 0).state = 2 ∧ (t.knot 0).count = 2 ∧ t.knots.wakes = [(5, 0)]) &&
       (match exec (.add 1 0 1 9) t with | .next u => decide ((u.knot 0).count = 3 ∧ u.knots.wakes = [(5, 0)]) | _ => false)
     | _ => false) = true := by decide
/-- Two increments of one instant: the firing test comes after the second (R249). -/
theorem test_add_follows : let s := { tOn with pending := [.knotAdd 3 4095 1 9] }
    s.addFollows 4095 = true ∧ s.addFollows 0 = false ∧ tOn.addFollows 4095 = false := by decide
theorem test_ordered_follows : let s := { tOn with pending := [.add 3 4095 1 9] }
    s.orderedFollows 3 4095 = true ∧ tOn.orderedFollows 3 4095 = false := by decide
theorem test_adds_combine :
    let s := { tOn with knots := { tOn.knots with knot := [(0, { owner := 5, state := 1, refused := 0, guard := 9, threshold := 2, count := 1, serves := none })] },
                        pending := [.add 1 0 (-1) 9] }
    (match exec (.add 1 0 1 9) s with | .next t => decide ((t.knot 0).state = 1 ∧ (t.knot 0).count = 2 ∧ t.knots.wakes = []) | _ => false) = true := by decide
/-- ConverterCodes: both edges of a code and of the range, at tap 2 (R91). -/
theorem test_codes : quantise [] 512 (255 * 256) = (127, true) ∧ quantise [] 512 (255 * 256 - 1) = (127, false) ∧ quantise [] 512 (-257 * 256 - 1) = (-128, true) ∧
    quantise [] 512 (-257 * 256) = (-128, false) ∧ quantise [] 512 (256 - 1) = (0, false) ∧ quantise [] 512 256 = (1, false) ∧ quantise [] 512 (-256) = (0, false) := by decide

/-! ### Arrays and the data path -/

/-- The tile of array 0 in the tests: two weights in column 0. -/
def tTile (pos : Nat) : Tile :=
  { array := pos, named := pos, layer := 0, matrix := 0, chainLen := 2, position := pos, chain := 0, outputBlock := 0, inputSeed := 0,
    weights := [(0, 0, 3), (1, 0, -2)], picots := [], colSums := [], scales := [] }
/-- The owner of the motif with a mirror of two tiles on arrays 0 and 1. -/
def tShard (s : State) : State :=
  let t := tMotif s
  t.setMotif 0 { t.motif 0 with mirror := some { tiles := [tTile 0, tTile 1], vectors := [] }, mirrorState := 2 }
/-- A vector of the step whose first element is 5. -/
def tVec : LiveVector := { tag := tTag 0, matrix := 0, row := 0, bits := 4, exponent := 0, elems := 5 :: List.replicate 1023 0 }
/-- The chain of the tests. -/
def tKey : ChainKey := { tag := tTag 0, matrix := 0, outputBlock := 0, chain := 0, row := 0 }
/-- A vector of the step with no element but 0. -/
def tZero : LiveVector := { tVec with elems := List.replicate 1024 0 }
/-- The matrix input that a vector is the one segment of. -/
def tRot (v : LiveVector) : RotOut := { tag := v.tag, matrix := 0, row := 0, format := 2, exponent := 0, seeds := [0], elems := v.elems }
/-- The owner with array 0 serving its tile, the step in flight and its matrix input formed. -/
def tArray (s : State) : State :=
  let u := tLive tStep (tShard s)
  let t := { u with data := { u.data with rotated := [tRot tVec] } }
  ((t.setArray 0 { t.array 0 with service := .serving }).setPhys 0
    { t.phys 0 with calState := 3, cells := some { motif := 0, gen := 1, gain := 4, w3 := false, retry := false, tile := tTile 0 } })
theorem test_latch : let s := tArray tOn
    s.workOf 0 = some 0 ∧ s.physOf 0 = 0 ∧ s.latchOk 0 tVec = true ∧ s.arrays.dutyWait = [] ∧ zeroVector tVec = false ∧ s.dutyFits 0 0 tZero = true ∧
    ({ s with data := { s.data with rotated := [tRot tZero] } } : State).latchOk 0 tZero = true ∧ ({ s.phys 0 with shadow := some CoefSet.default }).shadowHost = false ∧ s.arrays.freezeUntil = none ∧ (s.phys 0).shadow = none ∧ latchedOf (s.array 0) tVec.tag = 0 ∧ s.batchOver 0 = true := by decide +kernel
/-- A vector's evaluation takes at most 4 cycles for each plane and 2 for a retry of each (R97, R98). -/
theorem evalVector_cycles (s : State) (p : Nat) (v : LiveVector) (tau : Nat) : evalCycles (s.evalVector p v tau) ≤ 6 * v.bits := by
  unfold State.evalVector
  split
  · simp [evalCycles, zeroOut]
  · have e : (evalPlanes s p v.elems v.bits s.draws).length = v.bits := by simp [evalPlanes]
    generalize evalPlanes s p v.elems v.bits s.draws = planes at e
    have h : (outOf v tau (s.phys p).epoch planes).retries ≤ planes.length := List.length_filter_le _ _
    show (if (false : Bool) = true then 0 else 4 * v.bits + 2 * (outOf v tau (s.phys p).epoch planes).retries) ≤ _
    simp only [Bool.false_eq_true, if_false]
    omega
/-- A vector with elements other than 0 finds room in a window whose use leaves room for all its planes retried. -/
theorem test_latch_room : (tArray tOn).dutyFits 0 0 tVec = true := by
  have h : ((tArray tOn).atLatch 0 0 tVec) = tArray tOn := by rfl
  unfold State.dutyFits
  rw [h]
  have c := evalVector_cycles (tArray tOn) 0 tVec ((tArray tOn).tauOf tVec.tag)
  have e : (tArray tOn).arrays.dutyUsed = 0 := rfl
  have b : tVec.bits = 4 := rfl
  have d : 24 ≤ dutyLimit (tArray tOn) := by decide +kernel
  rw [b] at c
  simp only [dutyRoom, e, Bool.or_eq_true, decide_eq_true_eq]
  exact Or.inr (by omega)
/-- The end of a duty window to the tick, with nothing waiting. -/
theorem test_duty_end : let s : State := { tOn with time := { tOn.time with t16 := 10000 * 65536 } }
    s.arrays.dutyWait = [] ∧ s.arrays.dutyStart + 10000 ≤ s.now ∧ tOn.arrays.dutyStart ≤ tOn.now ∧ tOn.now < tOn.arrays.dutyStart + 10000 := by decide
/-- VectorsAreLatchedAndChecked: outputs that wait for their report, clean and suspect with the step over; an array in warm-up whose turn it is. -/
theorem test_report : let o := zeroOut tVec 0
    let s := (tArray tOn).setArray 0 { ArrayState.init with outs := [{ o with reported := false }] }
    unreported (s.array 0) = some { o with reported := false } ∧ s.physOf 0 = 0 ∧ ({ o with fail := some (0, 0, 7, 6) } : ArrayOut).fail = some (0, 0, 7, 6) ∧
    ((tLive { tStep with ended := true } s).stepOf tVec.tag).map (·.ended) = some true := by decide +kernel
theorem test_warm : let s := tOn.setPhys 33279 { PhysArray.init with calState := 1 }
    s.indexOf 33279 = some 33023 ∨ s.indexOf 33279 = none := by decide
theorem test_warm_turn : let s := tOn.setPhys 0 { PhysArray.init with calState := 1 }
    s.indexOf 0 = some 0 ∧ (s.phys 0).calState = 1 ∧ s.warmTurn 0 = true ∧ s.mayWarm 0 = true ∧ s.start.safe = false ∧ s.arrays.dutyUsed + 48 ≤ dutyLimit s ∧ (∀ w ∈ s.arrays.dutyWait, w.1 ≠ 0) := by decide
/-- ChainsOfPartials: the partial at position 0, an output of array 1 for the chain, an array that serves no longer, a chain with its last position in. -/
theorem test_chain : let s := tArray tOn
    let c : ChainPart := { ChainPart.start tKey (tRot tVec) with sums := [(0, 9)], present := 1 }
    let t := { s with data := { s.data with parts := [c] } }
    t.chainTile tKey 1 = some (tTile 1) ∧ t.usable tKey.tag = true ∧ t.data.parts.find? (fun c => decide (c.key = tKey ∧ c.position + 1 = 1)) = some c ∧
    outFor (t.array 1) tKey = none ∧ t.arrayServes 1 tKey.tag = false ∧ (outFor { ArrayState.init with outs := [zeroOut tVec 0] } tKey).isSome = true ∧ (s.rotOf tKey.tag tKey.matrix tKey.row).isSome = true ∧ s.data.parts = [] ∧ s.chainTile tKey 0 = some (tTile 0) ∧
    (t.layerT tKey.tag).isSome = true ∧ t.data.tambour = [] ∧
    ({ t with data := { t.data with parts := [{ c with position := 1 }] } } : State).data.parts.find? (fun c => decide (c.key = tKey ∧ c.position + 1 = 2)) =
      some { c with position := 1 } ∧ ((t.blockTiles tKey).filter fun x => x.chain = tKey.chain).length = 2 := by decide +kernel
theorem test_tambour : let s := tArray tOn
    s.chainTile tKey 1 = some (tTile 1) ∧ (s.layerT tKey.tag).isSome = true ∧ (tTile 1).array = 1 ∧ (s.motif 0).spoilt.contains 1 = false ∧
    s.usable tKey.tag = true ∧ s.arrayServes 1 tKey.tag = false ∧ s.tileOf 1 tVec = some (tTile 1) ∧ chainOf (tTile 1) tVec = tKey ∧ s.vectorFor (tTile 1) tVec = true ∧
    s.arrayHas 1 tKey 1 = false ∧ s.tambourHas tKey 1 = false ∧ s.data.tambourWait = [] ∧
    (let j : TambourJob := { array := 2, key := { tKey with row := 1 }, position := 1, vec := tVec }
     s.jobClass j ≤ s.jobClass { array := 1, key := tKey, position := 1, vec := tVec }) := by decide +kernel
/-- MatrixInputsAndOutputs: an own layer, a complete block, windows that fall back, return and stay. -/
theorem test_matrix : let s := tArray tOn
    (s.layerT (tTag 0)).map s.owns = some true ∧ s.usable (tTag 0) = true ∧ (List.replicate 1024 (0 : Fp32)).length = 1024 * [0].length ∧
    s.seedsOk (tTag 0) 0 [0] = true ∧ s.matrixInput (tTag 0) 0 0 (List.replicate 1024 0) = some (List.replicate 1024 0, 0) ∧ (s.steps.live.any (s.bygone (tTag 0))) = false ∧
    blockComplete (s.blockTiles tKey) { WideAcc.start tKey with chains := [0] } = true := by decide +kernel
theorem test_windows_of_precision : let r := tLayer 0 0xFFFF
    (layerOf tP 0) = some r ∧ r.fallback = true ∧ exceeds 1 1 r.ovrLimit = true ∧ exceeds 0 1 r.ovrLimit = false ∧ within 0 1 r.ovrLimit = true ∧
    within 1 1 r.ovrLimit = false ∧ 1 + 1 = r.returnWindows ∧ (tMotif tOn).prickNow 0 = some tP ∧ (tMotif tOn).owns r = true ∧ (tMotif tOn).windowGen 0 0 = 1 ∧
    ((((tMotif tOn).motif 0).prickFor 1).map fun p => p.placed (movedNow (tMotif tOn).take.moves)) = some tP := by decide

/-! ### Steps, attention, commit and recall -/

/-- StepsAndTreesStart: an append with one position left, a generation with and without room, a companion's tree. -/
theorem test_prefill : let a : AppendInfo := { mailbox := 62, tokens := [4], target := 1, started := 0, committed := 0 }
    let q : Seq := { tSeq with state := .appending, append := some a, tokens := [3] }
    let s := tSeqs q tOn
    s.mayStart 0 = some tP ∧ s.findSeq 0 0 = some q ∧ a.started < a.target ∧ (s.seqInFlight (seqTag q)).all leftFirstLayer = true ∧
    s.barred 0 0 = false ∧ s.roomForStep tP (min (min (ladderChunk (s.stepLevel 0)) 4096) (a.target - a.started)) = true := by decide
theorem test_generation : let q : Seq := { tSeq with state := .generating, gen := some tGen, tokens := [3] }
    let s := tSeqs q tOn
    s.mayStart 0 = some tP ∧ s.findSeq 0 0 = some q ∧ s.seqBusy q = false ∧ 64 ≤ freeSlots (s.box 62) ∧
    nextNodes s tP q tGen = some ([{ token := 3, parent := 0 }], false) ∧ s.roomForStep tP 1 = true ∧ s.barred 0 0 = false ∧
    (let u := s.setBox 62 { Mailbox.init with records := 16320, cur := some (tCmd (tEntry 0x32 [(0x10, 4, 2)]) .none [] true), opcode := 0x32 }
     freeSlots (u.box 62) < 64 ∧ (u.boxes.box.filter fun e => namesSeq e.2 0 0).map (·.1) = [62] ∧ u.barred 0 0 = false) := by decide
theorem test_tree : let q : Seq := { tSeq with state := .generating, gen := some { tGen with branches := [2] }, tokens := [3], draft := some 15 }
    let c : Seq := { tSeq with motif := 15, companion := some 0 }
    let t := (tMotif tOn).setMotif 15 { MotifEntry.init with state := 2, gen := 1, vocabDigest := 7, prick := some tP }
    let s := { t with seqs := { tOn.seqs with open_ := [q, c] } }
    s.findSeq 0 0 = some q ∧ s.findCompanion 15 0 0 = some c ∧ treeOk [{ token := 3, parent := 0 }] = true ∧ q.nextTree = none ∧ c.nextTree = none ∧
    ({ tTag 0 with motif := 15, companion := some 0 } : StepTag).companion = some 0 ∧ s.mayStart 15 = some tP ∧ s.roomForStep tP 1 = true ∧
    s.seqInFlight (seqTag c) = [] ∧ s.seqInFlight (seqTag q) = [] := by decide
/-- A companion's one step in flight, of a draft motif whose tail is elsewhere, as deep as its shape. -/
theorem test_tree_done : let q : Seq := { tSeq with state := .generating, gen := some { tGen with branches := [2] }, tokens := [3], draft := some 15 }
    let c : Seq := { tSeq with motif := 15, companion := some 0, nextTree := some [{ token := 3, parent := 0 }] }
    let p : Pricking := { tP with tail := 16 }
    let r : StepRec := { tStep with motif := 15, companion := some 0 }
    let t := tLive r ((tMotif tOn).setMotif 15 { MotifEntry.init with state := 2, gen := 1, vocabDigest := 7, prick := some p })
    let s := { t with seqs := { tOn.seqs with open_ := [q, c] } }
    s.findCompanion 15 0 0 = some c ∧ s.seqInFlight (seqTag c) = [r] ∧ s.stepOf (r.tag 0 0) = some r ∧ s.prickT (r.tag 0 0) = some p ∧ s.tailOf p = false ∧
    [List.replicate 256 (0 : Fp32)].length = r.width ∧ (List.replicate 256 (0 : Fp32)).length = p.vocabSize ∧
    [2].length ≤ treeDepth [{ token := 3, parent := 0 }] + 1 := by decide +kernel
/-- A matrix whose attention results are in, whatever it follows. -/
theorem test_attn_in (b : Nat) : let s := tLive tStep (tSeqs { tSeq with hostPages := false, tokens := [3] } tOn)
    let row : QueryRow := { row := 0, qHead := 0, kvHead := 0, node := 0, position := 0, kvLength := 0, ancestors := 1, elems := [], scales := [] }
    let x : RowPartial := { layer := 0, row := 0, rank := 0, empty := true, merged := true, shadow := false, m := 0, l := 0, o := [] }
    ({ s with attn := { s.attn with rows := [(tTag 0, row)], closed := [tTag 0], merged := [(tTag 0, x)] } } : State).attnIn (tTag 0) b 0 = true := by
  unfold State.attnIn
  rw [Bool.or_eq_true]
  exact Or.inr (by decide +kernel)
/-- The attention output of a row of the step, as a matrix input of one segment takes it. -/
theorem test_from_attention (b : Nat) : let s := tLive tStep (tSeqs { tSeq with hostPages := false, tokens := [3] } tOn)
    (s.attnRow (tTag 0) 1 0 1).length = 1024 ∧ s.fromAttention (tTag 0) b 0 (s.attnRow (tTag 0) 1 0 1) = true := by
  refine ⟨by decide +kernel, ?_⟩
  unfold State.fromAttention
  rw [Bool.or_eq_true]
  exact Or.inr (by decide +kernel)
/-- A slot of the tests' layer. -/
def tSlot (position : Nat) : SlotData := { position := position, node := 0, heads := [(List.replicate 64 1, zeros 4, List.replicate 64 2, zeros 4)] }
/-- SlotsAndQueryRowsAreKept: a slot of one KV head at I4B, in a step that arrives here with a frame of its page. -/
theorem test_slot_fits : slotFits 4 1 { tSlot 15 with heads := [(List.replicate (headBytes 4) 1, List.replicate (headBytes 4) 1, zeros 4, zeros 4)] } = true := by decide +kernel
/-- The layer module with its step in flight, its frame latched, and one query row in. -/
def tRow : QueryRow :=
  { row := 0, qHead := 0, kvHead := 0, node := 0, position := 0, kvLength := 0, ancestors := 1, elems := List.replicate 128 1, scales := [127, 127, 127, 127] }
def tAttn (rows : List (StepTag × QueryRow)) : State :=
  let s := tLive tStep (tSeqs { tSeq with hostPages := false, tokens := [3] } tOn)
  { s with attn := { s.attn with latches := [{ tag := tTag 0, lists := none, kv := 0, home := [(0, 65536)], shadow := [] }], rows := rows, closed := [tTag 0], written := [(tTag 0, 0)] } }
theorem test_slots : let s := tAttn []
    let u := (s.arrive (tTag 0)).1
    (s.prickT (tTag 0)) = some tP ∧ s.layerT (tTag 0) = some (tLayer 0 0xFFFF) ∧ (s.arrive (tTag 0)).2 = true ∧ s.machineId = 0xFFFF ∧ u.ranksHeld (tLayer 0 0xFFFF) = [0] ∧
    (u.latchPages (tTag 0) 0).2 = true ∧ ((u.latchPages (tTag 0) 0).1.latchOf (tTag 0)).isSome = true ∧ s.framesFor (tTag 0) 0 = [65536] ∧
    (16 : Nat) ≠ s.machineId ∧ (u.latchOf (tTag 0)).isSome = true ∧ (u.stepOf (tTag 0)).map (·.ownsSlot (tSlot 0)) = some true ∧ s.stepOver (tTag 0) = false ∧
    (tLive { tStep with step := 3, ended := true } tOn).stepOver { tTag 0 with step := 2 } = true := by decide +kernel
theorem test_queries : let s := tAttn []
    let u := (s.arrive (tTag 0)).1
    (u.stepOf (tTag 0)).isSome = true ∧
    ((u.setStep (tTag 0) fun c => c.learn [tRow] ((addRows (tTag 0) [tRow] u.attn.rows).filter (fun x => decide (x.1 = tTag 0))).length 1 true).latchPages
      (tTag 0) 0).2 = true ∧ u.attn.slotsWait = [] ∧
    (let r : LayerRec := { tLayer 0 0xFFFF with spread := [14] }
     s.spreadIds r = [0xFFFE] ∧ (0xFFFE : Nat) ≠ s.machineId ∧ r.k = 1 ∧ s.owns r = true ∧ s.usable (tTag 0) = true) := by
  decide +kernel
/-- AttentionUnitsAndMerges: a row group whose page is here, a pipeline with a unit, the units of a group, parts and merged rows. -/
theorem test_units : let s := tAttn [(tTag 0, tRow)]
    (rowGroups 1 (s.rowsOf (tTag 0))) = [[tRow]] ∧ s.usable (tTag 0) = true ∧ tTag 0 ∈ s.attn.closed ∧
    s.latchOf (tTag 0) = some { tag := tTag 0, lists := none, kv := 0, home := [(0, 65536)], shadow := [] } ∧
    s.pagesServed (tTag 0) (tLayer 0 0xFFFF) { tag := tTag 0, lists := none, kv := 0, home := [(0, 65536)], shadow := [] } = [(0, 65536)] ∧ runCount 1 1 = 1 ∧
    s.groupCount (tTag 0) (tLayer 0 0xFFFF) = some 1 ∧ s.rowGroup (tTag 0) (tLayer 0 0xFFFF) 0 = some [tRow] ∧ s.unitTurn (tTag 0) 0 0 1 = true ∧ s.compacted (tTag 0) = true ∧
    (s.island (192 + 47)).state = 0 ∧ s.unitKnown (tTag 0) 0 0 1 = false ∧ s.slotsReady (tTag 0) 0 = true ∧ s.frameFlagged 65536 65536 = false ∧
    s.mergeHolder (tLayer 0 0xFFFF) 0 = s.machineId ∧ s.holder (tLayer 0 0xFFFF).owner = s.machineId ∧ s.ranksHeld (tLayer 0 0xFFFF) = [0] := by decide +kernel
/-- RowsAndChecksTravel: layer 1 of the motif is on another module. -/
def tSplit (s : State) : State := s.setMotif 0 { MotifEntry.init with state := 2, gen := 1, prick := some (tPrick 0xFFFF [tLayer 0 0xFFFF, tLayer 1 16]) }
theorem test_travel : let p := tPrick 0xFFFF [tLayer 0 0xFFFF, tLayer 1 16]
    let r : StepRec := { tStep with outputs := [{ layer := 0, lineage := 0, first := 0, rows := [zeros 4] }] }
    let s0 := tLive r (tSplit tOn)
    let s := { s0 with attn := { s0.attn with closed := [tTag 0] } }
    s.prickT (tTag 0) = some p ∧ (tTag 0).layer ∈ s.ownLayers p ∧ s.usable (tTag 0) = true ∧ layerOf p 1 = some (tLayer 1 16) ∧ s.owns (tLayer 1 16) = false ∧
    s.stepOf (tTag 0) = some r ∧ tStep.outputs = [] ∧ (List.replicate 1024 (0 : Fp32)).length = p.width ∧ (checkBefore r (segFirst (s.ownLayers p) 0)).isSome = true ∧
    r.checkSent.contains (0, floorAt r 0) = false ∧ toldBefore r (segFirst (s.ownLayers p) 0) = none ∧ s.layersDone r (segFirst (s.ownLayers p) 0) 0 = true ∧ s.start.safe = false := by decide +kernel
theorem test_check : let p := tPrick 0xFFFF [tLayer 0 16, tLayer 1 0xFFFF]
    let s := tLive tStep (tOn.setMotif 0 { MotifEntry.init with state := 2, gen := 1, prick := some p })
    s.prickT (tTag 0) = some p ∧ s.stepOf (tTag 0) = some tStep ∧ s.stepOver (tTag 0) = false ∧ 0 + 1 ∈ s.ownLayers p ∧ floorAt tStep 0 = (tTag 0).lineage ∧
    (tTag 0).layer ∉ s.ownLayers p ∧ s.mayEnter p (tTag 0) = true ∧ (zeros 1056).length = rowBytes p ∧ rowBad p (zeros 1056) = false ∧ (s.arrive (tTag 0)).2 = true ∧
    tStep.inputs = [] := by decide +kernel
/-- StepsAreCommitted: a tail that is not the head with both layers done, a recall without replay, a COMMIT of a prefill step. -/
def tTail : Pricking := { tPrick 16 [tLayer 0 0xFFFF, tLayer 1 0xFFFF] with tail := 0xFFFF }
theorem test_commit : let r : StepRec := { tStep with prefill := true, outputs := [{ layer := 0, lineage := 0, first := 0, rows := [zeros 4] }, { layer := 1, lineage := 0, first := 0, rows := [zeros 4] }], maxLineage := 0 }
    let s0 := tLive r (tOn.setMotif 0 { MotifEntry.init with state := 2, gen := 1, prick := some tTail })
    let s := { s0 with attn := { s0.attn with closed := [tTag 0, tTag 1] } }
    s.prickT (tTag 1) = some tTail ∧ s.stepOf (tTag 1) = some r ∧ s.tailOf tTail = true ∧ s.headOf tTail = false ∧ s.role ≠ 1 ∧ s.start.safe = false ∧
    s.turnToCommit r = true ∧ r.companion = none ∧ s.steps.actWait = [] ∧ r.gen = (tTag 1).gen ∧ r.noReplay = none ∧ s.dependsOnEnded r = false ∧
    (checkBefore r (segFirst (s.ownLayers tTail) 1)).isSome = true ∧ s.layersDone r (segFirst (s.ownLayers tTail) 1) 1 = true ∧ floorAt r 1 = r.maxLineage ∧
    s.stepOver (tTag 1) = false ∧ s.steps.live.any (s.bygone (tTag 1)) = false ∧ s.motifs.switches = [] := by decide
/-- The logits of a generation step's one node are in at the tail; one step over, a later one waits for it. -/
theorem test_verdict : let t : Tile := { tTile 0 with layer := 1 }
    let e : MotifEntry := { MotifEntry.init with state := 2, gen := 1, prick := some tTail, mirror := some { tiles := [t], vectors := [] } }
    let s0 := tLive tStep (tOn.setMotif 0 e)
    let s := { s0 with data := { s0.data with outs := [{ tag := tTag 1, matrix := 0, outputBlock := 0, row := 0, values := List.replicate 256 0 }] } }
    (s.verdict tTail tStep (tStep.tag 1 (floorAt tStep 1))).isSome = true ∧ tStep.prefill = false ∧ s.turnToCommit { tStep with step := 2 } = false := by decide +kernel
/-- A COMMIT on the head of a generation under way, with no bind and no switch waiting. -/
theorem test_commit_head : let q : Seq := { tSeq with tokens := [3], state := .generating, gen := some tGen }
    let s := tLive tStep (tSeqs q tOn)
    s.prickT (tTag 1) = some tP ∧ s.stepOf (tTag 1) = some tStep ∧ s.stepOver (tTag 1) = false ∧ s.headOf tP = true ∧ tStep.companion = none ∧ s.steps.actWait = [] ∧
    s.findSeq 0 0 = some q ∧ s.seqs.binds = [] ∧ s.take.vacatedTo = none ∧ s.motifs.switches = [] ∧
    endCondition { tGen with delivered := 1 } [4] 2 false = none := by decide
theorem test_end_none : endCondition { tGen with delivered := 1, stops := [9] } [3] 2 false = none ∧ endCondition { tGen with delivered := 1, stops := [3] } [3] 2 false = some (1, 3) ∧
    endCondition { tGen with delivered := 2 } [3] 16777216 true = some (0, 0) ∧ endCondition { tGen with delivered := 1 } [3] 16777216 true = some (0x0301, 0) ∧
    endCondition { tGen with delivered := 1 } [3] 2 true = some (2, 0) := by decide
/-- RecallsAndReplays: a step with a free attempt, a recall above the floor and one at it, a replay that has nothing to wait for. -/
theorem test_recall : let s := tLive tStep tOn
    s.stepOf (tTag 0) = some tStep ∧ s.stepOver (tTag 0) = false ∧ s.prickT (tTag 0) = none ∧ s.steps.live.any (s.bygone (tTag 0)) = false ∧ tStep.ended = false ∧ tStep.noReplay = none ∧ tStep.replay = none ∧ s.start.safe = false ∧ attemptOf tStep.maxLineage < 8 ∧ s.dependents (tTag 0) = [] ∧
    (floorAt tStep 4095).toNat < (lineageOf 1 4095).toNat ∧ (0 : Lineage).toNat ≤ (floorAt tStep 0).toNat ∧
    s.replayWaits { tStep with replay := some (0, lineageOf 1 0, { cause := 1, noReplay := false, layer := 0, array := 0xFFFF, origin := 0, time := 0 }) } 0 (lineageOf 1 0) = false := by decide

/-! ### Loading, copying and standing in -/

/-- The module with membership: it is 0, 1 is its peer and 15 the spare. -/
def tGroup (self : Nat) (s : State) : State :=
  { s with fw := { s.fw with serial := self },
           cfg := { s.cfg with read := true, cur := { s.cfg.cur with members := [⟨0, 0, 0⟩, ⟨1, 1, 0⟩, ⟨15, 15, 1⟩, ⟨16, 16, 0⟩] } } }
/-- Header and tables of a pricking of one layer and one shard of one tile. -/
def tTables (machine : Nat) : Bytes :=
  layout 192 [(0, 4, 0x4B525051), (4, 2, 1), (6, 2, 0x0810), (0x18, 4, 256), (0x1C, 2, 1024), (0x1E, 2, 1), (0x25, 1, 64), (0x26, 2, 1), (0x28, 8, 128),
    (0x30, 8, 64), (64 + 2, 2, 128), (64 + 0x0E, 1, 4), (64 + 0x10, 1, 2), (64 + 0x11, 1, 1), (64 + 0x14, 2, 1), (64 + 0x16, 1, 1), (64 + 0x17, 1, 1),
    (64 + 0x18, 4, 256), (128, 8, 4096), (136, 8, 299008), (144, 2, machine), (148, 4, 1)]
/-- LoadsBeginOnTheHead: the header is read, tables that pass, without and with a shard on another module. -/
theorem test_load : let e := tEntry 0x20 [(0x20, 8, 303104)]
    let s := tRun e .readDone (tTables 0) false (tPort (tGroup 0 tOn))
    Ready s 63 0x20 e ∧ s.loadQp = some 5 ∧ tOn.loadQp = none ∧ 64 ≤ field e 0x20 8 ∧ 64 < (tTables 0).length ∧ headerAlien (tTables 0) = none ∧
    field (tTables 0) 0x20 2 = s.machineId ∧ s.loadRefusal 63 (entryMotif e) 0 false = none ∧ tablesBad s (tTables 0) (field e 0x20 8) = none ∧
    tablesBad s (tTables 1) (field e 0x20 8) = none ∧ (∀ b ∈ s.boxes.box, activeCmd b.2 0x30 = false) ∧ s.lostForGood 0 = false ∧ s.lostForGood 1 = false ∧
    s.qpOk 5 = true ∧ s.readRoom 5 = true ∧ s.holder 0 = s.machineId ∧ s.holder 1 ≠ s.machineId := by unfold Ready; decide +kernel
/-- A replacement: the motif is the pricking of the same tables and has no second copy. -/
theorem test_load_replace : let e := tEntry 0x20 [(9, 1, 1), (0x20, 8, 303104)]
    let s := tRun e .readDone (tTables 0) false ((tPort (tGroup 0 tOn)).setMotif 0 { MotifEntry.init with state := 2, gen := 1, prick := some (readPricking (tTables 0)) })
    Ready s 63 0x20 e ∧ bit (field e 9 1) 0 = true ∧ entryMotif e = 0 ∧ s.loadRefusal 63 0 0 true = none ∧ (s.motif 0).copy = 0 ∧ (s.motif 0).prick2 = none ∧
    s.tablesRefusal 0 true (readPricking (tTables 0)) (layerTableAt (tTables 0)) = none := by unfold Ready; decide +kernel
theorem test_load_fits (p : Pricking) (at_ : Nat) : (tGroup 0 tOn).tablesRefusal 0 false p at_ = none := rfl
/-- LoadOrdersTransfersAndReports, ShardsAreVerifiedProgrammedAndCompleted: loads in their stages. -/
def tOrder (d : Bytes) : LoadOrder := { motif := 15, replace := false, regionAddr := 0, rkey := 0, regionLen := 4096, entry := { offset := 4096, length := 0, machineId := 0, tiles := 0, vectorLen := 0, digest := d } }
def tLoad : LoadState := { LoadState.start 15 false MotifEntry.init with order := some (tOrder (zeros 32)), prick := some (tPrick 0 [tLayer 0 0]), want := 64, phase := 2 }
def tLoads (l : LoadState) (s : State) : State := { s with motifs := { s.motifs with loads := [l] } }
theorem test_order : let s := tPort (tGroup 0 tOn)
    let l : LoadState := { LoadState.start 15 false (s.motif 15) with source := 1, order := some (tOrder []) }
    s.holder (tOrder []).entry.machineId = s.machineId ∧ s.loadOf 15 = none ∧ s.roomFor 0 = true ∧ s.loadQp = some 5 ∧ s.readRoom 5 = true ∧ s.doneLoad 15 = none ∧
    (tGroup 1 tOn).holder 0 ≠ (tGroup 1 tOn).machineId ∧ s.shortOfRoom l { (tOrder []).entry with length := 2 ^ 42 } = true := by decide
/-- A shard of no tiles finds room. -/
theorem test_room (l : LoadState) (hl : l.stale = false) : (tPort (tGroup 0 tOn)).shortOfRoom l (tOrder []).entry = false := by
  unfold State.shortOfRoom
  have h : (tPort (tGroup 0 tOn)).roomFor (tOrder []).entry.length = true := by decide
  have z : ∀ n : Nat, decide (n < (tOrder []).entry.tiles) = false := fun n => decide_eq_false (Nat.not_lt_zero n)
  simp only [hl, Bool.false_eq_true, if_false]
  rw [h, z]
  simp
theorem test_transfers : let s := tRun (tEntry 0x23 []) .writing [] true tOn
    (s.box 63).cur = some (tCmd (tEntry 0x23 []) .writing [] true) ∧ Ready s 63 (entryOp (tEntry 0x23 [])) (tEntry 0x23 []) ∧
    (tLoads tLoad tOn).loadOf 15 = some tLoad ∧ tLoad.want ≠ 0 ∧ tLoad.fetchDone = false ∧ tLoad.phase = 2 ∧ tLoad.waits = none ∧ ({ tLoad with via := 5 }).via = 5 ∧
    (tPort tOn).qpOk 5 = true ∧ ({ tCmd (tEntry 0x23 []) .writing [] true with via := 5 }).via = 5 := by unfold Ready; decide +kernel
theorem test_reports : let p : Pricking := { tPrick 0 [tLayer 0 0] with shards := [(tOrder (zeros 32)).entry] }
    let l : LoadState := { tLoad with mailbox := some 63, prick := some p }
    let s := tRun (tEntry 0x20 [(8, 1, 15)]) .none [] true (tLoads l tOn)
    s.loadOf 15 = some l ∧ l.mailbox = some 63 ∧ l.prick = some p ∧ (∃ x ∈ p.shards, s.holder x.machineId = 0) ∧ (∀ b ∈ s.boxes.box, activeCmd b.2 0x30 = false) ∧ Ready s 63 0x20 (tEntry 0x20 [(8, 1, 15)]) ∧
    entryMotif (tEntry 0x20 [(8, 1, 15)]) = 15 ∧ l.replace = false := by
  refine ⟨?_, rfl, rfl, ⟨_, List.mem_singleton.2 rfl, ?_⟩, ?_, ?_, ?_, rfl⟩
  · decide +kernel
  · decide +kernel
  · decide +kernel
  · unfold Ready; decide +kernel
  · decide +kernel
theorem test_shard : (∀ d, (tOrder d).entry.digest = d) ∧ tilesBad (tPrick 0 [tLayer 0 0]) [] 0 = none ∧
    tLoad.shard = none ∧ tLoad.replace = false ∧ tLoad.stale = false ∧ tLoad.mailbox = none ∧ (readShard [] 0).tiles = [] ∧ tOn.unowned 32767 = true :=
  ⟨fun _ => rfl, by decide, rfl, rfl, rfl, rfl, by decide +kernel, by decide⟩
/-- A shard that differs: the digest of nothing begins with 46 B9 DD 2B (SHAKE256 of the empty message, FIPS 202). -/
theorem test_shard_differs : shake256 4 [] = [0x46, 0xB9, 0xDD, 0x2B] := by decide +kernel
/-- CRC-32C of the nine digits is E3069283 (its standard check value). -/
theorem test_crc : crc32c [0x31, 0x32, 0x33, 0x34, 0x35, 0x36, 0x37, 0x38, 0x39] = 0xE3069283 := by decide +kernel
theorem test_round : let l : LoadState := { tLoad with toProgram := [32767] }
    (tLoads l tOn).motifs.loads.find? (fun x => decide (x.motif = 15 ∧ x.toProgram ≠ [])) = some l ∧ tOn.workOf 32767 = some 33023 ∧ (32767 : Nat) ∉ ([] : List Nat) := by
  decide +kernel
theorem test_complete : let l : LoadState := { tLoad with order := none }
    let m : LoadState := { l with mailbox := some 63 }
    (tLoads l tOn).loadWhole l = true ∧ (tLoads m tOn).loadWhole m = true ∧ l.mailbox = none := by decide +kernel
theorem test_spare : ((tOn.setArray 32767 { ArrayState.init with spare := some 16384 }).array 32767).spare = some 16384 ∧
    (tOn.setArray 32767 { ArrayState.init with spare := some 16384 }).awaitsMirror 32767 = false := by decide
/-- An array whose programming fails has a spare to take its place, or none. -/
theorem test_round_failed : failedRow [{ array := 32767, row := 1023 }] 32767 = some 1023 ∧ failedRow [] 32767 = none ∧ (tOn.chooseSpare 33023).isSome = true ∧ tLoad.stale = false := by decide +kernel
/-- MotifsAreSwitchedDroppedAndQueried: a motif with a second copy ready, with the old copy still there, free to drop, in use. -/
def tCopy : State := let t := tMotif tOn; t.setMotif 0 { t.motif 0 with copy := 2, prick2 := some tP }
theorem test_switch : let e := tEntry 0x21 []
    let s := tRun e .none [] false tCopy
    Ready s 63 0x21 e ∧ begunOn s 63 = false ∧ s.prickNow (entryMotif e) = some tP ∧ (s.motif (entryMotif e)).state ≠ 0 ∧ s.headOf tP = true ∧ (∀ x ∈ tP.shards, s.lostForGood x.machineId = false) ∧
    (s.motif 0).copy = 2 ∧ (s.motif 0).prick2 = some tP ∧ 2 = ((s.motif 0).gen + 1).toNat ∧ ((tMotif tOn).motif 0).copy = 0 := by unfold Ready; decide
theorem test_release : let t := tCopy.setMotif 0 { tCopy.motif 0 with copy := 0, gen := 2 }
    t.role ≠ 1 ∧ (t.motif 0).copy = 0 ∧ (t.motif 0).prick2.isSome = true ∧ t.stepsOfGen 0 (t.motif 0).gen2 = 0 ∧ (tLive tStep t).stepsOfGen 0 (t.motif 0).gen2 ≠ 0 ∧
    (t.motif 0).mirror = none := by decide
/-- A switch that other modules hear of, a switch command that the old copy's release completes, and the arrays that it frees. -/
theorem test_switch_others : let s := tGroup 0 tOn
    s.holder (movedNow s.take.moves 1) ≠ s.machineId ∧
    (let w : SwitchState := { motif := 0, mailbox := 63, oldGen := 1, target := 0 }
     let t := { tCopy with motifs := { tCopy.motifs with switches := [w] } }
     t.motifs.switches.find? (fun w => w.motif = 0) = some w ∧ Ready (tRun (tEntry 0x21 []) .none [] true t) 63 0x21 (tEntry 0x21 [])) ∧
    (tOn.workOf 32767).isSome = true := by unfold Ready; decide
theorem test_drop : let e := tEntry 0x22 []
    let s := tRun e .none [] false (tMotif tOn)
    Ready s 63 0x22 e ∧ s.prickNow (entryMotif e) = some tP ∧ tOn.prickNow 0 = none ∧ s.headOf tP = true ∧ s.headOf (tPrick 16 []) = false ∧ s.loadConsumed 0 = false ∧ (s.motif 0).state ≠ 1 ∧
    (s.motif 0).state = 2 ∧ s.loadConsumed 0 = false ∧ (s.motif 0).copy ≠ 1 ∧ s.usersOf 0 = 0 ∧ (s.motif 0).oldCopy = false ∧ 0 < (tSeqs tSeq tOn).usersOf 0 := by unfold Ready; decide
theorem test_query : let e := tEntry 0x23 [(0x1C, 4, 128)]
    let s := tRun e .none [] false (tPort (tMotif tOn))
    Ready s 63 0x23 e ∧ (s.box 63).cur = some (tCmd e .none [] false) ∧ (motifRecord s 0).length ≤ bufLen e ∧ s.qpOk 5 = true ∧
    bufLen (tEntry 0x23 [(0x1C, 4, 1)]) < (motifRecord s 0).length := by unfold Ready; decide +kernel
/-- MirrorsAndPagesAreCopied: a shard that arrives in part and whole, a motif that has lost its mirror, a page copied to the frame of its page. -/
def tRestore : State :=
  let t := (tGroup 0 tOn)
  t.setMotif 0 { MotifEntry.init with state := 2, mirrorState := 1, prick := some { tPrick 0 [tLayer 0 0] with shards := [{ (tOrder (zeros 32)).entry with length := 2 }] } }
theorem test_restore : (tRestore.motif 0).mirrorState = 1 ∧ ((tRestore.motif 0).prickFor 0).isSome = true ∧ (tRestore.copyTarget 15 0 0).map (·.length) = some 2 ∧ (tRestore.motif 0).mirror = none ∧ (tRestore.motif 0).state = 2 ∧
    tRestore.role ≠ 1 ∧ tRestore.spareId = some 15 ∧ (0 : Nat) = (tRestore.motif 0).gen.toNat ∧ ({ tRestore.motif 0 with mirrorState := 0 } : MotifEntry).mirrorState ≠ 2 := by decide +kernel
theorem test_page : let s := tSeqs { tSeq with hostPages := false, tokens := [3] } tOn
    let s1 := { s with seqs := { s.seqs with frames := [{ motif := 0, seq := 0, companion := none, layer := 0, page := 0, home := true, frame := 1 }] } }
    let r := tLayer 0 0xFFFF
    s1.role ≠ 1 ∧ (s1.motif 0).prick = some tP ∧ layerOf tP 0 = some r ∧ s1.copyRank (s1.motif 0) r = some 0 ∧ [1, 2, (3 : Byte)].length ≤ pagePayload (kvBits tP) r.kvHeads ∧
    pagePayload (kvBits tP) r.kvHeads ≤ frameSize tP ∧ s1.take.refetch = [] ∧ (s1.motif 0).gen.toNat = 1 ∧ s1.copyCompanion 0 0 = none ∧
    (s1.copyFrame { tTag 0 with step := 0 } tP r.k (pageAt r.k 0 0 true) true).map (·.2) = some 65536 ∧ crc32c [1, 2, 3] ≠ 0 := by decide +kernel
/-- RolesMoveAndReturn: the spare, the vacated module, other members. -/
theorem test_roles : (tGroup 15 tOn).role = 1 ∧ (tGroup 0 tOn).role = 0 ∧ (tGroup 0 tOn).machineId = 0 ∧ (tGroup 0 tOn).take.mailbox = none ∧
    (tGroup 0 tOn).take.vacatedTo ≠ some 15 ∧ (tGroup 0 tOn).seqs.open_ = [] ∧ groupOf 16 ≠ groupOf (tGroup 0 tOn).machineId ∧ (16 : Nat) ∉ (tGroup 0 tOn).fabric.missing ∧
    (tGroup 0 tOn).boxes.box = [] ∧ (let s := tGroup 0 tOn; ({ s with fabric := { s.fabric with missing := [1] } } : State).holder 1 ≠ 15) := by decide
/-- A reason that is not that of a module lost. -/
theorem test_role_reason : roleReason 1 + 1 ≠ roleReason 1 := by omega
theorem test_unplanned : let s0 := tGroup 15 tOn
    let s := { s0 with fabric := { s0.fabric with missing := [1] } }
    s.role = 1 ∧ 1 ∈ s.fabric.missing ∧ 1 ∈ s.groupPeers ∧ s.take.spareServes = none ∧ s.take.spareOut = false ∧ s.start.powerGood = true ∧ s.start.safe = false ∧ s.inFlight = [] := by decide
theorem test_takeover : let e := tEntry 0x70 []
    let spare : Bride := { Bride.init with state := 5, partnerId := 15 }
    let s := tRun e .none [] false ((tGroup 0 tOn).setBride 31 spare)
    Ready s 63 0x70 e ∧ begunOn s 63 = false ∧ s.role ≠ 1 ∧ s.take.vacatedTo = none ∧ s.take.mailbox = none ∧ s.spareReady = true ∧ (tGroup 0 tOn).spareReady = false ∧
    Ready (tRun e .none [] false (tGroup 15 tOn)) 63 0x70 e ∧ begunOn (tRun e .none [] true s) 63 = true ∧ s.inFlight = [] ∧
    ({ s with take := { s.take with progress := 2 } } : State).take.progress = 2 := by unfold Ready; decide
theorem test_handback : let e := tEntry 0x71 []
    let s := tRun e .none [] true (tGroup 0 tOn)
    Ready s 63 0x71 e ∧ s.take.spareOut = false ∧ begunOn s 63 = true ∧ (s.box 63).progress = 0 ∧ s.mirrorsPresent = true ∧ s.start.safe = false ∧
    ({ s with take := { s.take with vacatedTo := some 15 } } : State).take.vacatedTo ≠ none ∧ s.take.backBox = none ∧ s.take.vacatedTo = none ∧ s.arraysRight = true ∧
    (tLoads { tLoad with toProgram := [32767] } s).arraysRight = false ∧ (∃ l ∈ (tLoads { tLoad with toProgram := [32767] } s).motifs.loads, l.toProgram ≠ []) ∧
    begunOn (tRun e .none [] false (tGroup 0 tOn)) 63 = false := by unfold Ready; decide
/-- HeartbeatsTellALoss: brides that run, a peer heard 30 µs ago to the tick, a type that is defined and one that is not. -/
theorem test_heartbeats : let s0 := tGroup 0 tOn
    let s := { s0 with fabric := { s0.fabric with heard := [(1, 0)], route := [(1, { Route.init with kind := 1 })] }, time := { s0.time with t16 := 30000 * 65536 } }
    s.bridesRun = true ∧ 1 ∈ s.groupPeers ∧ (16 : Nat) ∉ s.groupPeers ∧ s.role ≠ 1 ∧ s.fabric.heard.find? (fun h => h.1 = 1) = some (1, 0) ∧ (1 : Nat) ∉ s.fabric.missing ∧
    s.noRouteTo 1 = false ∧ (1, 0).2 + 30000 ≤ s.now ∧ s.take.spareServes = none ∧ definedType 1 = true ∧ definedType 0 = false ∧
    (s.log.recent.all fun r => r.1 != (4, 17, kBride * 2 ^ 24 + 31)) = true ∧ State.reset.bridesRun = false ∧ s.seqs.open_ = [] ∧ s.motifs.loads = [] ∧ s.motifs.switches = [] ∧ s.take.syncDue = [] := by decide
/-- A spare that has given its roles back and has no step left. -/
theorem test_spare_ends : let s0 := tGroup 15 tOn
    let s := { s0 with take := { s0.take with spareServes := some 1, progress := 3 } }
    s.bridesRun = true ∧ s.role = 1 ∧ s.take.spareServes ≠ none ∧ s.take.progress = 3 ∧ s.inFlight = [] := by decide

/-! ### Calibration, repair and memory -/

/-- The state at a module time. -/
def tAt (ns : Nat) (s : State) : State := { s with time := { s.time with t16 := ns * 65536 } }
/-- CalibrationCommands: freeze, thaw, a freeze at its end, a host set for a FREE array. -/
theorem test_freeze : let e := tEntry 0x40 [(8, 1, 1)]
    Ready (tRun e .none [] false tOn) 63 0x40 e ∧ field e 8 1 = 1 ∧ Ready (tRun (tEntry 0x40 []) .none [] false tOn) 63 0x40 (tEntry 0x40 []) ∧ field (tEntry 0x40 []) 8 1 = 0 ∧
    ({ tAt 9 tOn with arrays := { tOn.arrays with freezeUntil := some 9 } } : State).now = 9 := by unfold Ready; decide
theorem test_cal_commit : let e := tEntry 0x41 [(0x10, 4, 32767), (0x14, 4, 1)]
    let s := tRun e .none [] false tOn
    Ready s 63 0x41 e ∧ begunOn s 63 = false ∧ namedArrays e = [32767] ∧ s.physOf 32767 = 33023 ∧ (s.array 32767).service = .free ∧ (s.array 32767).hostSet = none := by
  unfold Ready; decide
/-- CalibrationWindows: an ended column window, windows of warm-up and confirmation, a shadow set at a batch boundary and in a freeze. -/
theorem test_cal_windows : let p : PhysArray := { PhysArray.init with calState := 3, shadow := some CoefSet.default, stats := { Stats.init with count := [(575, windowColumn)], hist := [(128, 4194304)] } }
    let s := (tAt 250000000 tOn).setPhys 33279 p
    (s.phys 33279) = p ∧ endedColumns p.stats ≠ [] ∧ 4194304 ≤ histTotal p.stats ∧ p.windowStart + 250000000 ≤ s.now ∧ s.mayStage 33279 = true ∧ s.batchBoundary 33279 = true ∧
    p.shadowHost = false ∧ s.arrays.freezeUntil = none ∧ ({ s with arrays := { s.arrays with freezeUntil := some 9 } } : State).mayStage 33279 = false := by decide +kernel
/-- Array 0 with its column 600 mod 576 counted: its codes sum to nothing, in band, or to ten a conversion, out of band (R162). -/
def tCal (state sum : Nat) : State :=
  let s := tAt 250000000 (tArray tOn)
  s.setPhys 0 { s.phys 0 with calState := state, needed := 2, windows := 24, streak := 0,
                              stats := { Stats.init with vectors := 262144, count := [(24, windowColumn)], sum := [(24, sum)] } }
theorem test_cal_bands : (warmResids (tCal 2 0) 0).any (·.out) = false ∧ (warmResids (tCal 2 (10 * windowColumn)) 0).any (·.out) = true ∧ endedColumns ((tCal 3 0).phys 0).stats = [24] ∧
    (columnResids (tCal 3 0) 0 24).any (·.out) = false ∧ (columnResids (tCal 3 (10 * windowColumn)) 0 24).any (·.out) = true ∧
    histTotal ((tCal 3 0).phys 0).stats < 4194304 ∧ (tCal 3 0).mayStage 0 = true := by decide +kernel
/-- A streak of four in-band windows is met by a streak of three and one more; a confirmation of two ends on the second window. -/
theorem test_cal_streak : ({ (tCal 1 0).phys 0 with streak := 3, windows := 89 }).streak + 1 = 4 ∧ ((tCal 2 0).phys 0).needed = 2 ∧
    ((tCal 2 0).phys 0).streak + 1 < 2 ∧ 2 ≤ ({ (tCal 2 0).phys 0 with streak := 1 }).streak + 1 := by decide +kernel
/-- A tracking array in use, every column's window 0.25 s old, and one whose windows have just begun. -/
theorem test_top_up : (tCal 3 0).physInUse 0 = true ∧ (tCal 3 0).now = 250000000 ∧ ((tCal 3 0).phys 0).stats.start = [] ∧ ((tCal 3 0).phys 0).windowStart = 0 ∧
    (tArray tOn).now < ((tArray tOn).phys 0).windowStart + 250000000 := by decide +kernel
theorem test_warmup : let p : PhysArray := { PhysArray.init with calState := 1, stats := { Stats.init with vectors := 262144 }, windows := 89 }
    262144 ≤ p.stats.vectors ∧ ¬ p.windows + 1 < 90 ∧ 90 ≤ p.windows + 1 ∧ ({ p with windows := 88 }).windows + 1 < 90 ∧ 256 ≤ ({ p with windows := 255 }).windows + 1 := by decide
/-- RefreshAndMargin: a due array in service and drained, a hot moment, a window due on island 0 and one that has run its 10 ms. -/
theorem test_refresh : let s := ((tAt 2592000000000000 tOn).setArray 32767 { ArrayState.init with due := some (1, 0), outForService := true }).setPhys 33023 { PhysArray.init with calState := 3 }
    let h := { s with thermal := { s.thermal with powerW := 900 } }
    (s.array 32767).due = some (1, 0) ∧ s.workOf 32767 = some 33023 ∧ s.refreshable 32767 = true ∧ s.turnOf (1, 0, 32767) = true ∧ (s.phys 33023).calState = 3 ∧ (s.array 32767).outs = [] ∧
    s.hot = false ∧ h.hot = true ∧ h.runDue 32767 = true ∧ s.start.safe = false ∧ s.marginRoom = true ∧ h.marginRoom = true ∧ (s.array 32767).hostSet = none := by decide
theorem test_refresh_serving : ({ ArrayState.init with due := some (1, 0), service := .serving, outs := [zeroOut tVec 0] } : ArrayState).outs ≠ [] := by simp
theorem test_margin : tOn.bobbinRuns = true ∧ tOn.start.safe = false ∧ tOn.windowNow = some 0 ∧ (∀ k, k < 252 → (tOn.island k).state ≠ 1) ∧ tOn.windowBarred 0 = false ∧
    ({ tOn with thermal := { tOn.thermal with level := 1 } } : State).windowBarred 0 = true ∧ tOn.islands.due ≤ tOn.now := by decide +kernel
theorem test_margin_room : ({ tOn with arrays := { tOn.arrays with dutyUsed := 2 ^ 40 } } : State).marginRoom = false := by decide
theorem test_margin_end : let s := (tAt 10000000 tOn).setIsland 251 { Island.init with state := 1 }
    (s.island 251).state = 1 ∧ s.islands.opened + 10000000 ≤ s.now ∧ (s.island 251).retire = none ∧ tOn.now < tOn.islands.opened + 10000000 := by decide
/-- RetirementOfUnits: an array with a retirement due, drained and serving; an island; stacks' and units' minimum. -/
theorem test_retire : let s := tOn.setArray 32767 { ArrayState.init with retire := some 7 }
    (s.array 32767).retire = some 7 ∧ (s.array 32767).outs = [] ∧ s.workOf 32767 = some 33023 ∧ ((tOn.setIsland 251 { Island.init with retire := some 3 }).island 251).retire = some 3 ∧
    (tOn.degradedLeft kArray).1 = false := by decide
theorem test_degraded : let s := (List.range 4).foldl (fun u i => u.setIsland (240 + i) { Island.init with state := 2 }) tOn
    (s.degradedLeft kTambour).1 = true ∧ kTambour ∉ s.islands.degraded ∧ s.spareReady = false := by decide
/-- AuditsAreJudged: a selected audit at the end of its millisecond; a unit with two peers. -/
theorem test_audit : let sel : AuditSel := { key := tKey, at_ := 0, rows := none, outs := [], parts := [], wides := [(0, [])], tambour := [], unit := none }
    let s0 := tAt 1000000 (tArray tOn)
    let s := { s0 with data := { s0.data with audits := [sel] } }
    s.data.audits.find? (fun a => a.key = tKey) = some sel ∧ (s.layerT tKey.tag).isSome = true ∧ s.auditReady sel = true ∧ s.auditBefore sel = false ∧ s.now ≤ sel.at_ + 1000000 ∧ sel.at_ + 1000000 ≤ s.now ∧
    s.data.tambourWait = [] ∧ tOn.now < sel.at_ + 1000000 ∧
    auditArrays (tLayer 0 0xFFFF) ((s.blockTiles tKey).filter fun x => x.chain = tKey.chain) sel = [] ∧ auditNodes sel = [] ∧
    auditEnd (tLayer 0 0xFFFF) ((s.blockTiles tKey).filter fun x => x.chain = tKey.chain) sel = [] := by decide +kernel
theorem test_unit_audit : let a : UnitAudit := { tag := tTag 0, island := 239, layers := [0], work := (0, 0), seen := 1 }
    let s := { tOn with data := { tOn.data with unitAudits := [a] } }
    (s.data.unitAudits.any fun a => a.names (tTag 0) 239) = true ∧ (s.data.unitAudits.any fun a => a.names (tTag 1) 239) = false ∧ s.unitBusy 192 = false := by decide
theorem test_peers : (tOn.peersOf 239).take 2 = [192, 193] ∧ (tOn.island 239).state = 0 ∧ tOn.stepCommitted (tTag 0) = true ∧ ([1] : Bytes) ≠ [2] := by decide
/-- MemoryIsCaredFor: the last block of the window, a word of zeros that reads clean, a region with a flagged block. -/
theorem test_memory : let a := Config.memorySize - 64
    a < Config.memorySize ∧ a % 64 = 0 ∧ stackOf a = 7 ∧ (List.replicate 68 (0 : Byte)).length = 68 ∧ a / 64 ∉ tOn.mem.flagged ∧
    badOf { tOn.mem with flagged := [0] } 0 0 ≠ [] ∧ reserveLeft tOn.mem 0 ≠ 0 ∧ badOf tOn.mem 0 0 = [] ∧ (0, 0) ∉ tOn.mem.worn ∧
    a / 64 ∈ ({ tOn.mem with flagged := [a / 64] } : Memory).flagged ∧ triedOf tOn.mem (a / 64) = 0 ∧ sourcesOf 1 = 1 ∧ tOn.take.unsent = [] ∧
    (tAt 21600000000000 tOn).now = tOn.mem.scrubbed + 21600000000000 ∧ tOn.now < tOn.mem.scrubbed + 21600000000000 := by decide +kernel
theorem test_rebuild : (zeros 64).length = 64 ∧ crc32c (zeros 64) ≠ crc32c (1 :: zeros 63) := by decide +kernel
/-- A stack whose 16,384 reserve regions are used up. -/
theorem test_reserve : reserveLeft { tOn.mem with retired := (List.range 16384).map fun r => (0, r + 1) } 0 = 0 ∧
    (0, 0) ∉ (List.range 16384).map fun r => ((0 : Nat), r + 1) := by
  refine ⟨?_, fun h => ?_⟩
  · have e : ((List.range 16384).map fun r => ((0 : Nat), r + 1)).filter (fun r => decide (r.1 = 0)) = (List.range 16384).map fun r => ((0 : Nat), r + 1) :=
      List.filter_eq_self.2 fun a h => by obtain ⟨r, -, rfl⟩ := List.mem_map.1 h; rfl
    unfold reserveLeft
    simp only [e, List.length_map, List.length_range]
    rfl
  · obtain ⟨r, -, e⟩ := List.mem_map.1 h
    exact absurd (congrArg Prod.snd e) (by simp)
/-- A word with its own check symbols and CRC reads as written; with one symbol wrong it is corrected (R373). -/
theorem test_ecc : let w := eccWrite 64 (List.replicate 64 7)
    eccRead 64 w.1 w.2 = some (List.replicate 64 7, 0) ∧ eccRead 64 (9 :: w.1.drop 1) w.2 = some (List.replicate 64 7, 1) ∧
    eccRead 0 w.1 w.2 = none := by decide +kernel

/-! ### Brides and routes -/

/-- The module 0 with a bride to module 1 that carries traffic. -/
def tBride (b : Bride) : State := (tGroup 0 tOn).setBride 31 { b with partnerId := 1, partnerBride := 30 }
/-- BridesCarryFlits: the first message flit with its CRC, and one that is not whole. -/
def tFlitHead : Bytes := [0, 0, 0, 0, 1] ++ zeros 499
theorem tFlitHead_length : tFlitHead.length = 504 := by decide +kernel
theorem ofLE_le8 (n : Nat) (h : n < 2 ^ 64) : ofLE (leBytes 8 n) = n := by
  simp only [leBytes, ofLE, BitVec.toNat_ofNat]
  omega
/-- 504 bytes and their CRC make a clean flit (R307). -/
theorem flitClean_append (p : Bytes) (h : p.length = 504) : flitClean (p ++ leBytes 8 (crc64 p).toNat) = true := by
  have h1 : (p ++ leBytes 8 (crc64 p).toNat).take 504 = p := by rw [← h, List.take_left]
  have h2 : (p ++ leBytes 8 (crc64 p).toNat).drop 504 = leBytes 8 (crc64 p).toNat := by rw [← h, List.drop_left]
  have h3 : (leBytes 8 (crc64 p).toNat).take 8 = leBytes 8 (crc64 p).toNat := List.take_of_length_le (by simp [leBytes])
  unfold flitClean field
  rw [h1, h2, h3, ofLE_le8 _ (crc64 p).isLt, List.length_append, h]
  simp [leBytes]
theorem test_flit : flitClean (tFlitHead ++ leBytes 8 (crc64 tFlitHead).toNat) = true ∧ field tFlitHead 4 1 = 1 ∧ field tFlitHead 0 2 = 0 ∧ flitClean [] = false :=
  ⟨flitClean_append _ tFlitHead_length, rfl, rfl, by decide⟩
/-- A message flit that begins and ends a message whose number is not 0. -/
def tFlitWhole : Bytes := [0, 0, 0, 0, 1, 3, 0, 0, 7] ++ zeros 495
theorem test_flit_whole : flitClean (tFlitWhole ++ leBytes 8 (crc64 tFlitWhole).toNat) = true ∧ field tFlitWhole 4 1 = 1 ∧ field tFlitWhole 0 2 = 0 ∧
    bit (field tFlitWhole 5 1) 0 = true ∧ bit (field tFlitWhole 5 1) 1 = true ∧ field tFlitWhole 8 4 ≠ 0 ∧ (Bride.init).unsent = 0 ∧
    Bride.init.fecSecond = false ∧ ({ Bride.init with fecSecond := true, fecFailed := true }).fecFailed = true ∧ ({ lane := 7, lost := false, uncorrectable := 1, codewords := 9999 } : LaneFault).codewords < 10000 :=
  ⟨flitClean_append _ (by decide +kernel), rfl, rfl, rfl, rfl, by decide, rfl, rfl, rfl, by decide⟩
theorem test_bride : let s := tBride { Bride.init with state := 5, lanes := 0xFF, sendSeq := 4, unacked := 4 }
    s.bridesRun = true ∧ (s.bride 31).state = 5 ∧ (s.bride 31).expect.toNat = 0 ∧ ((s.bride 31).sendSeq - 0).toNat ≤ (s.bride 31).unacked ∧ ((s.bride 31).sendSeq - 4).toNat = 0 ∧
    (s.bride 31).unacked < ((s.bride 31).sendSeq - 0xFFFF).toNat ∧ (s.bride 31).carries = true ∧ (s.bride 31).sameReplays < 16 ∧ (s.bride 31).recentReplays = [] ∧
    bit (s.bride 31).lanes.toNat 7 = true ∧ goodHalf 0x80 = some 0x0F ∧ goodHalf 0x88 = none ∧ bit (0x0F : BitVec 8).toNat 7 = false := by decide
theorem test_bride_down : ((tBride { Bride.init with state := 5, sameReplays := 16 }).bride 31).carries = true := by decide
/-- RoutesSwitchAndAreAnnounced: a bride that has gone down, one whose notice is 30 µs late, notices of others and of the partner. -/
theorem test_routes : let s := tBride { Bride.init with state := 7, switchDue := true, noticeWait := some 0, queued := [{ number := 2, after := 0, msg := { source := 0, dest := 1, last := true, relay := false, tag := none, body := .heartbeat 0 } }] }
    let t := tAt 30000 s
    (t.bride 31).switchDue = true ∧ (t.bride 31).noticed = none ∧ (t.bride 31).noticeWait = some 0 ∧ 0 + 30000 ≤ t.now ∧ (t.bride 31).partnerId ∈ t.groupPeers ∧
    t.take.spareServes = none ∧ t.isMember 1 = true ∧ t.isMember 2 = false ∧ (1 : Nat) ≠ t.machineId ∧ groupOf 1 = groupOf t.machineId ∧ groupOf t.machineId = 0 ∧ (255 : Nat) ≠ 0 ∧
    t.bridesRun = true ∧ (1 : Nat) ∈ t.groupPeers ∧ (2 : Nat) ∉ t.groupPeers ∧ t.seqs.open_ = [] ∧ t.motifs.loads = [] ∧ t.motifs.switches = [] ∧
    (t.bride 31).partnerId = 1 ∧ (t.bride 31).noticeWait.isSome = true ∧ (t.bride 30).noticeWait = none ∧ (t.bride 30).switchDue = false := by decide
/-- The link of slot 0 to group 1, on bride 15. -/
def tLinks : State :=
  let s := tGroup 0 tOn
  { s with cfg := { s.cfg with cur := { s.cfg.cur with groups := 2, links := (List.range 512).map fun i => if i = 0 then LinkEntry.mk true 1 0 else default } } }
/-- A group joined by this module's own link, which goes on to the far end of it. -/
theorem test_group_links : (tGroup 0 tOn).isMember 16 = true ∧ groupOf 16 = 1 ∧ tOn.isMember 16 = false ∧ (1 : Nat) ∈ (tGroup 0 tOn).groupPeers ∧
    ({ tGroup 0 tOn with cfg := { (tGroup 0 tOn).cfg with cur := { (tGroup 0 tOn).cfg.cur with members := [⟨0, 0, 0⟩, ⟨16, 16, 0⟩, ⟨31, 31, 1⟩] } } } : State).spareSpent 1 = false := by decide
theorem test_links_send : let s := tLinks.setBride 15 { Bride.init with state := 5, partnerId := 16, partnerBride := 15, member := true }
    s.bridesRun = true ∧ 1 ∈ s.ownJoined ∧ (s.linksTo 1).head?.map (fun l => decide (l.1 = slotOf s.machineId)) = some true := by decide +kernel
/-- BridesTrainAndAreClassed: a bride in training, one in HOLD, one to train again, a changed one. -/
theorem test_training : let s := tBride { Bride.init with state := 2 }
    let r : TrainRec := { (default : TrainRec) with serial := 1, machineId := 1, bride := 30, machineTag := 0, lanes := 0xFF, topoVersion := 0 }
    s.bridesRun = true ∧ (s.bride 31).state = 2 ∧ s.memberRecord r = true ∧ s.memberRecord { r with serial := 2 } = false ∧ r.topoVersion = s.cfg.cur.topoVersion ∧ r.lanes = 0xFF ∧ trainedLanes 0 = 0 ∧
    ({ r with topoVersion := 1 } : TrainRec).topoVersion ≠ s.cfg.cur.topoVersion ∧ s.memberRecord { r with topoVersion := 1 } = true ∧
    readTrain (trainBytes r) = some r ∧ readTrain (zeros 64) = none := by decide +kernel
theorem test_retry : let s0 := tAt 100000000 (tBride { Bride.init with state := 1 })
    let s := { s0 with fabric := { s0.fabric with light := [(7, { state := 3, low := 0, since := 0 })] }, cfg := { s0.cfg with cur := { s0.cfg.cur with cables := [(0, List.replicate 32 (CableEntry.mk 1 30 1 0))] } } }
    s.bridesRun = true ∧ s.mayRetry 31 = true ∧ s.unusedBride 31 = false ∧ (Tab.get Light.init s.fabric.light (31 / 4)).state = 3 ∧ (Tab.get Light.init s.fabric.light (31 / 4)).since + 100000000 ≤ s.now ∧ (tBride { Bride.init with state := 5 }).mayRetry 31 = false := by decide
theorem test_hold : let x : Bride := { Bride.init with state := 3, partnerTopo := 9, reshaping := true }
    let s := tAt 10000000000 (tBride x)
    (s.bride 31).state = 3 ∧ (s.bride 31).partnerTopo ≠ s.cfg.cur.topoVersion ∧ (s.bride 31).holdRecord = none ∧ (s.bride 31).stateTime + 10000000000 ≤ s.now ∧
    (s.bride 31).unacked = 0 ∧ (s.bride 31).unsent = 0 ∧ (s.bride 31).reshaping = true ∧ (s.bride 31).carries = false ∧ (s.bride 31).trained = true ∧ (tBride x).now < 0 + 10000000000 := by decide
theorem test_missing : let s0 := tBride { Bride.init with state := 3 }
    let s1 := s0.setBride 0 { Bride.init with reshaping := true }
    let s := tAt 10000000000 { s1 with cfg := { s1.cfg with cur := { s1.cfg.cur with cables := [(0, [⟨1, 3, 1, 10⟩])] } }, fabric := { s1.fabric with reshape := some 0 } }
    (s.bride 0).reshaping = true ∧ s.fabric.reshape = some 0 ∧ 0 + 10000000000 ≤ s.now ∧ (s.bride 0).trained = false ∧ (s.expected 0).isSome = true := by decide
/-- LightSupplyInputs: an input that turns GOOD, LOW, ABSENT, and one that has been GOOD for 100 ms. -/
theorem test_light : let s := tAt 100000000 { tOn with fabric := { tOn.fabric with light := [(7, { state := 3, low := 0, since := 0 })] } }
    s.start.powerGood = true ∧ 3 ≤ s.start.stage ∧ lightState true 0 = (Tab.get Light.init s.fabric.light 7).state ∧ (0 : BitVec 8) = (Tab.get Light.init s.fabric.light 7).low ∧
    lightState true 0 ≠ (Tab.get Light.init s.fabric.light 8).state ∧ lightState true 0xFF < 2 ∧ lightState false 0 < 2 ∧ s.bridesRun = true ∧
    (Tab.get Light.init s.fabric.light 7).since + 100000000 ≤ s.now := by decide

/-! ### Time -/

/-- TimeIsSteered: an exchange on the bride of the source, a millisecond with an offset, the one step, a slew begun and ended. -/
theorem test_timing : let s0 := tBride { Bride.init with state := 5 }
    let s := { s0 with time := { s0.time with source := some 1, groupRef := some 1 } }
    (s.bride 31).carries = true ∧ s.time.source = some (s.bride 31).partnerId ∧ s.time.groupRef = some 1 ∧ (s.bride 30).carries = false ∧ (s.bride 31).fecSecond = false ∧ (s.bride 31).unsent = 0 := by decide
/-- A timing flit from module 1 that echoes this module's last one. -/
def tTiming : Bytes := [0, 0, 255, 255, 3] ++ zeros 11 ++ leBytes 8 9 ++ leBytes 8 5 ++ leBytes 8 7 ++ [2, 1, 1, 0] ++ zeros 460
theorem test_timing_flit : flitClean (tTiming ++ leBytes 8 (crc64 tTiming).toNat) = true ∧ field tTiming 4 1 = 3 ∧ (readTiming tTiming).txPrev = 5 ∧ (readTiming tTiming).rxPrev = 7 ∧
    (readTiming tTiming).refId = 1 ∧ ((0 : BitVec 16) - BitVec.ofNat 16 (field tTiming 2 2 + 1)).toNat ≤ 0 :=
  ⟨flitClean_append _ (by decide +kernel), by decide +kernel, by decide +kernel, by decide +kernel, by decide +kernel, by decide +kernel⟩
theorem test_phase : let s := { tOn with time := { tOn.time with thetas := [5 * 65536] } }
    s.start.powerGood = true ∧ s.time.gateTheta = none ∧ tOn.measured = none ∧ s.measured = some (5 * 65536) ∧ s.time.rate = 0 ∧ s.timeRole ≠ 2 := by decide +kernel
theorem test_time_step : let s := { tOn with time := { tOn.time with lock := 2, rate := 1, offset := 65535999 } }
    s.time.stepped = false ∧ s.time.lock = 2 ∧ s.time.rate = 1 ∧ s.time.offset < 65536000 ∧ ({ s.time with rate := 2, offset := -65535999 }).rate = 2 ∧ (-65536000 : Int) < -65535999 ∧ tOn.time.lock ≠ 2 ∧
    (let t := { tOn with time := { tOn.time with stepped := true, offset := -65536000001 } }; t.time.rate = 0 ∧ t.time.stepped = true ∧ 65536000000 < t.time.offset.natAbs) := by decide
theorem test_offsets : let s0 := tGroup 0 tOn
    let s := { s0 with time := { s0.time with groupRef := some 0, master := some 16, gateLink := some 16 } }
    1 ∈ s.groupPeers ∧ s.timeRole = 1 ∧ s.time.gateLink = some 16 ∧ 16 / 16 = slotOf 1 ∧ s.time.master = some 16 ∧ (2 : Nat) ∉ s.groupPeers ∧ tOn.time.gateLink = tOn.gate ∧
    s.time.gateLink ≠ s.gate := by decide
/-- TimeIsElectedAndLocked: a candidate that is fresh and one that has expired, a module with its configuration read, a lock under way. -/
theorem test_election : let c : Candidacy := { (default : Candidacy) with machineId := 1 }
    let s := tAt 300000000 (tGroup 0 tOn)
    s.bridesRun = true ∧ s.cfg.read = true ∧ tOn.cfg.read = false ∧ c.machineId = 1 ∧ 1 ∈ s.groupPeers ∧ s.isMember 1 = true ∧ c.machineId ≠ s.machineId ∧
    expired s.now 1 [{ cand := c, at_ := 0 }] = true ∧ expired (s.now - 1) 1 [{ cand := c, at_ := 0 }] = false := by decide
theorem test_lock : let s0 := tGroup 0 tOn
    let s := { s0 with time := { s0.time with lock := 1, goodMs := 16 } }
    s.start.powerGood = true ∧ s.cfg.read = true ∧ s.start.safe = false ∧ s.elect.pickSource.timeRole = 2 ∧
    (let u := { s with time := { s.time with groupHeard := [{ cand := { (default : Candidacy) with machineId := 1 }, at_ := 0 }] } }; u.elect.pickSource.timeRole ≠ 2 ∧
      u.elect.pickSource.follows = false ∧ u.time.everLocked = false) := by decide
/-- ReferencesAndPtp: an edge at a whole second in LOCKED, the references at the edges of their ranges. -/
theorem test_reference : let s := tAt 1000000000 { tOn with time := { tOn.time with lock := 2, master := some 0xFFFF, ppsValid := true, ppsLast := some 0 } }
    (s.time.lock = 2 ∧ s.now % 1000000000 = 0) ∧ s.timeRole = 2 ∧ tOn.timeRole ≠ 2 ∧ s.time.ppsValid = true ∧ bit s.portCfg.refEnable 0 = true ∧ s.time.ppsLast = some 0 ∧ s.now < 0 + 1500000000 ∧ s.time.refValid = false ∧ (0 : Nat) ∈ ({ s with cfg := { s.cfg with cur := MachineCfg.default } } : State).ptpTransports.map (fun _ => 0) ∧ (1 : Nat) ∈ s.ptpTransports ∧ s.portCfg.ptpDomain = 0 ∧
    tOn.port.up = false ∧ (tPort tOn).port.up = true := by decide

/-! ### Sensors, power, monitors and reports -/

/-- ThermalAndPowerLevels: a sensor at its third missed reading, a broken one 10 s calm, hot and cool times at their ends, a low input. -/
theorem test_sensor : let s := (tAt 10000000000 tOn).setSensor 195 { Sensor.init with missed := 2, healSince := some 0 }
    2 ≤ (s.sensor 195).missed ∧ (s.sensor 195).state = 0 ∧ (s.sensor 195).healSince = some 0 ∧ 0 + 10000000000 ≤ s.now ∧ (s.sensor 0).missed < 2 ∧
    ({ Sensor.init with state := 1 } : Sensor).state ≠ 0 ∧ (19200 : Int) < 19201 := by decide
theorem test_throttle : let s := { tAt 2000000000 tOn with thermal := { tOn.thermal with hotSince := some 2000000000, coolSince := some 0, level := 14, inputLow := true } }
    s.thermal.hotSince = some 2000000000 ∧ 2000000000 ≤ s.now ∧ s.thermal.coolSince = some 0 ∧ s.thermal.level ≠ 0 ∧ 0 + 2000000000 ≤ s.now ∧ 14 ≤ s.thermal.level ∧
    tOn.thermal.hotSince = none ∧ tOn.thermal.inputLow = false ∧ s.thermal.inputLow = true ∧ (39999 : Nat) < 40000 := by decide
/-- At 1,160 W of a budget of 1,200 W the level stays; one step above it rises (R411). -/
theorem test_governor : (match exec (.governorInterval 48000 24167 1160016000) tOn with | .next t => t.thermal.powerLevel == 1 | _ => false) = true ∧
    (match exec (.governorInterval 40000 29000 1160000000) tOn with | .next t => t.thermal.powerLevel == 0 | _ => false) = true := by decide
/-- TripsBringTheSafeState: a sensor that rises too fast, two of one part over their limit, a settled module with a hand-back under way. -/
theorem test_trip : let s := (tAt 20000000 tOn).setSensor 0 { Sensor.init with fast := true, hist := [(20000000, 1000), (10000000, 0), (0, 0)] }
    0 ∈ s.goodSensors ∧ 128 < 5 * (s.sensor 0).rise10 ∧ s.tripCause.isSome = true ∧ s.start.safe = false ∧ tOn.tripCause = none := by decide
theorem test_hardware_trip : let x : Sensor := { Sensor.init with overCount := 2 }
    let s := (tOn.setSensor 0 x).setSensor 1 x
    sensorPart 0 = sensorPart 1 ∧ 2 ≤ (s.sensor 0).overCount ∧ 2 ≤ (s.sensor 1).overCount ∧ sensorPart 0 ≠ sensorPart 195 := by decide
theorem test_safe_exit : let s := { tOn with start := { tOn.start with safe := true }, take := { tOn.take with backBox := some 63 } }
    s.start.safe = true ∧ s.start.memoryFailed = false ∧ s.take.backBox.isSome = true ∧ s.settled = true ∧ tOn.take.backBox = none := by decide
/-- MonitorEntriesAndPrograms, MonitorAndBootRowsComplete: an entry that ends now and one that is late, programs that pass and fail. -/
theorem test_monitor : let e : MonEntry := { MonEntry.init with period := 1, dest := 2, lastStart := some 0 }
    let s0 := tAt 1000000 tOn
    let s := { s0 with monitor := { s0.monitor with entries := [(31, e)] } }
    s.monEntry 31 = e ∧ s.oldEntry 31 = none ∧ s.monEnds 31 = true ∧ s.monTurn 31 = true ∧ [(0 : Int)].length = 2 ^ e.avg ∧ s.monEnds 30 = false ∧ e.lastStart = some 0 ∧ e.period ≠ 0 ∧
    0 + 2000 * e.period ≤ s.now := by decide
/-- MonitorEntriesAndPrograms: entry 31 is replaced 400 ns after it fell due, and its conversion ends 100 ns later. -/
theorem test_monitor_replaced : let e : MonEntry := { MonEntry.init with period := 1, dest := 2, lastStart := some 0 }
    let s0 := tAt 1500 tOn
    let q := ({ s0.monitor with entries := [(31, e)] } : Monitor).program [] 1400
    q.started 1400 = [] ∧ q.replaced = [(31, e)] ∧ ({ s0 with monitor := q } : State).oldEntry 31 = some e ∧
    (match exec (.monitorEntry 31 [5]) { s0 with monitor := q } with
      | .next t => t.monitor.written == 1 && (t.monEntry 31).code == 5 && (t.monEntry 31).count == 0 && t.monitor.replaced == [] | _ => false) = true := by decide
theorem test_program : let e := tEntry 0x58 [(0x1C, 4, 16)]
    let s := tRun e .readDone (layout 16 [(0, 1, 1)]) false (tPort tOn)
    Ready s 63 0x58 e ∧ 8 ≤ bufLen e ∧ bufLen e % 8 = 0 ∧ bufLen e ≤ 136 ∧ s.qpOk 5 = true ∧ monRefusal s (layout 16 [(0, 1, 1)]) = none ∧
    (monRefusal s (layout 16 [(1, 1, 1)])).isSome = true ∧ bufLen (tEntry 0x58 [(0x1C, 4, 144)]) = 144 ∧ s.cmdQp (tCmd e .none [] false) = some 5 := by unfold Ready; decide
/-- ReportsAreDelivered: fixed and layer reports, a quote, buffers that fit and that do not. -/
theorem test_health : let e := tEntry 0x50 [(0x1C, 4, 2 ^ 24)]
    let s := tRun e .none [] false (tPort (tShard tOn))
    Ready s 63 0x50 e ∧ (s.box 63).cur = some (tCmd e .none [] false) ∧ field e 8 1 < 0x10 ∧ field (tEntry 0x50 [(8, 1, 0x10)]) 8 1 = 0x10 ∧ field (tEntry 0x50 [(8, 1, 0x2F)]) 8 1 = 0x2F ∧
    (layerReport s 0x10).isSome = true ∧ layerReport s 0x2F = none ∧ (fixedReport s 6).length ≤ bufLen e ∧ s.cmdQp (tCmd e .none [] false) = some 5 ∧ s.qpOk 5 = true ∧ tOn.qpOk 5 = false ∧ 0 < (fixedReport s 6).length := by
  unfold Ready; decide +kernel
theorem test_attest : let e := tEntry 0xA0 []
    Ready (tRun e .none [] false tOn) 63 0xA0 e := by unfold Ready; decide

/-! ### Configuration, firmware and start-up -/

/-- ConfigurationCommands: slots to read, stage, commit and revert. -/
theorem test_config : let e := tEntry 0x12 []
    let s0 := { tOn with cfg := { tOn.cfg with slotB := { state := .staged, image := [] } } }
    let s := tRun e .none [] false s0
    Ready s 63 0x12 e ∧ s.updateWaits 63 = false ∧ s.cfg.slotIn .staged = some { state := .staged, image := [] } ∧ (CfgSlot.config { state := .staged, image := [] }).version = field e 0x10 4 ∧
    s.inUse (CfgSlot.config { state := .staged, image := [] }) = none ∧ tOn.cfg.slotIn .staged = none ∧ tOn.cfg.slotIn .previous = none ∧ (field (tEntry 0x12 [(0x10, 4, 1)]) 0x10 4 = 1) ∧
    tOn.cfg.slotIn .current = some { state := .current, image := [] } := by unfold Ready; decide
theorem test_config_in_use : ({ tSeqs tSeq tOn with cfg := { tOn.cfg with cur := { tOn.cfg.cur with hostSize := 64 } } } : State).inUse MachineCfg.default = some 1 := by decide
theorem test_config_read : let e := tEntry 0x10 []
    Ready (tRun e .none [] false (tPort tOn)) 63 0x10 e ∧ Ready (tRun (tEntry 0x13 []) .none [] false tOn) 63 0x13 (tEntry 0x13 []) := by unfold Ready; decide
theorem test_config_stage : let e := tEntry 0x11 [(0x1C, 4, 65536)]
    let s := tRun e .readDone [] false (tPort tOn)
    Ready s 63 0x11 e ∧ bufLen e % 65536 = 0 ∧ bufLen e ≤ 64 * 65536 ∧ bufLen e ≠ 0 ∧ (stageRefusal s (zeros 24 ++ [1, 0])).isSome = true := by unfold Ready; decide
/-- A configuration image of one block: a header of version 1 and no section. -/
def tCfgHead : Bytes := layout 64 [(0, 4, 0x46435746), (4, 2, 1), (6, 2, 0x0810), (8, 4, 1), (0x18, 2, 1)] ++ zeros 65468
/-- A field that lies before what follows. -/
theorem field_append (p q : Bytes) (o n : Nat) (h : o + n ≤ p.length) : field (p ++ q) o n = field p o n := by
  unfold field
  rw [List.drop_append_of_le_length (by omega), List.take_append_of_le_length (by rw [List.length_drop]; omega)]
theorem test_config_passes (p : Bytes) (h : p.length = 65532) (hb : field p 0x18 2 = 1) (h0 : field p 0 4 = 0x46435746) (h6 : field p 6 2 = 0x0810)
    (hf : ¬ (field p 4 2 < tOn.fw.runningSlot.cfgMin ∨ tOn.fw.runningSlot.cfgMax < field p 4 2)) (hr : rangeFault p = none)
    (hm : notMember p tOn.fw.serial tOn.start.slot = none) : stageRefusal tOn (p ++ leBytes 4 (crc32c p).toNat) = none := by
  have hl : (p ++ leBytes 4 (crc32c p).toNat).length = 65536 := by simp [leBytes, h]
  have ht : (p ++ leBytes 4 (crc32c p).toNat).take 0xFFFC = p := by rw [← h, List.take_left]
  have hd : (p ++ leBytes 4 (crc32c p).toNat).drop 0xFFFC = leBytes 4 (crc32c p).toNat := by rw [← h, List.drop_left]
  have hblock : blockOf (p ++ leBytes 4 (crc32c p).toNat) 0 = p ++ leBytes 4 (crc32c p).toNat := by
    unfold blockOf
    rw [Nat.mul_zero, List.drop_zero, List.take_of_length_le (by omega)]
  have hgood : blockGood (p ++ leBytes 4 (crc32c p).toNat) = true := by
    have h4 : (leBytes 4 (crc32c p).toNat).take 4 = leBytes 4 (crc32c p).toNat := List.take_of_length_le (by simp [leBytes])
    have h5 : ofLE (leBytes 4 (crc32c p).toNat) = (crc32c p).toNat := by
      have := (crc32c p).isLt
      simp only [leBytes, ofLE, BitVec.toNat_ofNat]
      omega
    unfold blockGood field
    rw [ht, hd, h4, h5]
    exact decide_eq_true rfl
  have hbad : firstBadBlock (p ++ leBytes 4 (crc32c p).toNat) 1 = none := by
    unfold firstBadBlock
    have e : List.range 1 = [0] := rfl
    rw [e, List.find?_cons, hblock, hgood]
    rfl
  have hstream : dataStream (p ++ leBytes 4 (crc32c p).toNat) = p := by
    have e : List.range 1 = [0] := rfl
    unfold dataStream
    rw [hl, show 65536 / 65536 = 1 from rfl, e, List.flatMap_cons, List.flatMap_nil, List.append_nil, hblock, ht]
  have hfault : imageFault (p ++ leBytes 4 (crc32c p).toNat) = none := by
    unfold imageFault
    rw [field_append _ _ _ _ (by omega), field_append _ _ _ _ (by omega), field_append _ _ _ _ (by omega), h0, h6, hb, hl]
    rfl
  unfold stageRefusal
  simp only [field_append p _ 0x18 2 (by omega), hb, hl, hbad, hfault, hstream, hr, hm, if_neg hf, Nat.reduceDiv, ne_eq, not_true_eq_false, false_and, if_false,
    Option.map_none]
theorem test_config_fields : tCfgHead.length = 65532 ∧ field tCfgHead 0x18 2 = 1 ∧ field tCfgHead 0 4 = 0x46435746 ∧ field tCfgHead 6 2 = 0x0810 ∧
    ¬ (field tCfgHead 4 2 < tOn.fw.runningSlot.cfgMin ∨ tOn.fw.runningSlot.cfgMax < field tCfgHead 4 2) ∧ rangeFault tCfgHead = none ∧
    notMember tCfgHead tOn.fw.serial tOn.start.slot = none := by
  refine ⟨?_, by decide +kernel, by decide +kernel, by decide +kernel, by decide +kernel, by decide +kernel, by decide +kernel⟩
  unfold tCfgHead
  rw [List.length_append]
  have : (zeros 65468).length = 65468 := List.length_replicate
  rw [this]
  rfl
theorem test_config_staged : stageRefusal tOn (tCfgHead ++ leBytes 4 (crc32c tCfgHead).toNat) = none :=
  let ⟨a, b, c, d, e, f, g⟩ := test_config_fields
  test_config_passes _ a b c d e f g
/-- FirmwareCommands: staged and previous slots, buffers in and out of range, the owner lock clear and set. -/
theorem test_firmware : let e := tEntry 0x81 []
    let s := tRun e .none [] false { tOn with fw := { tOn.fw with slotB := { FwSlot.none with state := .staged } } }
    Ready s 63 0x81 e ∧ s.updateWaits 63 = false ∧ s.fw.slotIn .staged = some 1 ∧ (s.fw.slot 1).version = field e 0x10 4 ∧ begunOn s 63 = false ∧ s.inFlight = [] ∧ s.servesSome = false ∧
    tOn.fw.slotIn .staged = none ∧ tOn.fw.slotIn .previous = none ∧ laterRefusal { s.fw with floor := 1 } (s.fw.slot 1) = some (0x0502, 1, 1) := by unfold Ready; decide
theorem test_fw_stage : let e := tEntry 0x80 [(0x1C, 4, 131072)]
    Ready (tRun e .none [] false (tPort tOn)) 63 0x80 e ∧ bufLen e % 65536 = 0 ∧ 2 * 65536 ≤ bufLen e ∧ bufLen e ≤ 256 * 65536 ∧ (imageRefusal tOn.fw []).isSome = true ∧
    Ready (tRun (tEntry 0x82 []) .none [] false tOn) 63 0x82 (tEntry 0x82 []) := by unfold Ready; decide
theorem test_owner_lock : let e := tEntry 0x90 [(8, 1, 1), (0xC, 4, 9)]
    Ready (tRun e .none [] false tOn) 63 0x90 e ∧ field e 8 1 = 1 ∧ tOn.fw.lock = none ∧ field (tEntry 0x90 [(0xC, 4, 9)]) 0xC 4 = 9 ∧ (8 : Nat) ≠ 9 := by unfold Ready; decide
/-- BootConfirmsOrFallsBack, MonitorAndBootRowsComplete: the fifth second of stage 2, stage 1 with and without an attempt left. -/
theorem test_boot : let s := { tAt 5000000000 tOn with start := { tOn.start with stage := 2 } }
    s.start.powerGood = true ∧ s.start.hwTrip = false ∧ s.start.stage = 2 ∧ s.now ≤ s.start.stageStart + 5000000000 ∧ s.fw.boot < 2 ∧ s.fw.running < 2 ∧ s.fw.boot = s.fw.running ∧ State.reset.start.stage = 1 ∧
    State.reset.start.rom = false ∧ State.reset.fw.pending = 0 ∧ 5 ∈ [1, 2, 4, 5] ∧ s.start.rom = false ∧
    (let late : State := { tAt 5000000001 tOn with start := { tOn.start with stage := 2 } }
     late.start.stage = 2 ∧ late.start.stageStart + 5000000000 < late.now ∧ late.start.powerGood = true ∧ late.start.rom = false) := by decide
/-- An image whose version is below the floor, and a slot that another owner's key holds. -/
theorem test_lock_kept : ({ tOn.fw with lock := some 8 } : Firmware).lock = some 8 ∧ (8 : Nat) ≠ field (tEntry 0x90 [(0xC, 4, 9)]) 0xC 4 ∧
    ({ tOn.fw with lock := some 9 } : Firmware).lock = some (field (tEntry 0x90 [(0xC, 4, 9)]) 0xC 4) := by decide
/-- StagesOfStartUp: a stack that does not train. -/
theorem test_stack_fails : false ∈ List.replicate 7 true ++ [false] ∧ (List.replicate 7 true ++ [false]).length = 8 := by decide
/-- PowerComesAndGoes: power absent and good, RESET_L low and high. -/
theorem test_power : let off := { tOn with start := { tOn.start with powerGood := false } }
    off.start.powerGood = false ∧ off.start.resetL = true ∧ tOn.start.powerGood = true ∧ ({ tOn with start := { tOn.start with resetL := false } } : State).start.resetL = false ∧
    tOn.fw.pending = 0 ∧ (35999 : Nat) < 36000 ∧ (9999 : Nat) < 10000 := by decide
/-- Power good with RESET_L high latches the slot and begins stage 1 (R465, R466). -/
theorem test_power_good : (match exec (.powerGood 13 true) { tOn with start := { tOn.start with powerGood := false } } with
    | .next t => t.start.powerGood && t.start.stage == 1 && t.start.slot == 13 | _ => false) = true := by decide
/-- StagesOfStartUp: each stage with what ends it. -/
theorem test_stages : State.reset.start.powerGood = true ∧ State.reset.start.safe = false ∧ State.reset.start.rom = false ∧ State.reset.start.stage = 1 ∧ State.reset.start.resetL = true ∧
    State.reset.start.hwTrip = false ∧ State.reset.now ≤ State.reset.start.stageStart + 500000000 ∧ 0 + 500000000 < (tAt 500000001 tOn).now ∧
    0 + 6000000000 < (tAt 6000000001 tOn).now ∧
    (let s := { tAt 4000000000 tOn with start := { tOn.start with stage := 4 }, time := { tOn.time with t16 := 4000000000 * 65536, groupRef := some 0, lock := 2, stepped := true } }
     s.start.stage = 4 ∧ s.start.stageStart + 4000000000 ≤ s.now ∧ s.time.groupRef.isSome = true ∧ s.time.lock = 2 ∧ s.time.stepped = true) := by decide
/-- A module at stage 5 every array of which has been retired, so that none is still to be calibrated. -/
theorem test_module_ready : ∃ s : State, s.start.powerGood = true ∧ s.start.safe = false ∧ s.start.stage = 5 ∧ s.mirrorsPresent = true ∧
    ∀ a, a < 32768 → s.calibrated a = true := by
  refine ⟨{ tOn with start := { tOn.start with stage := 5 }, arrays := { tOn.arrays with retired := List.range 33280 } },
    by decide, by decide, by decide, by decide, fun a h => ?_⟩
  have e : State.workOf { tOn with start := { tOn.start with stage := 5 }, arrays := { tOn.arrays with retired := List.range 33280 } } a = none := by
    have hp : homePhys a < 33280 := by unfold homePhys; split <;> omega
    have hm : (List.range 33280).contains (homePhys a) = true := List.contains_iff_mem.2 (List.mem_range.2 hp)
    unfold State.workOf State.physOf
    have hr : Tab.get (homePhys a) tOn.arrays.remap a = homePhys a := rfl
    simp only [hr, hm, if_true]
  unfold State.calibrated
  rw [e]
end Sys2Proof.Tests
end

/-! ### The object that a command names, and the stop where the module has none (logs 1 and 2) -/

namespace Sys2Proof.Machine

/-- The objects that the operands of a command name by number (R1, R4): whether the module has them, and the fault that says which is missing.
`none` for a command whose operands name no numbered object of the module. -/
def objectOf : Instr → Option (Bool × Fault)
  | .readCountWrite m _ | .mailboxConsume m | .statusWordUpdate m | .identify m | .configRead m | .configStage m | .configCommit m | .configRevert m
  | .motifLoad m | .motifLoadReplace m | .motifSwitch m | .motifDrop m | .motifQuery m | .seqOpen m | .seqAppend m | .seqGenerate m | .cancel m
  | .seqFork m | .seqClose m | .pagesBind m | .calFreeze m | .calThaw m | .calCommit m | .healthRead m | .monitorProgram m | .timeRead m | .takeover m
  | .handback m | .fwStage m | .fwActivate m | .fwRevert m | .ownerLockSet m | .ownerLockClear m | .attest m | .doneRecordWrite m =>
    some (okMailbox m, .noSuchMailbox)
  | .headSync h => some (okMailbox h.mailbox, .noSuchMailbox)
  | .arm _ k _ _ _ _ | .add _ k _ _ | .fetchAdd _ k _ _ | .rearm _ k _ _ _ | .free _ k | .knotAdd _ k _ _ => some (okKnot k, .noSuchKnot)
  | .badType b _ _ | .messageForward b _ | .flit b _ _ _ | .nak b _ _ _ | .brideDown b | .laneOut b _ | .lossOfLock b | .routeSwitch b
  | .linkNoticeTimeout b | .training b _ _ _ _ | .trainingRetry b _ | .brideClassing b | .hold b | .reshapeDrainEnd b | .timingFlitSend b
  | .timingFlit b _ _ | .reshapeMissing b => some (okBride b, .noSuchBride)
  | .prefillStepStart x _ | .generationStepStart x _ | .companionStep x _ _ | .precisionWindowEnd x _ | .shardFetchEnd x | .programmingRoundEnd x _ _
  | .loadComplete x | .shardCopy _ x _ _ _ | .pageCopy _ _ x _ _ _ _ _ | .switch x _ | .oldCopyRelease x | .mirrorRestore x _ =>
    some (okMotif x, .noSuchMotif)
  | .loadOrder _ o => some (okMotif o.motif, .noSuchMotif)
  | .vectorLatch a _ | .picotCheckReport a | .tambourTile a _ _ _ | .refresh a _ _ | .standaloneMarginRun a _ | .arrayRetire a _ | .spareProgrammed a =>
    some (okArray a, .noSuchArray)
  | .internalVector p _ | .calServiceWindowEnd p | .windowTopUp p | .shadowCommit p | .warmupWindowEnd p | .confirmWindowEnd p =>
    some (okPhys p, .noSuchArray)
  | .workUnit p _ _ _ | .workUnitEnd p => some (okPipe p, .noSuchPipeline)
  | .marginWindow i | .islandRetire i _ | .marginWindowEnd i _ => some (okIsland i, .noSuchIsland)
  | .duplicateAudit _ i _ _ _ => some (decide (i < 240), .noSuchIsland)
  | .sensorReading i _ | .sensorGood i => some (okSensor i, .noSuchSensor)
  | .hardwareTrip a b => some (decide (a < 196 ∧ b < 196), .noSuchSensor)
  | .lightSupplyChange i _ _ | .lightSupplyGood i => some (okInput i, .noSuchInput)
  | .monitorEntry e _ | .late e => some (okEntry e, .noSuchEntry)
  | .scrubPass corrected => some (corrected.all fun r => decide (r.1 < 72), .noSuchStore)
  | .uncorrectable kind index addr _ _ _ =>
    some (decide ((kind = kStack ∧ index < 8 ∧ addr < Config.memorySize) ∨ (kind = kBank ∧ index < 64)), .noSuchStore)
  | .regionRetired stack region => some (decide (stack < 8 ∧ region < stackRegions), .noSuchStore)
  | .rebuilt stack addr _ _ _ _ => some (decide (stack < 8 ∧ addr < Config.memorySize), .noSuchStore)
  | _ => none

/-- The answer of a command with the objects `o` and the effect `t`: the effect, unless an object is missing. -/
def answer : Option (Bool × Fault) → State → Result
  | none, t => .next t
  | some (ok, f), t => need ok f t

/-- A command stops for a missing object only, and which is missing does not depend on the state: every arm of `exec` is a next state or one `need`. -/
theorem exec_eq_answer (c : Instr) (s : State) : ∃ t, exec c s = answer (objectOf c) t := by
  cases c <;> exact ⟨_, rfl⟩

@[simp] theorem answer_ne_refused (o : Option (Bool × Fault)) (t : State) (r : Refusal) : answer o t ≠ .refused r := by
  rcases o with - | ⟨ok, f⟩
  · nofun
  · cases ok <;> nofun

theorem answer_eq_next {o : Option (Bool × Fault)} (t : State) (h : o.all Prod.fst = true) : answer o t = .next t := by
  rcases o with - | ⟨ok, f⟩
  · rfl
  · exact if_pos h

/-- A command one of whose objects is missing stops with the fault that says so. -/
theorem exec_eq_fault {c : Instr} {s : State} {p : Prop} [Decidable p] {f : Fault} (hp : ¬p) (hc : objectOf c = some (decide p, f)) :
    exec c s = .fault f := by
  obtain ⟨t, ht⟩ := exec_eq_answer c s
  rw [ht, hc]
  exact if_neg (mt of_decide_eq_true hp)

/-- Commands that all name the same missing object stop with the same fault. -/
theorem forall_exec_eq_fault {cs : List Instr} {s : State} {p : Prop} [Decidable p] {f : Fault} (hp : ¬p)
    (hcs : cs.map objectOf = cs.map fun _ => some (decide p, f)) : ∀ c ∈ cs, exec c s = .fault f :=
  fun _ hc => exec_eq_fault hp (List.map_inj_left.1 hcs _ hc)

/-- The objects that a well-formed command names are objects of the module (R1, R4): its numbering is one of the conditions of `Instr.wf`, as it stands or, in
the cases split off, as part of a wider one. -/
theorem objectOf_of_wf {c : Instr} (h : c.wf = true) : (objectOf c).all Prod.fst = true := by
  cases c with
  | scrubPass corrected => exact h
  | hardwareTrip a b => simpa [Instr.wf, objectOf, okSensor] using h
  | uncorrectable => exact (Bool.and_eq_true_iff.1 h).1
  | regionRetired => exact h
  | rebuilt =>
    have ⟨hstack, haddr, _⟩ := of_decide_eq_true h
    exact decide_eq_true ⟨hstack, haddr⟩
  | _ => simp_all [Instr.wf, objectOf]

/-- Settles O3: a command stops for a missing object only, and a well-formed one names none. -/
theorem everyCommandIsAnswered : Obligations.EveryCommandIsAnswered := by
  refine ⟨fun c s h => ?_, fun c s r => ?_⟩ <;> obtain ⟨t, ht⟩ := exec_eq_answer c s
  · exact ⟨t, ht.trans (answer_eq_next t (objectOf_of_wf h))⟩
  · exact ht ▸ answer_ne_refused _ t r

/-- Settles O4: each of the numbers is past the last object of its kind. -/
theorem numbersOfNoObjectStopTheCommand : Obligations.NumbersOfNoObjectStopTheCommand := by
  intro n s
  refine ⟨fun hmailbox => ?_, fun hknot port x g c sv => ?_, fun hbride => ?_, fun hmotif => ?_, fun harray => ?_, fun hphys => ?_, fun hsensor => ?_,
    fun hinput => ?_, fun hpipeline => ?_, fun hisland => ?_, fun hentry => ?_, fun hstack region => ?_⟩
  · have hn := Nat.not_lt.2 hmailbox
    exact ⟨fun v => exec_eq_fault hn rfl, forall_exec_eq_fault hn rfl⟩
  · have hn := Nat.not_lt.2 hknot
    refine ⟨?_, ?_, ?_, ?_, ?_, ?_⟩ <;> exact exec_eq_fault hn rfl
  · exact forall_exec_eq_fault (Nat.not_lt.2 hbride) rfl
  · exact forall_exec_eq_fault (Nat.not_lt.2 hmotif) rfl
  · exact forall_exec_eq_fault (Nat.not_lt.2 harray) rfl
  · exact forall_exec_eq_fault (Nat.not_lt.2 hphys) rfl
  · have hn := Nat.not_lt.2 hsensor
    exact ⟨fun v => exec_eq_fault hn rfl, exec_eq_fault hn rfl⟩
  · exact exec_eq_fault (Nat.not_lt.2 hinput) rfl
  · exact exec_eq_fault (Nat.not_lt.2 hpipeline) rfl
  · have hn := Nat.not_lt.2 hisland
    exact ⟨exec_eq_fault hn rfl, fun why => exec_eq_fault hn rfl⟩
  · exact exec_eq_fault (Nat.not_lt.2 hentry) rfl
  · exact exec_eq_fault (fun h => Nat.not_lt.2 hstack h.1) rfl

/-! ### The idle tick (log 8) -/

/-- At the normal rate and with no frequency correction a nanosecond of module time passes in 2^16 parts, and the finer remainder is carried (R9, R349). -/
theorem TimeUnit.tick_of_normal {u : TimeUnit} (hrate : u.rate = 0) (hppb : u.ppb = 0) :
    u.tick = { u with t16 := u.t16 + 65536 + u.fine / 1000000000, fine := u.fine % 1000000000 } := by
  have hstep : rateStep u.rate * (1000000000 + u.ppb).toNat = 65536 * 1000000000 := by rw [hrate, hppb]; rfl
  have hdiv : (u.fine + 65536 * 1000000000) / 1000000000 = 65536 + u.fine / 1000000000 := by omega
  have hmod : (u.fine + 65536 * 1000000000) % 1000000000 = u.fine % 1000000000 := by omega
  simp only [TimeUnit.tick, hstep, hdiv, hmod, Nat.add_assoc]

theorem idle_of_clock_stopped {s : State} (h : s.clockRuns = false) : idle s = s := if_neg (Bool.eq_false_iff.1 h)

/-- What an idle nanosecond changes while the clock runs. -/
theorem idle_of_clock_runs {s : State} (h : s.clockRuns = true) :
    idle s = { s with
      time := s.time.tick
      start := { s.start with ppsOut := s.start.ppsOut && decide (s.time.tick.t16 / 65536 % 1000000000 < 100000000) }
      thermal := { s.thermal with throttled := s.thermal.throttled + b2n (decide (0 < s.level)) } } := if_pos h

theorem step_of_none_waiting {s : State} (h : s.pending = []) : step s = .next (idle s) := by simp only [step, h]

/-- Settles O1: an idle step is one tick, and the clock decides whether it changes anything. -/
theorem stepRunsTheFrontCommand : Obligations.StepRunsTheFrontCommand := by
  refine ⟨fun c rest s => rfl, fun s hs => ⟨fun hoff => ?_, fun hppb hpower hreset => ?_⟩⟩
  · have hstopped : s.clockRuns = false := Bool.and_eq_false_iff.2 hoff
    rw [step_of_none_waiting hs, idle_of_clock_stopped hstopped]
  · have hruns : s.clockRuns = true := Bool.and_eq_true_iff.2 ⟨hpower, hreset⟩
    refine ⟨_, (step_of_none_waiting hs).trans (congrArg _ (idle_of_clock_runs hruns)), rfl, rfl, rfl, fun hrate => TimeUnit.tick_of_normal hrate hppb,
      fun hlevel => ?_, fun hlevel => ?_⟩
    · simp [hlevel, b2n]
    · simp [hlevel, b2n]

end Sys2Proof.Machine

namespace Sys2Proof.Machine

/- The theorems of this part are elaborated one after another: side by side they need more memory than the check has left beside the tests above. -/
set_option Elab.async false

/-! ### Messages of a list (R243) -/

@[simp] theorem State.toBride_out (s : State) (m : Msg) : (s.toBride m).fabric.out = s.fabric.out := by
  unfold State.toBride
  split <;> rfl

@[simp] theorem State.send_out (s : State) (m : Msg) : (s.send m).fabric.out = m :: s.fabric.out := by
  rw [State.send, State.toBride_out]

theorem State.send_frame (s : State) (m : Msg) : s.send m = { s with fabric := (s.send m).fabric } := by
  apply State.ext_fields <;> simp

section FoldSend
variable {α : Type} (f : State → α → Msg)

theorem State.foldl_send_frame (l : List α) (s : State) :
    l.foldl (fun u d => u.send (f u d)) s = { s with fabric := (l.foldl (fun u d => u.send (f u d)) s).fabric } := by
  induction l generalizing s with
  | nil => rfl
  | cons x l ih =>
    rw [List.foldl_cons]
    exact (ih _).trans (by rw [State.send_frame])

theorem State.mem_out_foldl_send {l : List α} {s : State} {m : Msg} (h : m ∈ s.fabric.out) : m ∈ (l.foldl (fun u d => u.send (f u d)) s).fabric.out := by
  induction l generalizing s with
  | nil => exact h
  | cons x l ih => exact ih (by rw [State.send_out]; exact List.mem_cons_of_mem _ h)

/-- Each of a list gets its message, formed as it would have been before the first was sent. -/
theorem State.foldl_send_sends {l : List α} {s : State} (hf : ∀ fabric d, f { s with fabric := fabric } d = f s d) {d : α} (hd : d ∈ l) :
    f s d ∈ (l.foldl (fun u d => u.send (f u d)) s).fabric.out := by
  induction l generalizing s with
  | nil => cases hd
  | cons x l ih =>
    rw [List.foldl_cons]
    rcases List.mem_cons.1 hd with rfl | hd
    · exact State.mem_out_foldl_send f (by rw [State.send_out]; exact List.mem_cons_self ..)
    · have hsame : ∀ d, f (s.send (f s x)) d = f s d := fun d => by rw [State.send_frame]; exact hf _ d
      rw [← hsame d]
      refine ih (fun fabric d => ?_) hd
      rw [hsame, State.send_frame]
      exact hf fabric d

end FoldSend

/-! ### Compaction (R225) -/

/-- A state after compaction work: memory, waiting copies and messages alone have changed, and no message sent is lost. -/
structure State.Compacted (s t : State) : Prop where
  frame : t = { s with mem := t.mem, attn := t.attn, fabric := t.fabric }
  sent : ∀ m ∈ s.fabric.out, m ∈ t.fabric.out

namespace State.Compacted

theorem refl (s : State) : s.Compacted s := ⟨rfl, fun _ h => h⟩

theorem trans {s t u : State} (hst : s.Compacted t) (htu : t.Compacted u) : s.Compacted u :=
  ⟨htu.frame.trans (by rw [hst.frame]), fun m hm => htu.sent m (hst.sent m hm)⟩

theorem foldl {α β : Type} {g : β → State} {f : β → α → β} (h : ∀ b a, (g b).Compacted (g (f b a))) (l : List α) (b : β) :
    (g b).Compacted (g (l.foldl f b)) := by
  induction l generalizing b with
  | nil => exact refl _
  | cons a l ih => exact (h b a).trans (ih (f b a))

theorem send (s : State) (m : Msg) : s.Compacted (s.send m) := by
  refine ⟨?_, fun x hx => ?_⟩
  · rw [State.send_frame]
  · rw [State.send_out]
    exact List.mem_cons_of_mem _ hx

theorem moveSlot (s : State) (t : StepTag) (p : Pricking) (r : LayerRec) (mv : Nat × Nat × Nat) : s.Compacted (s.moveSlot t p r mv).1 := by
  unfold State.moveSlot
  split
  · dsimp only
    split
    · exact refl s
    · exact ⟨rfl, fun _ h => h⟩
  · exact ⟨rfl, fun _ h => h⟩

theorem sendCopies (t : StepTag) (l : List (Nat × SlotData)) (s : State) : s.Compacted (Machine.sendCopies t l s) := by
  induction l generalizing s with
  | nil => exact refl s
  | cons x l ih => exact (send s _).trans (ih _)

theorem compactLayer (s : State) (t : StepTag) (p : Pricking) (r : LayerRec) (mvs : List (Nat × Nat × Nat)) : s.Compacted (s.compactLayer t p r mvs) := by
  refine trans ?_ (sendCopies t _ _)
  refine foldl (g := Prod.fst) (fun x mv => ?_) mvs (s, [])
  exact moveSlot x.1 t p r mv

theorem writeCopy (s : State) (t : StepTag) (b h : Nat) (d : SlotData) : s.Compacted (s.writeCopy t b h d) := ⟨rfl, fun _ hm => hm⟩

theorem takeWaiting (s : State) (t : StepTag) : s.Compacted (s.takeWaiting t) := by
  have hcleared : s.Compacted { s with attn := { s.attn with compactWait := s.attn.compactWait.filter fun x => !sameTag t x.1 } } := ⟨rfl, fun _ h => h⟩
  refine hcleared.trans (foldl (g := fun u => u) (fun u x => ?_) _ _)
  split
  · exact writeCopy ..
  · exact refl u

theorem compactAll (s : State) (t : StepTag) (p : Pricking) (c : CommitBody) : s.Compacted (s.compactAll t p c) := by
  refine trans ?_ (takeWaiting _ t)
  refine foldl (g := fun u => u) (fun u r => ?_) _ s
  exact compactLayer u _ p r (moves c)

end State.Compacted

/-! ### Consumption of an entry (R52, R59, R62, R71) -/

/-- The state right after mailbox `m` has consumed the entry at its index, before the checks of R62: the entry is taken, the scan's note of it is gone, and the
spare of a head is told. -/
def State.entryTaken (s : State) (m : Nat) : State :=
  let b := s.box m
  let u := s.setBox m (consumeBox b (s.newCmd b) (s.slowsOf (entryMotif (entryBytes b b.consume)) (entrySeq (entryBytes b b.consume))) s.now)
  ({ u with boxes := { u.boxes with noted := s.boxes.noted.tail, consumed := s.boxes.consumed + 1 } } : State).headSync 0 m (entryBytes b b.consume) []

theorem consume_of_pass {s : State} {m : Nat} (hcheck : entryCheck s (s.box m) (entryBytes (s.box m) (s.box m).consume) = none)
    (hupdate : updateRefusal s (entryOp (entryBytes (s.box m) (s.box m).consume)) = none) : consume s m = s.entryTaken m := by
  simp only [consume, hcheck, hupdate]
  rfl

theorem consume_of_fail {s : State} {m status detail : Nat}
    (hcheck : entryCheck s (s.box m) (entryBytes (s.box m) (s.box m).consume) = some (status, detail)) :
    consume s m = (s.entryTaken m).failCmd m status detail := by
  simp only [consume, hcheck]
  rfl

/-- The row of a consumption that may come about is its effect (R52, R59). -/
theorem execMailboxConsume_of_posted {s : State} {m : Nat} (hm : m < 64) (hruns : s.bobbinRuns = true) (hnoted : s.boxes.noted.head? = some m)
    (hcur : (s.box m).cur = none) (hown : entryOwn (entryBytes (s.box m) (s.box m).consume) = true) :
    exec (.mailboxConsume m) s = .next (consume s m) := by
  show execMailboxConsume m s = _
  simp [execMailboxConsume, need, onlyIf, consumable, Config.mailboxes, hm, hruns, hnoted, hcur, hown]

theorem State.entryTaken_box (s : State) (m k : Nat) :
    (s.entryTaken m).box k = if k = m then
      consumeBox (s.box m) (s.newCmd (s.box m))
        (s.slowsOf (entryMotif (entryBytes (s.box m) (s.box m).consume)) (entrySeq (entryBytes (s.box m) (s.box m).consume))) s.now
    else s.box k := by
  rw [State.entryTaken, State.headSync_box]
  exact State.setBox_box s m _ k

@[simp] theorem State.entryTaken_box_same (s : State) (m : Nat) :
    (s.entryTaken m).box m = consumeBox (s.box m) (s.newCmd (s.box m))
      (s.slowsOf (entryMotif (entryBytes (s.box m) (s.box m).consume)) (entrySeq (entryBytes (s.box m) (s.box m).consume))) s.now := by
  rw [State.entryTaken_box, if_pos rfl]

theorem State.entryTaken_box_other (s : State) {m k : Nat} (h : k ≠ m) : (s.entryTaken m).box k = s.box k := by
  rw [State.entryTaken_box, if_neg h]

@[simp] theorem State.entryTaken_noted (s : State) (m : Nat) : (s.entryTaken m).boxes.noted = s.boxes.noted.tail := by
  simp [State.entryTaken]

@[simp] theorem State.entryTaken_cfg (s : State) (m : Nat) : (s.entryTaken m).cfg = s.cfg := by
  simp [State.entryTaken]

/-- Consumption changes the mailboxes alone, but for the word to the spare. -/
theorem State.entryTaken_frame (s : State) (m : Nat) :
    s.entryTaken m = { s with boxes := (s.entryTaken m).boxes, fabric := (s.entryTaken m).fabric } := by
  apply State.ext_fields <;> simp [State.entryTaken]

theorem State.entryTaken_entryOf (s : State) (m : Nat) : (s.entryTaken m).entryOf m = entryBytes (s.box m) (s.box m).consume := by
  simp [State.entryOf, consumeBox, touchBox, State.newCmd]

/-- A module that is no head tells its spare of no consumption but a first load's (R296). -/
theorem State.entryTaken_tells {s : State} {m : Nat} (hhead : s.isHead = false) (hop : entryOp (entryBytes (s.box m) (s.box m).consume) ≠ opMotifLoad) :
    (s.entryTaken m).tells m = false := by
  have hhead' : (s.entryTaken m).isHead = s.isHead := by rw [State.entryTaken_frame]; rfl
  simp [State.tells, State.loadsHere, hhead', hhead, consumeBox, touchBox, State.newCmd, hop]

theorem State.entryTaken_fabric {s : State} {m : Nat} (hhead : s.isHead = false) (hop : entryOp (entryBytes (s.box m) (s.box m).consume) ≠ opMotifLoad) :
    (s.entryTaken m).fabric = s.fabric := by
  unfold State.entryTaken
  rw [State.headSync_of_not_head]
  · rfl
  · exact hhead
  · simp [State.loadsHere, State.box, State.setBox, consumeBox, touchBox, State.newCmd]
    exact hop

/-- Taking the entry at the consume index clears its OWN bit and leaves the other entries (R59). -/
theorem entryBytes_consumeBox {b : Mailbox} {c : Cmd} (slows : List (Nat × Nat)) (now j : Nat) :
    entryBytes (consumeBox b c slows now) j = if j = b.consume then clearOwn c.entry else entryBytes b j :=
  Tab.get_put _ _ j b.consume _

/-! The first of the checks of R62 that fails. -/

theorem entryCheck_of_no_version {s : State} {b : Mailbox} {e : Bytes} (hop : entryOp e ≠ 0x0001) (hv : b.version = none) :
    entryCheck s b e = some (0x0103, 0) := by
  unfold entryCheck
  exact if_pos ⟨hop, by rw [hv]; rfl⟩

section Checks
variable {s : State} {b : Mailbox} {e : Bytes} (hv : b.version ≠ none ∨ entryOp e = 0x0001)
include hv

theorem versionChecked : ¬ (entryOp e ≠ opIdentify ∧ b.version.isNone = true) := by
  rintro ⟨hop, hnone⟩
  exact hv.elim (fun h => h (Option.isNone_iff_eq_none.1 hnone)) hop

theorem entryCheck_of_undefined (hop : entryOp e ∉ opcodes) : entryCheck s b e = some (0x0100, entryOp e) := by
  unfold entryCheck
  simp only [if_neg (versionChecked hv)]
  exact if_pos (by simp [hop])

variable (hrom : s.start.rom = false) (hop : entryOp e ∈ opcodes)
include hrom hop

theorem entryCheck_of_reserved {i : Nat} (hi : firstReserved e (entryOp e) = some i) : entryCheck s b e = some (0x0101, i) := by
  unfold entryCheck
  simp only [if_neg (versionChecked hv), hrom, hi]
  exact if_neg (by simp [hop])

theorem entryCheck_of_bad_parameter (hres : firstReserved e (entryOp e) = none) {i : Nat} (hi : firstBad e (entryOp e) = some i) :
    entryCheck s b e = some (0x0102, i) := by
  unfold entryCheck
  simp only [if_neg (versionChecked hv), hrom, hres, hi]
  exact if_neg (by simp [hop])

end Checks

/-- A consumed entry that fails a check completes with the status of that check, and nothing else comes of it (R62). -/
theorem entryTaken_failCmd {s : State} {m : Nat} (status detail : Nat) (hfree : (s.box m).records - (s.box m).readCount < 16383)
    (hbreak : s.cfg.breakQps = false) :
    let t := (s.entryTaken m).failCmd m status detail
    Completes (s.entryTaken m) t m status (detail % 2 ^ 32) 0 ((s.entryTaken m).resultOf (entryBytes (s.box m) (s.box m).consume)) ∧
    t = { s with boxes := t.boxes, fabric := t.fabric } ∧
    (s.isHead = false → entryOp (entryBytes (s.box m) (s.box m).consume) ≠ opMotifLoad → t.fabric = s.fabric) := by
  have hfree' : ((s.entryTaken m).box m).records - ((s.entryTaken m).box m).readCount < 16383 := by rw [State.entryTaken_box_same]; exact hfree
  have hbreak' : (s.entryTaken m).cfg.breakQps = false := by rw [State.entryTaken_cfg]; exact hbreak
  refine ⟨?_, ?_, fun hhead hop => ?_⟩
  · have h := State.failCmd_completes status detail hfree' hbreak'
    rw [State.entryTaken_entryOf, State.entryTaken_box_same] at h
    exact h
  · have hframe := State.complete_frame status detail ((s.entryTaken m).box m).progress ((s.entryTaken m).resultOf ((s.entryTaken m).entryOf m)) hfree' hbreak'
    have htaken := State.entryTaken_frame s m
    rw [State.failCmd, hframe, htaken]
  · rw [State.failCmd, State.complete_eq _ _ _ _ hfree' hbreak', State.entryTaken_tells hhead hop]
    exact State.entryTaken_fabric hhead hop

/-- Settles O12: what consumption takes, and the first check that fails. -/
theorem consumptionTakesAndChecksEntries : Obligations.ConsumptionTakesAndChecksEntries := by
  refine ⟨fun m s hm hruns hnoted hcur hown hcheck hupdate => ?_, fun m s hm hruns hnoted hcur hown hrom hbreak hwait hfree => ?_⟩
  · have hexec := execMailboxConsume_of_posted hm hruns hnoted hcur hown
    rw [consume_of_pass hcheck hupdate] at hexec
    refine ⟨_, hexec, ?_, fun j hj => ?_, ?_⟩
    · rw [State.entryTaken_box_same, entryBytes_consumeBox, if_pos rfl]
      rfl
    · rw [State.entryTaken_box_same, entryBytes_consumeBox, if_neg hj]
    · rw [State.entryTaken_box_same]
      exact ⟨rfl, rfl, rfl, rfl, rfl, rfl, rfl, rfl, rfl, rfl, rfl, rfl, rfl, fun k hk => State.entryTaken_box_other s hk, State.entryTaken_noted s m,
        State.entryTaken_frame s m, State.entryTaken_fabric⟩
  · have hexec := execMailboxConsume_of_posted hm hruns hnoted hcur hown
    intro e ends
    have hends : ∀ st d, entryCheck s (s.box m) e = some (st, d) → ends st d := fun st d hcheck => by
      rw [consume_of_fail hcheck] at hexec
      obtain ⟨⟨hcur', hwait', hdone, hidle, hstatus, hdetail, -, hrecords, -, hother⟩, hframe, hfabric⟩ := entryTaken_failCmd st d hfree hbreak
      refine ⟨_, hexec, hcur', hwait', hdone, hidle, hstatus, hdetail, ?_, fun k hk => ?_, hframe, hfabric⟩
      · rw [hrecords, State.entryTaken_box_same]
        rfl
      · rw [hother k hk, State.entryTaken_box_other s hk]
    exact ⟨fun hop hv => hends _ _ (entryCheck_of_no_version hop hv), fun hv => ⟨fun hop => hends _ _ (entryCheck_of_undefined hv hop),
      fun hop i hi => hends _ _ (entryCheck_of_reserved hv hrom hop hi),
      fun hop hres i hi => hends _ _ (entryCheck_of_bad_parameter hv hrom hop hres hi)⟩⟩

/-! ### Commands that complete (R72, R78) -/

/-- What completes after the command's effect also completes as seen from before the effect, where the effect left the other mailboxes and the head of the
command's records alone. -/
theorem Completes.of_before {s u t : State} {m status detail progress result : Nat} (h : Completes u t m status detail progress result) (hnow : u.now = s.now)
    (hrecords : (u.box m).records = (s.box m).records) (hopcode : (u.box m).opcode = (s.box m).opcode) (htag : (u.box m).hostTag = (s.box m).hostTag)
    (hother : ∀ k, k ≠ m → u.box k = s.box k) : Completes s t m status detail progress result := by
  obtain ⟨hcur, hwait, hdone, hidle, hstatus, hdetail, hprogress, hcount, hresult, hboxes⟩ := h
  refine ⟨hcur, hwait, hdone, hidle, hstatus, hdetail, hprogress, hrecords ▸ hcount, ?_, fun k hk => (hboxes k hk).trans (hother k hk)⟩
  simpa only [recordBytes, hrecords, hopcode, htag, hnow] using hresult

/-- What completes after an effect that left the mailboxes alone. -/
theorem Completes.of_boxes {s u t : State} {m status detail progress result : Nat} (h : Completes u t m status detail progress result) (hnow : u.now = s.now)
    (hboxes : u.boxes = s.boxes) : Completes s t m status detail progress result := by
  have hbox : ∀ k, u.box k = s.box k := fun k => by rw [State.box, hboxes]; rfl
  exact h.of_before hnow (by rw [hbox]) (by rw [hbox]) (by rw [hbox]) fun k _ => hbox k

/-- Completing a command changes the mailboxes alone, but for the word to the spare. -/
theorem State.complete_changes {s : State} {m : Nat} (status detail progress result : Nat) (hfree : (s.box m).records - (s.box m).readCount < 16383)
    (hbreak : s.cfg.breakQps = false) :
    s.complete m status detail progress result =
      { s with boxes := (s.complete m status detail progress result).boxes, fabric := (s.complete m status detail progress result).fabric } := by
  have hframe := State.complete_frame (s := s) (m := m) status detail progress result hfree hbreak
  rw [hframe]

/-- The result that R78 gives a command whose row names none. -/
theorem State.resultOf_of_no_result {s : State} {e : Bytes} (hop : entryOp e ∉ [0x12, 0x13, 0x20, 0x21, 0x31, 0x32, 0x60, 0x81, 0x82]) : s.resultOf e = 0 := by
  simp only [List.mem_cons, not_or, List.not_mem_nil, not_false_eq_true, and_true] at hop
  simp only [State.resultOf, opSeqAppend, opSeqGenerate, opMotifLoad, opMotifSwitch, opTimeRead, opConfigCommit, opConfigRevert, opFwActivate, opFwRevert]
  simp only [hop, or_self, if_false]

/-- The result of `SEQ_APPEND` and `SEQ_GENERATE` is the token length of the sequence they name. -/
theorem State.resultOf_of_tokens {s : State} {e : Bytes} {q : Seq} (hop : entryOp e = 0x31 ∨ entryOp e = 0x32)
    (hq : s.findSeq (entryMotif e) (entrySeq e) = some q) : s.resultOf e = q.tokens.length := by
  have htokens : s.tokenLength (entryMotif e) (entrySeq e) = q.tokens.length := by
    rw [State.findSeq] at hq
    simp only [State.tokenLength, hq]
  rw [State.resultOf, htokens]
  exact if_pos hop

/-- What completes after a change of the sequences changes nothing else. -/
theorem State.complete_changes_seqs {s : State} {seqs : Seqs} {m : Nat} (status detail progress result : Nat)
    (hfree : (s.box m).records - (s.box m).readCount < 16383) (hbreak : s.cfg.breakQps = false) :
    let t := ({ s with seqs := seqs } : State).complete m status detail progress result
    t = { s with boxes := t.boxes, seqs := t.seqs, fabric := t.fabric } := by
  have hchanges := State.complete_changes (s := { s with seqs := seqs }) (m := m) status detail progress result hfree hbreak
  intro t
  rw [show t = _ from hchanges]

/-- What the host sees of it is that the command completes. -/
theorem State.complete_completes_seqs {s : State} {seqs : Seqs} {m : Nat} (status detail progress result : Nat)
    (hfree : (s.box m).records - (s.box m).readCount < 16383) (hbreak : s.cfg.breakQps = false) :
    Completes s (({ s with seqs := seqs } : State).complete m status detail progress result) m status (detail % 2 ^ 32) progress result :=
  (State.complete_completes (s := { s with seqs := seqs }) status detail progress result hfree hbreak).of_boxes rfl rfl

theorem Ready.entryOp_eq {s : State} {m op : Nat} {e : Bytes} (h : Ready s m op e) : entryOp e = op := by
  obtain ⟨-, -, -, hop, -⟩ := h
  exact hop

/-- The result of a command that can run and whose opcode R78 gives none. -/
theorem Ready.no_result {s : State} {m op : Nat} {e : Bytes} (h : Ready s m op e) (hop : op ∉ [0x12, 0x13, 0x20, 0x21, 0x31, 0x32, 0x60, 0x81, 0x82]) :
    s.resultOf e = 0 :=
  State.resultOf_of_no_result (h.entryOp_eq.symm ▸ hop)

/-- A command that can run and fails completes with its status and changes nothing else. -/
theorem Ready.failCmd {s : State} {m op : Nat} {e : Bytes} (h : Ready s m op e) (status detail : Nat) {d r : Nat} (hd : detail % 2 ^ 32 = d)
    (hr : s.resultOf e = r) :
    Completes s (s.failCmd m status detail) m status d (s.box m).progress r ∧
      s.failCmd m status detail = { s with boxes := (s.failCmd m status detail).boxes, fabric := (s.failCmd m status detail).fabric } := by
  have hcompletes := State.failCmd_completes status detail h.free h.breakQps
  rw [h.entryOf, hd, hr] at hcompletes
  exact ⟨hcompletes, State.complete_changes _ _ _ _ h.free h.breakQps⟩

/-- A command that can run and completes changes nothing else. -/
theorem Ready.complete {s : State} {m op : Nat} {e : Bytes} (h : Ready s m op e) (status detail progress result : Nat) {d : Nat} (hd : detail % 2 ^ 32 = d) :
    Completes s (s.complete m status detail progress result) m status d progress result ∧
      s.complete m status detail progress result =
        { s with boxes := (s.complete m status detail progress result).boxes, fabric := (s.complete m status detail progress result).fabric } :=
  ⟨hd ▸ State.complete_completes status detail progress result h.free h.breakQps, State.complete_changes _ _ _ _ h.free h.breakQps⟩

theorem field_lt (e : Bytes) (off len : Nat) : field e off len < 256 ^ len := by
  have hofLE : ∀ l : Bytes, ofLE l < 256 ^ l.length := by
    intro l
    induction l with
    | nil => exact Nat.one_pos
    | cons b l ih =>
      have hb := b.isLt
      rw [ofLE, List.length_cons, Nat.pow_succ]
      omega
  exact (hofLE _).trans_le (Nat.pow_le_pow_right (by decide) (List.length_take_le _ _))

theorem SeqState.code_mod (st : SeqState) : st.code % 2 ^ 32 = st.code := by cases st <;> rfl

/-! ### The table of sequences (R23, R24) -/

section MapFirst
variable {α : Type} {p r : α → Bool} {f : α → α}

/-- The first element that meets `p` is replaced where it stands. -/
theorem find?_mapFirst_same {l : List α} {a : α} (h : l.find? p = some a) (hf : p (f a) = true) : (mapFirst p f l).find? p = some (f a) := by
  induction l with
  | nil => cases h
  | cons x l ih =>
    by_cases hx : p x = true
    · rw [List.find?_cons_of_pos hx, Option.some.injEq] at h
      rw [mapFirst, if_pos hx, h, List.find?_cons_of_pos hf]
    · rw [List.find?_cons_of_neg hx] at h
      rw [mapFirst, if_neg hx, List.find?_cons_of_neg hx, ih h]

/-- A search that neither the element replaced nor its new value meets finds what it found. -/
theorem find?_mapFirst_other (l : List α) (h : ∀ x, p x = true → r x = false ∧ r (f x) = false) : (mapFirst p f l).find? r = l.find? r := by
  induction l with
  | nil => rfl
  | cons x l ih =>
    by_cases hx : p x = true
    · obtain ⟨hrx, hrf⟩ := h x hx
      rw [mapFirst, if_pos hx, List.find?_cons_of_neg (by simp [hrf]), List.find?_cons_of_neg (by simp [hrx])]
    · rw [mapFirst, if_neg hx, List.find?_cons, List.find?_cons, ih]

end MapFirst

theorem State.findSeq_spec {s : State} {motif id : Nat} {q : Seq} (h : s.findSeq motif id = some q) : q.motif = motif ∧ q.id = id ∧ q.companion = none := by
  have hq := List.find?_some h
  exact of_decide_eq_true hq

theorem State.findCompanion_spec {s : State} {draft main id : Nat} {c : Seq} (h : s.findCompanion draft main id = some c) :
    c.motif = draft ∧ c.id = id ∧ c.companion = some main := by
  have hc := List.find?_some h
  exact of_decide_eq_true hc

theorem State.findSeq_congr {s t : State} (h : t.seqs.open_ = s.seqs.open_) (motif id : Nat) : t.findSeq motif id = s.findSeq motif id := by
  rw [State.findSeq, h, State.findSeq]

theorem State.findCompanion_congr {s t : State} (h : t.seqs.open_ = s.seqs.open_) (draft main id : Nat) :
    t.findCompanion draft main id = s.findCompanion draft main id := by
  rw [State.findCompanion, h, State.findCompanion]

theorem seqIs_eq (q : Seq) : seqIs q = fun x => decide (x.motif = q.motif ∧ x.id = q.id ∧ x.companion = q.companion) := by
  funext x
  simp only [seqIs, eq_comm]

/-- A sequence of the table reads as its new value once it is replaced. -/
theorem State.findSeq_putSeq {s : State} {q q0 : Seq} (h : s.findSeq q.motif q.id = some q0) (hc : q.companion = none) :
    (s.putSeq q).findSeq q.motif q.id = some q := by
  have hpred : seqIs q = fun x => decide (x.motif = q.motif ∧ x.id = q.id ∧ x.companion = none) := by rw [seqIs_eq, hc]
  unfold State.findSeq State.putSeq at *
  rw [← hpred] at h ⊢
  exact find?_mapFirst_same h (by simp [seqIs])

theorem State.findCompanion_putSeq {s : State} {c c0 : Seq} {main : Nat} (h : s.findCompanion c.motif main c.id = some c0) (hc : c.companion = some main) :
    (s.putSeq c).findCompanion c.motif main c.id = some c := by
  have hpred : seqIs c = fun x => decide (x.motif = c.motif ∧ x.id = c.id ∧ x.companion = some main) := by rw [seqIs_eq, hc]
  unfold State.findCompanion State.putSeq at *
  rw [← hpred] at h ⊢
  exact find?_mapFirst_same h (by simp [seqIs])

/-- Replacing a companion leaves every host sequence. -/
theorem State.findSeq_putSeq_companion {s : State} {c : Seq} (hc : c.companion ≠ none) (motif id : Nat) : (s.putSeq c).findSeq motif id = s.findSeq motif id := by
  refine find?_mapFirst_other _ fun x hx => ?_
  have hx' : c.companion = x.companion := (of_decide_eq_true hx).2.2
  exact ⟨decide_eq_false fun h => hc (hx'.trans h.2.2), decide_eq_false fun h => hc h.2.2⟩

/-- Replacing a host sequence leaves every companion. -/
theorem State.findCompanion_putSeq_main {s : State} {q : Seq} (hq : q.companion = none) (draft main id : Nat) :
    (s.putSeq q).findCompanion draft main id = s.findCompanion draft main id := by
  refine find?_mapFirst_other _ fun x hx => ?_
  have hx' : q.companion = x.companion := (of_decide_eq_true hx).2.2
  refine ⟨decide_eq_false fun h => ?_, decide_eq_false fun h => ?_⟩
  · rw [← hx', hq] at h
    cases h.2.2
  · rw [hq] at h
    cases h.2.2

/-! ### The way of a sequence command to its effect (R21, R52, R62) -/

theorem seqCommand_ready {s : State} {m op : Nat} {e : Bytes} (h : Ready s m op e) (hw : s.seqWaits m = false) (f : State → State) :
    seqCommand m op s f = .next (f s) := by
  rw [seqCommand, command_ready h]
  simp only [hw]
  rfl

theorem State.onMotif_of_ok {s : State} {m motif : Nat} {p : Pricking} (hv : s.take.vacatedTo = none) (hp : s.seqMotif motif = some (.ok p))
    (f : Pricking → State) : s.onMotif m motif f = f p := by
  simp [State.onMotif, hv, hp]

theorem State.onSeq_of_open {s : State} {m op : Nat} {e : Bytes} {p : Pricking} {q : Seq} (h : Ready s m op e) (hv : s.take.vacatedTo = none)
    (hp : s.seqMotif (field e 8 1) = some (.ok p)) (hq : s.findSeq (field e 8 1) (field e 0xC 3) = some q) (f : Pricking → Seq → State) :
    s.onSeq m f = f p q := by
  have hfind : s.findSeq (entryMotif e) (entrySeq e) = some q := hq
  rw [State.onSeq, h.entryOf]
  refine (State.onMotif_of_ok (motif := entryMotif e) hv hp _).trans ?_
  simp only [hfind]

theorem State.onPages_of_whole {s : State} {m op : Nat} {e : Bytes} {p : Pricking} {q : Seq} (h : Ready s m op e) (hv : s.take.vacatedTo = none)
    (hp : s.seqMotif (field e 8 1) = some (.ok p)) (hq : s.findSeq (field e 8 1) (field e 0xC 3) = some q) (hb : s.beyond p q = false)
    (f : Pricking → Seq → State) : s.onPages m f = f p q := by
  rw [State.onPages, State.onSeq_of_open h hv hp hq, hb]
  rfl

/-! ### SEQ_OPEN and SEQ_CLOSE (R22, R23, R28, R30) -/

/-- The sequence that a `SEQ_OPEN` with entry `e` creates (R22). -/
def openedSeq (e : Bytes) : Seq :=
  Seq.start (entryMotif e) (entrySeq e) (field e 0x10 8) (decide (field e 0x09 1 = 1)) (draftOf e) none (samplingOf e 0x18)

/-- The table with the sequence a `SEQ_OPEN` creates, and its companion where it names a draft motif (R22, R37). -/
def State.seqOpened (s : State) (e : Bytes) : State :=
  match draftOf e with
  | none => s.addSeq (openedSeq e)
  | some d => (s.addSeq (openedSeq e)).addSeq (companionOf (openedSeq e) d)

theorem State.seqOpened_eq (s : State) (e : Bytes) :
    s.seqOpened e = { s with seqs := { s.seqs with
      open_ := s.seqs.open_ ++ [openedSeq e] ++ (if field e 0xA 1 = 0xFF then [] else [companionOf (openedSeq e) (field e 0xA 1)]) } } := by
  by_cases hd : field e 0xA 1 = 0xFF
  · simp [State.seqOpened, draftOf, hd, State.addSeq]
  · simp [State.seqOpened, draftOf, hd, State.addSeq]

section Open
variable {s : State} {m : Nat} {e : Bytes} {p : Pricking} (h : Ready s m 0x30 e) (hw : s.seqWaits m = false) (hv : s.take.vacatedTo = none)
  (hp : s.seqMotif (field e 8 1) = some (.ok p)) (hreshape : s.fabric.reshape = none)
include h hw hv hp hreshape

theorem exec_seqOpen_refused {st d : Nat} (hr : openRefusal s p (entryMotif e) (entrySeq e) (draftOf e) = some (some (st, d))) :
    exec (.seqOpen m) s = .next (s.failCmd m st d) := by
  have hrow : Ready s m opSeqOpen e := h
  show execSeqOpen m s = _
  rw [execSeqOpen, seqCommand_ready hrow hw, h.entryOf]
  refine congrArg _ ((State.onMotif_of_ok (motif := entryMotif e) hv hp _).trans ?_)
  simp [hreshape, hr]

theorem exec_seqOpen_accepted (hr : openRefusal s p (entryMotif e) (entrySeq e) (draftOf e) = some none) :
    exec (.seqOpen m) s = .next ((s.seqOpened e).okCmd m 0) := by
  have hrow : Ready s m opSeqOpen e := h
  show execSeqOpen m s = _
  rw [execSeqOpen, seqCommand_ready hrow hw, h.entryOf]
  refine congrArg _ ((State.onMotif_of_ok (motif := entryMotif e) hv hp _).trans ?_)
  simp only [hreshape, hr, Option.isSome_none, Bool.false_and]
  rfl

end Open

theorem openRefusal_of_open {s : State} {p : Pricking} {motif id : Nat} (draft : Option Nat) (hopen : (s.findSeq motif id).isSome = true) :
    openRefusal s p motif id draft = some (some (0x0202, 0)) := if_pos hopen

/-- With a free id, and a draft motif of the same vocabulary if any, the number of open sequences decides (R23). -/
theorem openRefusal_of_free {s : State} {p : Pricking} {motif id : Nat} {draft : Option Nat} (hfree : s.findSeq motif id = none)
    (hdraft : ∀ d, draft = some d → (s.motif d).state = 2 ∧ (s.motif d).vocabDigest = p.vocabDigest) :
    openRefusal s p motif id draft = if 4096 ≤ s.openCount then some (some (0x0300, 0)) else some none := by
  have hnone : ¬ (s.findSeq motif id).isSome = true := by simp [hfree]
  rw [openRefusal, if_neg hnone]
  cases draft with
  | none => rfl
  | some d =>
    obtain ⟨hstate, hvocab⟩ := hdraft d rfl
    simp [hstate, hvocab]
    rfl

/-- A draft motif that is not resident here with the vocabulary of the main one, and that no other member may hold (R23). -/
theorem openRefusal_of_vocabulary {s : State} {p : Pricking} {motif id d : Nat} (hfree : s.findSeq motif id = none) (hloading : (s.motif d).state ≠ 1)
    (hload : s.loadConsumed d = false) (halone : (s.motif d).state = 0 → ∀ x ∈ s.cfg.cur.members, x.machineId = s.machineId)
    (hbad : (s.motif d).state ≠ 2 ∨ (s.motif d).vocabDigest ≠ p.vocabDigest) :
    openRefusal s p motif id (some d) = some (some (0x0106, d)) := by
  have hnone : ¬ (s.findSeq motif id).isSome = true := by simp [hfree]
  have hremote : ¬ ((s.motif d).state = 0 ∧ s.cfg.cur.members.any (fun x => x.machineId ≠ s.machineId) ∧
      Config.remote d p.vocabDigest s.boxes.consumed 30 0 % 2 = 1) := by
    rintro ⟨hempty, hany, -⟩
    obtain ⟨x, hx, hne⟩ := List.any_eq_true.1 hany
    exact of_decide_eq_true hne (halone hempty x hx)
  rw [openRefusal, if_neg hnone]
  simp only [hload]
  rw [if_neg (by simp [hloading]), if_neg hremote, if_pos hbad]
  rfl

theorem draftOf_eq_some {e : Bytes} {d : Nat} : draftOf e = some d ↔ field e 0xA 1 ≠ 0xFF ∧ field e 0xA 1 = d := by
  rw [draftOf]
  split <;> simp_all

/-! What a `SEQ_CLOSE` does. -/

/-- The entries of a table after a write are the one written and the old ones. -/
theorem Tab.mem_put {α : Type} [DecidableEq α] {d : α} {t : Tab α} {k : Nat} {v : α} {e : Nat × α} (h : e ∈ Tab.put d t k v) : e = (k, v) ∨ e ∈ t := by
  have hinsert : ∀ u : Tab α, e ∈ Tab.insert u k v → e = (k, v) ∨ e ∈ u := by
    intro u
    induction u with
    | nil => simp [Tab.insert]
    | cons x u ih =>
      rw [Tab.insert]
      split
      · simp
      · intro hmem
        rcases List.mem_cons.1 hmem with rfl | hmem
        · exact .inr (List.mem_cons_self ..)
        · exact (ih hmem).imp_right (List.mem_cons_of_mem _)
  unfold Tab.put at h
  split at h
  · exact .inr (List.mem_filter.1 h).1
  · exact (hinsert _ h).imp_right fun hmem => (List.mem_filter.1 hmem).1

/-- A sequence as a `SEQ_CLOSE` on mailbox `m` leaves it while it waits (R28). -/
def Seq.closingFor (q : Seq) (m : Nat) : Seq := { q with state := .closing, closeBox := some m }

/-- The state once a `SEQ_CLOSE` has begun. -/
def State.closeBegun (s : State) (m : Nat) (q : Seq) : State := (s.putSeq (q.closingFor m)).setCmd m fun c => { c with begun := true }

/-- With no append that fetches its buffer a close ends none (R68). -/
theorem State.cancelFetch_of_no_fetch {s : State} (h : ∀ b ∈ s.boxes.box, ∀ c, b.2.cur = some c → fetching c = false) (q : Seq) : s.cancelFetch q = s := by
  have hnone : (s.boxes.box.filter fun e => namesSeq e.2 q.motif q.id && (e.2.cur.map fetching).getD false) = [] := by
    refine List.filter_eq_nil_iff.2 fun b hb => ?_
    cases hcur : b.2.cur with
    | none => simp
    | some c => simp [h b hb c hcur]
  rw [State.cancelFetch, hnone]
  rfl

theorem State.closeBegun_no_fetch {s : State} {m : Nat} (h : ∀ b ∈ s.boxes.box, ∀ c, b.2.cur = some c → fetching c = false) (q : Seq) :
    ∀ b ∈ (s.closeBegun m q).boxes.box, ∀ c, b.2.cur = some c → fetching c = false := by
  intro b hb c hc
  rcases Tab.mem_put hb with rfl | hold
  · obtain ⟨d, -, rfl⟩ := Option.map_eq_some_iff.1 hc
    simp [fetching]
  · exact h b hold c hc

section Close
variable {s : State} {m : Nat} {e : Bytes} {p : Pricking} {q : Seq} (h : Ready s m 0x34 e) (hw : s.seqWaits m = false) (hv : s.take.vacatedTo = none)
  (hp : s.seqMotif (field e 8 1) = some (.ok p)) (hq : s.findSeq (field e 8 1) (field e 0xC 3) = some q)
include h hw hv hp hq

theorem exec_seqClose_refused (hstate : q.state = .closing) (hbox : q.closeBox ≠ some m) : exec (.seqClose m) s = .next (s.failCmd m 0x0203 3) := by
  have hrow : Ready s m opSeqClose e := h
  show execSeqClose m s = _
  rw [execSeqClose, seqCommand_ready hrow hw, State.onSeq_of_open h hv hp hq]
  simp only [hstate, if_true, if_neg hbox]
  rfl

theorem exec_seqClose_begins (hfetch : ∀ b ∈ s.boxes.box, ∀ c, b.2.cur = some c → fetching c = false) (hstate : q.state ≠ .closing) :
    exec (.seqClose m) s =
      .next (((s.seqInFlight (seqTag q)).foldl (fun u r => u.closeRecalled r) (s.closeBegun m q)).finishClose (q.closingFor m)) := by
  have hrow : Ready s m opSeqClose e := h
  show execSeqClose m s = _
  rw [execSeqClose, seqCommand_ready hrow hw, State.onSeq_of_open h hv hp hq, if_neg hstate]
  have hcancel := State.cancelFetch_of_no_fetch (State.closeBegun_no_fetch (m := m) hfetch q) q
  exact congrArg (fun u => Host.Outcome.next (((s.seqInFlight (seqTag q)).foldl (fun u r => u.closeRecalled r) u).finishClose (q.closingFor m))) hcancel

end Close

theorem State.seqBusy_congr {s t : State} (h : t.steps = s.steps) {q q' : Seq} (htag : seqTag q' = seqTag q) : t.seqBusy q' = s.seqBusy q := by
  rw [State.seqBusy, State.seqInFlight, h, htag]
  rfl

/-- A close with no step in flight and no command of the sequence to end completes (R28). -/
theorem State.finishClose_of_idle {s : State} {q : Seq} {m : Nat} (hstate : q.state = .closing) (hidle : s.seqBusy q = false) (hgen : q.gen = none)
    (happend : q.append = none) (hbox : q.closeBox = some m) : s.finishClose q = (s.dropSeq q).okCmd m 0 := by
  simp [State.finishClose, State.endWork, hstate, hidle, hgen, happend, hbox]

theorem State.finishClose_of_busy {s : State} {q : Seq} (hbusy : s.seqBusy q = true) : s.finishClose q = s := if_neg fun h => h.2 hbusy

theorem State.finishClose_of_not_closing {s : State} {q : Seq} (hstate : q.state ≠ .closing) : s.finishClose q = s := if_neg fun h => hstate h.1

theorem State.findSeq_dropSeq (s : State) (q : Seq) : (s.dropSeq q).findSeq q.motif q.id = none := by
  rw [State.findSeq, List.find?_eq_none]
  intro x hx hname
  have hmine := (List.mem_filter.1 hx).2
  simp [of_decide_eq_true hname] at hmine

theorem State.closeBegun_dropSeq_box (s : State) (m : Nat) (q q' : Seq) (k : Nat) :
    ((s.closeBegun m q).dropSeq q').box k = if k = m then { s.box m with cur := (s.box m).cur.map fun c => { c with begun := true } } else s.box k :=
  State.setCmd_box _ m _ k

/-- A close that ends at once: its command completes, and the id is free (R28). -/
theorem State.closeBegun_completes {s : State} {m : Nat} {e : Bytes} (h : Ready s m 0x34 e) (q q' : Seq) :
    Completes s (((s.closeBegun m q).dropSeq q').okCmd m 0) m 0 0 (s.box m).target 0 := by
  have hbox := State.closeBegun_dropSeq_box s m q q'
  have hdone := State.okCmd_completes (s := (s.closeBegun m q).dropSeq q') (m := m) 0 (by rw [hbox, if_pos rfl]; exact h.free) h.breakQps
  rw [hbox m, if_pos rfl] at hdone
  exact hdone.of_before rfl (by rw [hbox, if_pos rfl]) (by rw [hbox, if_pos rfl]) (by rw [hbox, if_pos rfl]) fun k hk => by rw [hbox, if_neg hk]

/-- `SEQ_OPEN` of a free id opens the sequence, changes nothing else and completes (R22). -/
theorem State.seqOpened_completes {s : State} {m : Nat} {e : Bytes} (h : Ready s m 0x30 e) :
    let t := (s.seqOpened e).okCmd m 0
    t.seqs = (s.seqOpened e).seqs ∧ Completes s t m 0 0 (s.box m).target 0 ∧ t = { s with boxes := t.boxes, seqs := t.seqs, fabric := t.fabric } := by
  rw [State.seqOpened_eq]
  exact ⟨State.okCmd_seqs .., State.complete_completes_seqs 0 0 _ 0 h.free h.breakQps, State.complete_changes_seqs 0 0 _ 0 h.free h.breakQps⟩

/-- Settles O16: what `SEQ_OPEN` creates and what refuses it; a close with and without a step in flight. -/
theorem sequencesOpenAndClose : Obligations.SequencesOpenAndClose := by
  refine ⟨fun m e p s h hw hv hp hreshape hfree hroom hdraft => ?_, fun m e p s h hw hv hp hreshape hdraft => ?_,
    fun m e p q s h hw hv hp hq hfetch => ⟨fun hstate hgen happend hidle => ?_, fun k hstate hbox hk => ?_, fun hstate hone => ?_⟩⟩
  · have haccepted : openRefusal s p (entryMotif e) (entrySeq e) (draftOf e) = some none := by
      refine (openRefusal_of_free hfree fun d hd => ?_).trans (if_neg (by omega))
      obtain ⟨hne, rfl⟩ := draftOf_eq_some.1 hd
      exact hdraft hne
    obtain ⟨hseqs, hdone, hframe⟩ := State.seqOpened_completes h
    refine ⟨_, openedSeq e, exec_seqOpen_accepted h hw hv hp hreshape haccepted, rfl, rfl, rfl, rfl, ?_, hdone, hframe⟩
    rw [hseqs, State.seqOpened_eq]
  · intro fails exists_ vocab
    have hresult : s.resultOf e = 0 := h.no_result (by decide)
    have hfails : ∀ st d, openRefusal s p (entryMotif e) (entrySeq e) (draftOf e) = some (some (st, d)) → d % 2 ^ 32 = d → fails st d :=
      fun st d hr hd => ⟨_, exec_seqOpen_refused h hw hv hp hreshape hr, h.failCmd st d hd hresult⟩
    have hnone : ¬ exists_ → s.findSeq (entryMotif e) (entrySeq e) = none := fun hne => Option.not_isSome_iff_eq_none.1 hne
    refine ⟨fun hex => hfails _ _ (openRefusal_of_open _ hex) rfl, fun hex hvoc => ?_, fun hex hvoc hfull => ?_⟩
    · obtain ⟨hne, hbad⟩ := hvoc
      obtain ⟨hloading, hload, halone⟩ := hdraft _ rfl hne
      refine hfails _ _ ?_ (Nat.mod_eq_of_lt ((field_lt e 0xA 1).trans (by decide)))
      rw [draftOf_eq_some.2 ⟨hne, rfl⟩]
      exact openRefusal_of_vocabulary (hnone hex) hloading hload halone hbad
    · refine hfails _ _ ((openRefusal_of_free (hnone hex) fun d hd => ?_).trans (if_pos hfull)) rfl
      obtain ⟨hne, rfl⟩ := draftOf_eq_some.1 hd
      exact ⟨by_contra fun hbad => hvoc ⟨hne, .inl hbad⟩, by_contra fun hbad => hvoc ⟨hne, .inr hbad⟩⟩
  · have hnoflight : s.seqInFlight (seqTag q) = [] := by simpa [State.seqBusy] using hidle
    have hidle' : (s.closeBegun m q).seqBusy (q.closingFor m) = false := (State.seqBusy_congr rfl rfl).trans hidle
    have hexec := exec_seqClose_begins h hw hv hp hq hfetch (by rw [hstate]; nofun)
    rw [hnoflight, List.foldl_nil, State.finishClose_of_idle rfl hidle' hgen happend rfl] at hexec
    refine ⟨_, hexec, State.closeBegun_completes h q _, ?_, congrArg Seqs.frames (State.okCmd_seqs ..), State.okCmd_mem ..⟩
    exact (State.findSeq_congr (congrArg Seqs.open_ (State.okCmd_seqs ..)) _ _).trans (State.findSeq_dropSeq _ (q.closingFor m))
  · have hother : q.closeBox ≠ some m := by rw [hbox]; simpa using hk
    exact ⟨_, exec_seqClose_refused h hw hv hp hq hstate hother, h.failCmd _ _ rfl (h.no_result (by decide))⟩
  · obtain ⟨r, hflight, hreplay⟩ := hone
    have hbusy : (s.closeBegun m q).seqBusy (q.closingFor m) = true :=
      (State.seqBusy_congr (s := s) (q := q) rfl rfl).trans (by simp [State.seqBusy, hflight])
    have hrecalled : (s.closeBegun m q).closeRecalled r = s.closeBegun m q := by simp [State.closeRecalled, hreplay]
    have hexec := exec_seqClose_begins h hw hv hp hq hfetch hstate
    rw [hflight, List.foldl_cons, List.foldl_nil, hrecalled, State.finishClose_of_busy hbusy] at hexec
    obtain ⟨hmotif, hid, hcompanion⟩ := State.findSeq_spec hq
    rw [← hmotif, ← hid] at hq
    exact ⟨_, hexec, State.findSeq_putSeq (q := q.closingFor m) hq hcompanion, fun k hk => (State.setCmd_box _ m _ k).trans (if_neg hk), rfl⟩

/-! ### SEQ_APPEND and SEQ_FORK (R25, R27, R31, R32, R63) -/

theorem firstBeyond_eq_none {vocab : Nat} {ids : List Nat} (h : ids.all (fun x => decide (x < vocab)) = true) : firstBeyond vocab ids = none := by
  refine List.find?_eq_none.2 fun i hi => ?_
  have hlt := List.mem_range.1 hi
  have hmem : ids.getD i 0 ∈ ids := by
    rw [List.getD_eq_getElem _ _ hlt]
    exact List.getElem_mem hlt
  have hbelow := of_decide_eq_true (List.all_eq_true.1 h _ hmem)
  simpa using hbelow

/-- A command's buffer is read over the queue pair that posted it, where that has room for one more read (R63, R341). -/
theorem State.readBuffer_of_room {s : State} {m : Nat} {c : Cmd} (hcur : (s.box m).cur = some c) (hcont : c.continued = false) (hqp : s.qpOk c.qp = true)
    (hroom : s.readRoom c.qp = true) (len : Nat) :
    s.readBuffer m len =
      (s.setCmd m fun d => { d with xfer := .reading, want := len, via := c.qp }).toHost (.readRequest c.qp 0 m (bufAddr c.entry) (bufRkey c.entry) len) := by
  simp [State.readBuffer, hcur, State.cmdQp, hcont, State.startRead, hqp, hroom]

theorem State.readBuffer_of_no_room {s : State} {m : Nat} {c : Cmd} (hcur : (s.box m).cur = some c) (hcont : c.continued = false) (hqp : s.qpOk c.qp = true)
    (hroom : s.readRoom c.qp = false) (len : Nat) : s.readBuffer m len = s := by
  simp [State.readBuffer, hcur, State.cmdQp, hcont, State.startRead, hqp, hroom]

/-- A sequence that appends `rest` to its tokens, for the command on mailbox `m` (R32). -/
def Seq.appendingFor (q : Seq) (m : Nat) (tokens rest : List Nat) : Seq :=
  { q with
    tokens := tokens
    state := .appending
    append := some { mailbox := m, tokens := rest, target := rest.length, started := 0, committed := 0 } }

/-- The state with a sequence in its new value, for which the command on mailbox `m` has begun with a progress target. -/
def State.seqBegun (s : State) (m : Nat) (q : Seq) (target : Nat) : State :=
  ((s.putSeq q).setCmd m fun c => { c with begun := true }).setTarget m target

theorem State.seqBegun_box (s : State) (m : Nat) (q : Seq) (target k : Nat) :
    (s.seqBegun m q target).box k =
      if k = m then touchBox { s.box m with cur := (s.box m).cur.map fun c => { c with begun := true }, target := target } s.now else s.box k := by
  rw [State.seqBegun, State.setTarget, State.update_box]
  split
  · rw [State.setCmd_box, if_pos rfl]
    rfl
  · next hk => rw [State.setCmd_box, if_neg hk]; rfl

theorem State.beginAppend_of_tokens {s : State} {m : Nat} {q : Seq} {ids : List Nat} (hq : q.tokens ≠ []) (hids : ids ≠ []) :
    s.beginAppend m q ids = (s.seqBegun m (q.appendingFor m q.tokens ids) ids.length).headSync 0 m (s.entryOf m) ids := by
  have hfirst : decide (q.tokens = []) = false := decide_eq_false hq
  simp only [State.beginAppend, hfirst]
  exact if_neg hids

/-- One token of an empty sequence becomes its pending token, and the append ends (R32). -/
theorem State.beginAppend_of_one {s : State} {m : Nat} {q : Seq} {ids : List Nat} (hq : q.tokens = []) (hids : ids.length = 1) :
    s.beginAppend m q ids =
      ((s.seqBegun m (q.appendingFor m ids []) 0).headSync 0 m (s.entryOf m) ids).endWork (q.appendingFor m ids []) 0 0 := by
  obtain ⟨x, rfl⟩ := List.length_eq_one_iff.1 hids
  simp only [State.beginAppend, hq]
  rfl

section Append
variable {s : State} {m : Nat} {c : Cmd} {p : Pricking} {q : Seq} (h : Ready s m 0x31 c.entry) (hcur : (s.box m).cur = some c) (hbegun : c.begun = false)
  (hw : s.seqWaits m = false) (hv : s.take.vacatedTo = none) (hp : s.seqMotif (field c.entry 8 1) = some (.ok p))
  (hq : s.findSeq (field c.entry 8 1) (field c.entry 0xC 3) = some q) (hb : s.beyond p q = false)
include h hcur hbegun hw hv hp hq hb

theorem exec_seqAppend_fetches (hx : c.xfer = .none) : exec (.seqAppend m) s = .next (s.readBuffer m (bufLen c.entry)) := by
  have hrow : Ready s m opSeqAppend c.entry := h
  show execSeqAppend m s = _
  rw [execSeqAppend, seqCommand_ready hrow hw]
  simp only [hcur, hbegun, State.onPages_of_whole h hv hp hq hb, hx]
  rfl

theorem exec_seqAppend_not_fetched (hx : c.xfer = .readFailed) : exec (.seqAppend m) s = .next (s.failCmd m 0x0400 s.machineId) := by
  have hrow : Ready s m opSeqAppend c.entry := h
  show execSeqAppend m s = _
  rw [execSeqAppend, seqCommand_ready hrow hw]
  simp only [hcur, hbegun, State.onPages_of_whole h hv hp hq hb, hx]
  rfl

variable (hx : c.xfer = .readDone) (hids : (tokensOf c.data).all (fun x => decide (x < p.vocabSize)) = true)
include hx hids

theorem exec_seqAppend_fetched : exec (.seqAppend m) s = .next (
    if q.state ≠ .opened then s.failCmd m 0x0203 q.state.code
    else if 16777216 < q.tokens.length + (tokensOf c.data).length then s.failCmd m 0x0301 0
    else s.beginAppend m q (tokensOf c.data)) := by
  have hrow : Ready s m opSeqAppend c.entry := h
  show execSeqAppend m s = _
  rw [execSeqAppend, seqCommand_ready hrow hw]
  simp only [hcur, hbegun, State.onPages_of_whole h hv hp hq hb, hx, firstBeyond_eq_none hids]
  rfl

end Append

/-- An append that begins: the sequence is in its new value, the command has its target, and nothing else changes but for the word to the spare. -/
theorem State.seqBegun_headSync_frame (s : State) (m : Nat) (q : Seq) (target : Nat) (e : Bytes) (l : List Nat) :
    let t := (s.seqBegun m q target).headSync 0 m e l
    t = { s with boxes := t.boxes, seqs := t.seqs, fabric := t.fabric } := by
  apply State.ext_fields <;> simp [State.seqBegun, State.putSeq]

/-- An append that ends: its command completes, and the sequence is OPEN with the tokens it has (R32). -/
theorem State.endWork_of_append {s : State} {q : Seq} {a : AppendInfo} (status detail : Nat) (hgen : q.gen = none) (happend : q.append = some a)
    (hstate : q.state ≠ .closing) (hq : ∃ q0, s.findSeq q.motif q.id = some q0) (hcompanion : q.companion = none)
    (hfree : (s.box a.mailbox).records - (s.box a.mailbox).readCount < 16383) (hbreak : s.cfg.breakQps = false) :
    (s.endWork q status detail).findSeq q.motif q.id = some { q with state := .opened, append := none, gen := none } ∧
    Completes s (s.endWork q status detail) a.mailbox status (detail % 2 ^ 32) a.committed q.tokens.length := by
  obtain ⟨q0, hq0⟩ := hq
  simp only [State.endWork, hgen, happend, if_neg hstate]
  refine ⟨?_, ?_⟩
  · rw [State.findSeq_congr (congrArg Seqs.open_ (State.complete_seqs ..))]
    exact State.findSeq_putSeq (q := { q with state := .opened, append := none, gen := none }) hq0 hcompanion
  · refine (State.complete_completes status detail a.committed q.tokens.length ?_ ?_).of_boxes rfl rfl
    · exact hfree
    · exact hbreak

/-- An append of one token to an empty sequence begins and ends in one: nothing of it is left to step (R32). -/
theorem State.append_of_one_ends {s : State} {m op : Nat} {e : Bytes} (h : Ready s m op e) {q q0 : Seq} (hq : s.findSeq q.motif q.id = some q0)
    (hcompanion : q.companion = none) (hgen : q.gen = none) (tokens : List Nat) (entry : Bytes) :
    let q' := q.appendingFor m tokens []
    let u := (s.seqBegun m q' 0).headSync 0 m entry tokens
    (u.endWork q' 0 0).findSeq q.motif q.id = some { q' with state := .opened, append := none, gen := none } ∧
      Completes u (u.endWork q' 0 0) m 0 0 0 tokens.length := by
  intro q' u
  have hfind : u.findSeq q.motif q.id = some q' := by
    rw [State.findSeq_congr (congrArg Seqs.open_ (State.headSync_seqs ..))]
    exact State.findSeq_putSeq (q := q') hq hcompanion
  have hfree : (u.box m).records - (u.box m).readCount < 16383 := by
    rw [State.headSync_box, State.seqBegun_box, if_pos rfl]
    exact h.free
  have hbreak : u.cfg.breakQps = false := by
    rw [State.headSync_cfg]
    exact h.breakQps
  exact State.endWork_of_append (q := q') 0 0 hgen rfl nofun ⟨_, hfind⟩ hcompanion hfree hbreak

/-- The frames of a host-managed sequence without a draft motif are the host's (R216). -/
theorem State.framesOfSeq_of_host {s : State} {q : Seq} (hhost : q.hostPages = true) (hdraft : q.draft = none) : s.framesOfSeq q = [] := by
  have hnone : (s.seqs.frames.filter fun f => (!q.hostPages && decide (f.motif = q.motif ∧ f.seq = q.id ∧ f.companion = none)) ||
      decide (q.draft = some f.motif ∧ f.seq = q.id ∧ f.companion = some q.motif)) = [] :=
    List.filter_eq_nil_iff.2 fun f _ => by simp [hhost, hdraft]
  rw [State.framesOfSeq, hnone, List.mergeSort_nil]

/-- The fork of a sequence that a `SEQ_FORK` with entry `e` on mailbox `m` creates (R31). -/
def State.forkedSeq (s : State) (m : Nat) (q : Seq) (e : Bytes) : Seq :=
  { Seq.start q.motif (field e 0x10 3) (field e 0x18 8) q.hostPages q.draft none q.sampling with tokens := s.forkTokens m q }

section Fork
variable {s : State} {m : Nat} {e : Bytes} {p : Pricking} {q : Seq} (h : Ready s m 0x33 e) (hw : s.seqWaits m = false) (hv : s.take.vacatedTo = none)
  (hp : s.seqMotif (field e 8 1) = some (.ok p)) (hq : s.findSeq (field e 8 1) (field e 0xC 3) = some q) (hb : s.beyond p q = false)
include h hw hv hp hq hb

theorem exec_seqFork_closing (hstate : q.state = .closing) : exec (.seqFork m) s = .next (s.failCmd m 0x0203 3) := by
  have hrow : Ready s m opSeqFork e := h
  show execSeqFork m s = _
  rw [execSeqFork, seqCommand_ready hrow hw]
  simp only [State.onPages_of_whole h hv hp hq hb, hstate]
  rfl

variable (hstate : q.state ≠ .closing)
include hstate

theorem exec_seqFork_to_open (hopen : (s.findSeq q.motif (field e 0x10 3)).isSome = true) : exec (.seqFork m) s = .next (s.failCmd m 0x0202 0) := by
  have hrow : Ready s m opSeqFork e := h
  show execSeqFork m s = _
  rw [execSeqFork, seqCommand_ready hrow hw, h.entryOf]
  simp only [State.onPages_of_whole h hv hp hq hb, if_neg hstate, hopen]
  rfl

variable (hfree : s.findSeq q.motif (field e 0x10 3) = none)
include hfree

theorem exec_seqFork_of_free : exec (.seqFork m) s = .next (
    if 4096 ≤ s.openCount then s.failCmd m 0x0300 0
    else match copyFrames (field e 0x10 3) ((s.forkTokens m q).length - 1) (s.framesOfSeq q) s with
      | .error layer => s.failCmd m 0x0302 layer
      | .ok t => (match q.draft with
        | none => t.addSeq (s.forkedSeq m q e)
        | some d => (t.addSeq (s.forkedSeq m q e)).addSeq (companionOf (s.forkedSeq m q e) d)).okCmd m 0) := by
  have hrow : Ready s m opSeqFork e := h
  show execSeqFork m s = _
  rw [execSeqFork, seqCommand_ready hrow hw, h.entryOf]
  simp only [State.onPages_of_whole h hv hp hq hb, if_neg hstate, hfree]
  rfl

theorem exec_seqFork_full (hfull : 4096 ≤ s.openCount) : exec (.seqFork m) s = .next (s.failCmd m 0x0300 0) := by
  rw [exec_seqFork_of_free h hw hv hp hq hb hstate hfree, if_pos hfull]

theorem exec_seqFork_of_host (hroom : s.openCount < 4096) (hhost : q.hostPages = true) (hdraft : q.draft = none) :
    exec (.seqFork m) s = .next ((s.addSeq (s.forkedSeq m q e)).okCmd m 0) := by
  rw [exec_seqFork_of_free h hw hv hp hq hb hstate hfree, if_neg (by omega), State.framesOfSeq_of_host hhost hdraft, hdraft]
  rfl

end Fork

/-- Settles O17: an append from its read to its beginning or its end, and the fork of a host-managed sequence. -/
theorem sequencesAppendAndFork : Obligations.SequencesAppendAndFork := by
  refine ⟨fun m c p q s h hcur hbegun hcont hw hv hp hq hb => ?_, fun m e p q s h hw hv hp hq hb => ?_⟩
  · have hresult : s.resultOf c.entry = q.tokens.length := State.resultOf_of_tokens (.inl h.entryOp_eq) hq
    refine ⟨fun hx hqp hroom => ?_, fun hx hqp hroom => ?_, fun hx => ?_, fun hx hids hne => ?_⟩
    · refine ⟨_, exec_seqAppend_fetches h hcur hbegun hw hv hp hq hb hx, ?_⟩
      rw [State.readBuffer_of_room hcur hcont hqp hroom]
      refine ⟨rfl, ?_, rfl⟩
      rw [State.toHost_box, State.setCmd_box, if_pos rfl, hcur]
      rfl
    · rw [exec_seqAppend_fetches h hcur hbegun hw hv hp hq hb hx, State.readBuffer_of_no_room hcur hcont hqp hroom]
    · exact ⟨_, exec_seqAppend_not_fetched h hcur hbegun hw hv hp hq hb hx, h.failCmd _ _ rfl hresult⟩
    · have hexec := exec_seqAppend_fetched h hcur hbegun hw hv hp hq hb hx hids
      obtain ⟨hmotif, hid, hcompanion⟩ := State.findSeq_spec hq
      rw [← hmotif, ← hid] at hq
      refine ⟨fun hstate => ?_, fun hstate hfull => ?_, fun hstate htokens hroom => ?_, fun hstate hgen htokens hone => ?_⟩
      · rw [if_pos hstate] at hexec
        obtain ⟨hdone, -⟩ := h.failCmd 0x0203 q.state.code (SeqState.code_mod _) hresult
        exact ⟨_, hexec, hdone, State.failCmd_seqs ..⟩
      · rw [if_neg (not_not_intro hstate), if_pos hfull] at hexec
        obtain ⟨hdone, -⟩ := h.failCmd 0x0301 0 rfl hresult
        exact ⟨_, hexec, hdone, State.failCmd_seqs ..⟩
      · rw [if_neg (not_not_intro hstate), if_neg (by omega), State.beginAppend_of_tokens htokens hne] at hexec
        refine ⟨_, q.appendingFor m q.tokens (tokensOf c.data), hexec, ?_, rfl, rfl, rfl, ?_, State.seqBegun_headSync_frame ..⟩
        · rw [State.findSeq_congr (congrArg Seqs.open_ (State.headSync_seqs ..))]
          exact State.findSeq_putSeq (q := q.appendingFor m q.tokens (tokensOf c.data)) hq hcompanion
        · rw [State.headSync_box, State.seqBegun_box, if_pos rfl]
          rfl
      · rw [if_neg (not_not_intro hstate), if_neg (by simp [htokens, hone]), State.beginAppend_of_one htokens hone] at hexec
        obtain ⟨hfound, hcur', -, hdone, -, hstatus, -⟩ := State.append_of_one_ends h hq hcompanion hgen (tokensOf c.data) (s.entryOf m)
        exact ⟨_, _, hexec, hfound, rfl, rfl, hcur', hdone, hstatus⟩
  · intro fails
    have hfails : ∀ st d, exec (.seqFork m) s = .next (s.failCmd m st d) → d % 2 ^ 32 = d → fails st d :=
      fun st d hexec hd => ⟨_, hexec, h.failCmd st d hd (h.no_result (by decide))⟩
    refine ⟨fun hstate => hfails _ _ (exec_seqFork_closing h hw hv hp hq hb hstate) rfl,
      fun hstate hopen => hfails _ _ (exec_seqFork_to_open h hw hv hp hq hb hstate hopen) rfl,
      fun hstate hfree hfull => hfails _ _ (exec_seqFork_full h hw hv hp hq hb hstate hfree hfull) rfl, fun hstate hfree hroom hhost hdraft => ?_⟩
    exact ⟨_, exec_seqFork_of_host h hw hv hp hq hb hstate hfree hroom hhost hdraft, State.complete_completes_seqs 0 0 _ 0 h.free h.breakQps,
      State.okCmd_seqs .., State.complete_changes_seqs 0 0 _ 0 h.free h.breakQps⟩

/-! ### SEQ_GENERATE and its cancel (R25, R29, R44, R46) -/

/-- The sequence in the generation that a `SEQ_GENERATE` with entry `e` on mailbox `m` begins (R28, R41, R44). -/
def Seq.generatingFor (q : Seq) (m : Nat) (e : Bytes) : Seq :=
  { q with
    state := .generating
    nextTree := none
    sampling := if bit (field e 0x09 1) 0 then samplingOf e 0x14 else q.sampling
    gen := some { mailbox := m, count := field e 0x10 4, delivered := 0, stops := stopsOf e, branches := branchesOf e, cancelled := false } }

theorem State.beginGenerate_eq (s : State) (m : Nat) (q : Seq) (e : Bytes) :
    s.beginGenerate m q e = (s.discardTree (seqTag q)).seqBegun m (q.generatingFor m e) (field e 0x10 4) := rfl

/-- A sequence of the table after the trees of the host sequence of a tag are discarded (R255). -/
def Seq.treeless (t : StepTag) (q : Seq) : Seq :=
  if q.id = t.seq ∧ (q.motif = t.motif ∧ q.companion = none ∨ q.companion = some t.motif) then { q with nextTree := none } else q

theorem State.discardTree_of_main (s : State) {t : StepTag} (ht : t.companion = none) :
    s.discardTree t = { s with seqs := { s.seqs with open_ := s.seqs.open_.map (Seq.treeless t) } } :=
  if_neg (by simp [ht])

/-- Discarding trees renames no sequence. -/
theorem Seq.treeless_name (t : StepTag) (q : Seq) :
    (q.treeless t).motif = q.motif ∧ (q.treeless t).id = q.id ∧ (q.treeless t).companion = q.companion := by
  unfold Seq.treeless
  split <;> exact ⟨rfl, rfl, rfl⟩

/-- Discarding trees keeps every sequence under its name. -/
theorem State.findSeq_discardTree {s : State} {motif id : Nat} {q : Seq} (hq : s.findSeq motif id = some q) {t : StepTag} (ht : t.companion = none) :
    (s.discardTree t).findSeq motif id = some (q.treeless t) := by
  have hname : (fun x : Seq => decide (x.motif = motif ∧ x.id = id ∧ x.companion = none)) ∘ Seq.treeless t =
      fun x => decide (x.motif = motif ∧ x.id = id ∧ x.companion = none) := by
    funext x
    obtain ⟨hmotif, hid, hcompanion⟩ := x.treeless_name t
    simp only [Function.comp, hmotif, hid, hcompanion]
  rw [State.findSeq] at hq
  rw [State.discardTree_of_main s ht, State.findSeq, List.find?_map, hname, hq]
  rfl

section Generate
variable {s : State} {m : Nat} {e : Bytes} {p : Pricking} {q : Seq} (h : Ready s m 0x32 e) (hw : s.seqWaits m = false) (hv : s.take.vacatedTo = none)
  (hp : s.seqMotif (field e 8 1) = some (.ok p)) (hq : s.findSeq (field e 8 1) (field e 0xC 3) = some q) (hparams : generateBad p q e = none)
include h hw hv hp hq hparams

theorem exec_seqGenerate_of_count (hbegun : begunOn s m = false) (hcount : field e 0x10 4 ≠ 0) (hb : s.beyond p q = false) :
    exec (.seqGenerate m) s = .next (
      if q.state ≠ .opened then s.failCmd m 0x0203 q.state.code
      else if q.tokens = [] then s.failCmd m 0x0209 0
      else if 16777216 ≤ q.tokens.length then s.complete m 0x0301 0 0 q.tokens.length
      else s.beginGenerate m q e) := by
  have hrow : Ready s m opSeqGenerate e := h
  show execSeqGenerate m s = _
  rw [execSeqGenerate, seqCommand_ready hrow hw, h.entryOf]
  simp only [State.onPages_of_whole h hv hp hq hb, hbegun, hcount, hparams]
  rfl

theorem exec_cancel_of_open (hcount : field e 0x10 4 = 0) (hstate : q.state = .opened) :
    exec (.cancel m) s = .next (s.complete m 0 0 0 q.tokens.length) := by
  have hrow : Ready s m opSeqGenerate e := h
  show execCancel m s = _
  rw [execCancel, seqCommand_ready hrow hw, h.entryOf]
  simp only [State.onSeq_of_open h hv hp hq, hcount, hparams, hstate]
  rfl

theorem exec_cancel_of_running {g : GenInfo} (hcount : field e 0x10 4 = 0) (hstate : q.state = .generating) (hgen : q.gen = some g)
    (hbusy : s.seqBusy q = true) :
    exec (.cancel m) s = .next ((s.putSeq { q with gen := some { g with cancelled := true } }).complete m 0 0 0 q.tokens.length) := by
  have hrow : Ready s m opSeqGenerate e := h
  have hbusy' : ∀ q' : Seq, ((s.putSeq q').complete m stOk 0 0 q.tokens.length).seqBusy q = true := fun q' =>
    (State.seqBusy_congr (State.complete_steps ..) rfl).trans hbusy
  show execCancel m s = _
  rw [execCancel, seqCommand_ready hrow hw, h.entryOf]
  simp only [State.onSeq_of_open h hv hp hq, hcount, hparams, hstate, hgen, hbusy']
  rfl

end Generate

/-- Settles O18: a generation begins or is refused; a cancel completes, and marks a generation with a step in flight. -/
theorem generationsBeginAndAreCancelled : Obligations.GenerationsBeginAndAreCancelled := by
  refine ⟨fun m e p q s h hbegun hcount hw hv hp hq hb hparams => ?_, fun m e p q s h hcount hw hv hp hq hparams => ?_⟩
  · intro fails
    have hexec := exec_seqGenerate_of_count h hw hv hp hq hparams hbegun hcount hb
    have hresult : s.resultOf e = q.tokens.length := State.resultOf_of_tokens (.inr h.entryOp_eq) hq
    refine ⟨fun hstate => ?_, fun hstate htokens => ?_, fun hstate hfull => ?_, fun hstate htokens hroom => ?_⟩
    · rw [if_pos hstate] at hexec
      exact ⟨_, hexec, h.failCmd _ _ (SeqState.code_mod _) hresult⟩
    · rw [if_neg (not_not_intro hstate), if_pos htokens] at hexec
      exact ⟨_, hexec, h.failCmd _ _ rfl (hresult.trans (by rw [htokens]; rfl))⟩
    · have htokens : q.tokens ≠ [] := by rintro hnil; simp [hnil] at hfull
      rw [if_neg (not_not_intro hstate), if_neg htokens, if_pos hfull] at hexec
      exact ⟨_, hexec, h.complete _ _ _ _ rfl⟩
    · obtain ⟨hmotif, hid, hcompanion⟩ := State.findSeq_spec hq
      rw [← hmotif, ← hid] at hq
      have hq0 := State.findSeq_discardTree hq (t := seqTag q) hcompanion
      rw [if_neg (not_not_intro hstate), if_neg htokens, if_neg (by omega), State.beginGenerate_eq, State.discardTree_of_main s hcompanion] at hexec
      rw [State.discardTree_of_main s hcompanion] at hq0
      refine ⟨_, _, hexec, State.findSeq_putSeq (q := q.generatingFor m e) hq0 hcompanion, rfl, ?_, fun k hk => ?_, rfl⟩
      · rw [State.seqBegun_box, if_pos rfl]
        rfl
      · rw [State.seqBegun_box, if_neg hk]
        rfl
  · refine ⟨fun hstate => ?_, fun g hstate hgen hbusy => ?_⟩
    · exact ⟨_, exec_cancel_of_open h hw hv hp hq hparams hcount hstate, h.complete _ _ _ _ rfl⟩
    · have hexec := exec_cancel_of_running h hw hv hp hq hparams hcount hstate hgen hbusy
      obtain ⟨hmotif, hid, hcompanion⟩ := State.findSeq_spec hq
      rw [← hmotif, ← hid] at hq
      refine ⟨_, hexec, State.complete_completes_seqs 0 0 0 _ h.free h.breakQps, ?_, State.complete_changes_seqs 0 0 0 _ h.free h.breakQps⟩
      rw [State.findSeq_congr (congrArg Seqs.open_ (State.complete_seqs ..))]
      exact State.findSeq_putSeq (q := { q with gen := some { g with cancelled := true } }) hq hcompanion

/-! ### Step records (R34, R235, R240, R254) -/

section Lists
variable {α : Type} {p k : α → Bool} {f : α → α} {l : List α}

theorem exists_mem_mapFirst {P : α → Prop} (h : ∃ a ∈ l, P a) (hf : ∀ a, P a → P (f a)) : ∃ a ∈ mapFirst p f l, P a := by
  induction l with
  | nil => exact absurd h (by simp)
  | cons x l ih =>
    obtain ⟨a, ha, hPa⟩ := h
    rw [mapFirst]
    split
    · rcases List.mem_cons.1 ha with rfl | ha
      · exact ⟨f a, List.mem_cons_self .., hf a hPa⟩
      · exact ⟨a, List.mem_cons_of_mem _ ha, hPa⟩
    · rcases List.mem_cons.1 ha with rfl | ha
      · exact ⟨a, List.mem_cons_self .., hPa⟩
      · obtain ⟨b, hb, hPb⟩ := ih ⟨a, ha, hPa⟩
        exact ⟨b, List.mem_cons_of_mem _ hb, hPb⟩

/-- What a search finds it finds in a sublist that keeps it. -/
theorem find?_filter_of_kept {a : α} (h : l.find? p = some a) (hk : k a = true) : (l.filter k).find? p = some a := by
  induction l with
  | nil => cases h
  | cons x l ih =>
    by_cases hp : p x = true
    · rw [List.find?_cons_of_pos hp, Option.some.injEq] at h
      rw [h, List.filter_cons_of_pos hk, List.find?_cons_of_pos (h ▸ hp)]
    · rw [List.find?_cons_of_neg hp] at h
      rw [List.filter_cons]
      split
      · rw [List.find?_cons_of_neg hp, ih h]
      · exact ih h

/-- Where the one element of a kind is replaced by one of another kind, none is left. -/
theorem filter_mapFirst_of_only {a : α} (honly : l.filter k = [a]) (hfind : l.find? p = some a) (hf : k (f a) = false) : (mapFirst p f l).filter k = [] := by
  induction l with
  | nil => cases hfind
  | cons x l ih =>
    by_cases hp : p x = true
    · rw [List.find?_cons_of_pos hp, Option.some.injEq] at hfind
      subst hfind
      have hkx : k x = true := List.of_mem_filter (honly ▸ List.mem_singleton_self x)
      rw [List.filter_cons_of_pos hkx, List.cons.injEq] at honly
      rw [mapFirst, if_pos hp, List.filter_cons_of_neg (by simp [hf]), honly.2]
    · rw [List.find?_cons_of_neg hp] at hfind
      have hkx : ¬ k x = true := fun hkx => by
        rw [List.filter_cons_of_pos hkx, List.cons.injEq] at honly
        exact hp (honly.1 ▸ List.find?_some hfind)
      rw [List.filter_cons_of_neg hkx] at honly
      rw [mapFirst, if_neg hp, List.filter_cons_of_neg hkx, ih honly hfind]

end Lists

theorem State.stepOf_congr {s t : State} (h : t.steps.live = s.steps.live) (u : StepTag) : t.stepOf u = s.stepOf u := by
  rw [State.stepOf, h, State.stepOf]

theorem State.stepOf_spec {s : State} {t : StepTag} {r : StepRec} (h : s.stepOf t = some r) :
    r.motif = t.motif ∧ r.seq = t.seq ∧ r.step = t.step ∧ r.companion = t.companion := by
  have hr := List.find?_some h
  exact of_decide_eq_true hr

/-- A step's record reads as its new value once it is changed. -/
theorem State.stepOf_setStep {s : State} {t : StepTag} {r : StepRec} (h : s.stepOf t = some r) {f : StepRec → StepRec} (hf : sameStep t (f r) = true) :
    (s.setStep t f).stepOf t = some (f r) :=
  find?_mapFirst_same h hf

/-! What the start of a step changes. -/

theorem State.countQuant_frame (s : State) (t : StepTag) (q : Quant) : s.countQuant t q = { s with motifs := (s.countQuant t q).motifs } := by
  unfold State.countQuant
  split <;> rfl

theorem State.latchFormat_frame (s : State) (t : StepTag) : s.latchFormat t = { s with steps := (s.latchFormat t).steps } := by
  unfold State.latchFormat
  split
  · rfl
  · dsimp only
    split <;> rfl

theorem State.enterLayer_frame (s : State) (t : StepTag) (first : Nat) (rows : List Bytes) :
    s.enterLayer t first rows = { s with steps := (s.enterLayer t first rows).steps, motifs := (s.enterLayer t first rows).motifs } := by
  unfold State.enterLayer
  split
  · rfl
  · split
    · rfl
    · rw [State.setPrecT, State.setPrec, State.latchFormat_frame]
      rfl

/-- A record of the step of a sequence that starts with number, generation, token length and nodes (R34, R37, R238). -/
def StepRec.startedAs (r : StepRec) (q : Seq) (gen n : Nat) (prefill : Bool) (nodes : List TreeNode) : Prop :=
  r.motif = q.motif ∧ r.seq = q.id ∧ r.step = q.nextStep ∧ r.companion = q.companion ∧ r.gen = gen ∧ r.prefill = prefill ∧ r.n = n ∧
    r.width = nodes.length ∧ r.nodes = nodes ∧ r.ended = false

/-- Such a record is among the steps that the module knows. -/
def State.hasStarted (s : State) (q : Seq) (gen n : Nat) (prefill : Bool) (nodes : List TreeNode) : Prop :=
  ∃ r ∈ s.steps.live, r.startedAs q gen n prefill nodes

section Started
variable {s : State} {q : Seq} {gen n : Nat} {prefill : Bool} {nodes : List TreeNode} (h : s.hasStarted q gen n prefill nodes)
include h

theorem State.hasStarted_congr {t : State} (hsteps : t.steps = s.steps) : t.hasStarted q gen n prefill nodes := by
  rw [State.hasStarted, hsteps]
  exact h

theorem State.hasStarted_setStep {t : StepTag} {f : StepRec → StepRec}
    (hf : ∀ r : StepRec, r.startedAs q gen n prefill nodes → (f r).startedAs q gen n prefill nodes) : (s.setStep t f).hasStarted q gen n prefill nodes :=
  exists_mem_mapFirst h hf

theorem State.hasStarted_latchFormat (t : StepTag) : (s.latchFormat t).hasStarted q gen n prefill nodes := by
  unfold State.latchFormat
  split
  · exact h
  · dsimp only
    split
    · exact h
    · exact State.hasStarted_setStep h fun r hr => hr

theorem State.hasStarted_enterLayer (t : StepTag) (first : Nat) (rows : List Bytes) : (s.enterLayer t first rows).hasStarted q gen n prefill nodes := by
  unfold State.enterLayer
  split
  · exact h
  · split
    · exact h
    · refine State.hasStarted_congr (State.hasStarted_latchFormat (State.hasStarted_setStep h ?_) t) rfl
      exact fun r hr => hr

end Started

/-- The state with a step's record and its sequence's next number, before the step's rows enter layer 0 (R34). -/
def State.stepAdded (s : State) (q : Seq) (n : Nat) (prefill : Bool) (nodes : List TreeNode) (slow : BitVec 16) : State :=
  { s.putSeq { q with nextStep := q.nextStep + 1 } with
    steps := { s.steps with live := s.steps.live ++ [{ s.freshStep { step := q.nextStep, seq := q.id, motif := q.motif, gen := (s.motif q.motif).gen.toNat, layer := 0,
                                                                     lineage := 0, companion := q.companion } with
      prefill := prefill, n := n, width := nodes.length, nodes := nodes, slow := slow }] } }

theorem State.hasStarted_stepAdded (s : State) (q : Seq) (n : Nat) (prefill : Bool) (nodes : List TreeNode) (slow : BitVec 16) :
    (s.stepAdded q n prefill nodes slow).hasStarted q (s.motif q.motif).gen.toNat n prefill nodes :=
  ⟨_, List.mem_append_right _ (List.mem_singleton_self _), rfl, rfl, rfl, rfl, rfl, rfl, rfl, rfl, rfl, rfl⟩

/-- A step that starts has its record, and its rows enter layer 0 where that is this module's (R235). -/
theorem State.startStep_eq (s : State) (p : Pricking) (q : Seq) (n : Nat) (prefill : Bool) (nodes : List TreeNode) (slow : BitVec 16) :
    ∃ t quant rows, s.startStep p q n prefill nodes slow =
      (if (s.ownLayers p).contains 0 then ((s.stepAdded q n prefill nodes slow).countQuant t quant).enterLayer t 0 rows
        else s.stepAdded q n prefill nodes slow).noteThrottle t false := ⟨_, _, _, rfl⟩

/-- What starts with a step: its record, the next step number of its sequence, and nothing but steps, sequences and layer records (R34, R235). -/
theorem State.startStep_starts (s : State) (p : Pricking) (q : Seq) (n : Nat) (prefill : Bool) (nodes : List TreeNode) (slow : BitVec 16) :
    let t := s.startStep p q n prefill nodes slow
    t.hasStarted q (s.motif q.motif).gen.toNat n prefill nodes ∧ t.seqs = (s.putSeq { q with nextStep := q.nextStep + 1 }).seqs ∧
      t = { s with seqs := t.seqs, steps := t.steps, motifs := t.motifs } := by
  have hadded := State.hasStarted_stepAdded s q n prefill nodes slow
  obtain ⟨t, quant, rows, heq⟩ := State.startStep_eq s p q n prefill nodes slow
  have hquant := State.countQuant_frame (s.stepAdded q n prefill nodes slow) t quant
  have hcounted : ((s.stepAdded q n prefill nodes slow).countQuant t quant).hasStarted q (s.motif q.motif).gen.toNat n prefill nodes :=
    State.hasStarted_congr hadded (by rw [hquant])
  have hentered := State.enterLayer_frame ((s.stepAdded q n prefill nodes slow).countQuant t quant) t 0 rows
  rw [heq]
  split
  · refine ⟨?_, ?_, ?_⟩
    · exact State.hasStarted_setStep (State.hasStarted_enterLayer hcounted t 0 rows) fun r hr => hr
    · rw [hentered, hquant]
      rfl
    · rw [hentered, hquant]
      rfl
  · exact ⟨State.hasStarted_setStep hadded fun r hr => hr, rfl, rfl⟩

/-! What the end of a step changes. -/

/-- A step that ends is counted out of a switch in progress, if it has not ended before (R290). -/
def State.countedOut (s : State) (t : StepTag) : State :=
  match s.stepOf t with
  | some r => if r.ended then s else s.switchProgress r.motif r.gen
  | none => s

theorem State.switchProgress_frame (s : State) (motif gen : Nat) : s.switchProgress motif gen = { s with boxes := (s.switchProgress motif gen).boxes } := by
  unfold State.switchProgress
  split <;> rfl

theorem State.countedOut_frame (s : State) (t : StepTag) : s.countedOut t = { s with boxes := (s.countedOut t).boxes } := by
  unfold State.countedOut
  split
  · split
    · rfl
    · exact State.switchProgress_frame ..
  · rfl

/-- Where no switch is in progress no mailbox counts steps. -/
theorem State.countedOut_of_no_switch {s : State} (h : s.motifs.switches = []) (t : StepTag) : s.countedOut t = s := by
  have hnone : ∀ motif gen, s.switchProgress motif gen = s := fun motif gen => by simp [State.switchProgress, h]
  unfold State.countedOut
  split
  · rw [hnone, ite_self]
  · rfl

/-- What the end of a step does beside the count of a switch: its record is closed, its data is gone, and of its sequence's ended steps the newest is kept with
its latches (R239, R254). -/
def State.stepClosed (s : State) (t : StepTag) (length : Nat) (uncommitted : Bool) : State :=
  let u := (s.setStep t fun r => r.close length uncommitted).purge t
  { u with
    steps := { u.steps with live := u.steps.live.filter fun r => !(sameSeq t r && r.ended && decide (r.step < t.step)) }
    attn := { u.attn with latches := u.attn.latches.filter fun l =>
      !(decide (l.tag.motif = t.motif ∧ l.tag.seq = t.seq ∧ l.tag.companion = t.companion ∧ l.tag.step < t.step)) } }

theorem State.endStep_eq (s : State) (t : StepTag) (length : Nat) (uncommitted : Bool) :
    s.endStep t length uncommitted = (s.countedOut t).stepClosed t length uncommitted := rfl

theorem State.endStep_frame (s : State) (t : StepTag) (length : Nat) (uncommitted : Bool) :
    let u := s.endStep t length uncommitted
    u = { s with boxes := u.boxes, mem := u.mem, arrays := u.arrays, steps := u.steps, data := u.data, attn := u.attn } := by
  rw [State.endStep_eq, State.countedOut_frame]
  rfl

@[simp] theorem State.endStep_seqs (s : State) (t : StepTag) (length : Nat) (uncommitted : Bool) : (s.endStep t length uncommitted).seqs = s.seqs := by
  rw [State.endStep_frame]

@[simp] theorem State.findSeq_endStep (s : State) (t : StepTag) (length : Nat) (uncommitted : Bool) (motif id : Nat) :
    (s.endStep t length uncommitted).findSeq motif id = s.findSeq motif id :=
  State.findSeq_congr (by rw [State.endStep_seqs]) motif id

@[simp] theorem State.findCompanion_endStep (s : State) (t : StepTag) (length : Nat) (uncommitted : Bool) (draft main id : Nat) :
    (s.endStep t length uncommitted).findCompanion draft main id = s.findCompanion draft main id :=
  State.findCompanion_congr (by rw [State.endStep_seqs]) draft main id

@[simp] theorem State.endStep_window (s : State) (t : StepTag) (length : Nat) (uncommitted : Bool) :
    (s.endStep t length uncommitted).mem.window = s.mem.window := by
  rw [State.endStep_eq, State.countedOut_frame]
  rfl

theorem State.endStep_boxes {s : State} (h : s.motifs.switches = []) (t : StepTag) (length : Nat) (uncommitted : Bool) :
    (s.endStep t length uncommitted).boxes = s.boxes := by
  rw [State.endStep_eq, State.countedOut_of_no_switch h]
  rfl

theorem State.endStep_actWait {s : State} (h : s.steps.actWait = []) (t : StepTag) (length : Nat) (uncommitted : Bool) :
    (s.endStep t length uncommitted).steps.actWait = [] := by
  rw [State.endStep_eq, State.countedOut_frame]
  show s.steps.actWait.filter _ = []
  rw [h, List.filter_nil]

theorem State.endStep_live (s : State) (t : StepTag) (length : Nat) (uncommitted : Bool) :
    (s.endStep t length uncommitted).steps.live =
      (mapFirst (sameStep t) (fun r => r.close length uncommitted) s.steps.live).filter fun r => !(sameSeq t r && r.ended && decide (r.step < t.step)) := by
  rw [State.endStep_eq, State.countedOut_frame]
  rfl

/-- A step that ends keeps its record, closed (R239, R254). -/
theorem State.stepOf_endStep {s : State} {t : StepTag} {r : StepRec} (h : s.stepOf t = some r) (length : Nat) (uncommitted : Bool) :
    (s.endStep t length uncommitted).stepOf t = some (r.close length uncommitted) := by
  have hspec := State.stepOf_spec h
  have hname : sameStep t (r.close length uncommitted) = true := decide_eq_true hspec
  rw [State.stepOf, State.endStep_live]
  refine find?_filter_of_kept (find?_mapFirst_same h hname) ?_
  simp [StepRec.close, hspec]

@[simp] theorem State.seqInFlight_putSeq (s : State) (q : Seq) (t : StepTag) : (s.putSeq q).seqInFlight t = s.seqInFlight t := rfl

/-- With its one step ended, no step of a sequence is in flight. -/
theorem State.seqInFlight_endStep {s : State} {t u : StepTag} {r : StepRec} (honly : s.seqInFlight u = [r]) (h : s.stepOf t = some r) (length : Nat)
    (uncommitted : Bool) : (s.endStep t length uncommitted).seqInFlight u = [] := by
  have hclosed := filter_mapFirst_of_only (f := fun r => r.close length uncommitted) honly h (by simp [StepRec.close])
  rw [State.seqInFlight, State.endStep_live]
  refine List.filter_eq_nil_iff.2 fun x hx => ?_
  exact List.filter_eq_nil_iff.1 hclosed x (List.mem_filter.1 hx).1

/-! ### Steps and trees start (R33 to R37, R40, R238) -/

/-- The sequence of a started step reads with its next number. -/
theorem State.findSeq_startStep {s : State} {q q0 : Seq} (hq : s.findSeq q.motif q.id = some q0) (hcompanion : q.companion = none) (p : Pricking) (n : Nat)
    (prefill : Bool) (nodes : List TreeNode) (slow : BitVec 16) :
    (s.startStep p q n prefill nodes slow).findSeq q.motif q.id = some { q with nextStep := q.nextStep + 1 } := by
  obtain ⟨-, hseqs, -⟩ := State.startStep_starts s p q n prefill nodes slow
  rw [State.findSeq_congr (congrArg Seqs.open_ hseqs)]
  exact State.findSeq_putSeq (q := { q with nextStep := q.nextStep + 1 }) hq hcompanion

theorem State.findCompanion_startStep {s : State} {c c0 : Seq} {main : Nat} (hc : s.findCompanion c.motif main c.id = some c0) (hcompanion : c.companion = some main)
    (p : Pricking) (n : Nat) (prefill : Bool) (nodes : List TreeNode) (slow : BitVec 16) :
    (s.startStep p c n prefill nodes slow).findCompanion c.motif main c.id = some { c with nextStep := c.nextStep + 1 } := by
  obtain ⟨-, hseqs, -⟩ := State.startStep_starts s p c n prefill nodes slow
  rw [State.findCompanion_congr (congrArg Seqs.open_ hseqs)]
  exact State.findCompanion_putSeq (c := { c with nextStep := c.nextStep + 1 }) hc hcompanion

/-- The width of the next step of an append at a chunk (R33, R35). -/
def chunkWidth (chunk : Nat) (a : AppendInfo) : Nat := min (min chunk 4096) (a.target - a.started)

/-- The nodes of the next step of an append: its next tokens, the pending token first (R32, R223). -/
def prefillNodes (q : Seq) (a : AppendInfo) (w : Nat) : List TreeNode :=
  chainNodes (((q.tokens.getLast?.toList ++ a.tokens).drop (a.started - a.committed)).take w)

theorem prefillNodes_length_le (q : Seq) (a : AppendInfo) (w : Nat) : (prefillNodes q a w).length ≤ w := by
  rw [prefillNodes, chainNodes, List.length_mapIdx]
  exact List.length_take_le ..

theorem exec_prefillStepStart {motif seq : Nat} {p : Pricking} {q : Seq} {a : AppendInfo} {s : State} (hm : motif < 16) (hp : s.mayStart motif = some p)
    (hq : s.findSeq motif seq = some q) (hstate : q.state = .appending) (happend : q.append = some a) (hmore : a.started < a.target)
    (hleft : (s.seqInFlight (seqTag q)).all leftFirstLayer = true) (hbarred : s.barred motif seq = false)
    (hroom : s.roomForStep p (chunkWidth (ladderChunk (s.stepLevel motif)) a) = true) :
    exec (.prefillStepStart motif seq) s =
      .next (s.startStep p { q with append := some { a with started := a.started + chunkWidth (ladderChunk (s.stepLevel motif)) a } }
        (q.tokens.length + (a.started - a.committed)) true (prefillNodes q a (chunkWidth (ladderChunk (s.stepLevel motif)) a)) 0) := by
  unfold chunkWidth at *
  show execPrefillStepStart motif seq s = _
  simp only [execPrefillStepStart, need, hm, hp, hq, hstate, happend, onlyIf, hmore, hleft, hroom, hbarred]
  rfl

section Generation
variable {motif seq : Nat} {p : Pricking} {q : Seq} {g : GenInfo} {s : State} (hm : motif < 16) (hp : s.mayStart motif = some p)
  (hq : s.findSeq motif seq = some q) (hstate : q.state = .generating) (hgen : q.gen = some g) (hidle : s.seqBusy q = false) (hbarred : s.barred motif seq = false)
include hm hp hq hstate hgen hidle hbarred

theorem exec_generationStepStart_of_full_ring (hslots : freeSlots (s.box g.mailbox) < 64) :
    exec (.generationStepStart motif seq) s = .next (s.markSlow motif seq slowRing) := by
  show execGenerationStepStart motif seq s = _
  simp only [execGenerationStepStart, need, hm, hp, hq, hstate, hgen, hidle, hbarred, if_pos hslots]
  rfl

theorem exec_generationStepStart_of_room {nodes : List TreeNode} {cut : Bool} (hslots : 64 ≤ freeSlots (s.box g.mailbox))
    (hnodes : nextNodes s p q g = some (nodes, cut)) (hroom : s.roomForStep p nodes.length = true) :
    exec (.generationStepStart motif seq) s =
      .next (s.startStep p { q with nextTree := none } q.tokens.length false nodes (if cut then slowBit slowNarrowed else 0)) := by
  show execGenerationStepStart motif seq s = _
  simp only [execGenerationStepStart, need, hm, hp, hq, hstate, hgen, hidle, hbarred, if_neg (Nat.not_lt.2 hslots), hnodes, onlyIf, hroom]
  rfl

end Generation

/-- A generation without a tree steps over its pending token alone (R36). -/
theorem nextNodes_of_no_branches (s : State) (p : Pricking) (q : Seq) {g : GenInfo} (hg : g.branches = []) :
    nextNodes s p q g = some ([{ token := q.tokens.getLastD 0, parent := 0 }], false) := by
  have hshape : ∀ limit, narrowShape limit 128 (depthRoom q.tokens.length []) = [] := fun limit => by
    rw [depthRoom, List.take_nil, narrowShape]
    split <;> rfl
  simp only [nextNodes, hg, hshape]
  rfl

/-- Noting one cause updates the word of the one mailbox whose command names the sequence (R73). -/
theorem State.markSlow_of_one {s : State} {motif seq m : Nat} (cause : Nat)
    (hone : (s.boxes.box.filter fun e => namesSeq e.2 motif seq).map (·.1) = [m]) :
    ∃ slow, s.markSlow motif seq cause =
      ({ s with seqs := { s.seqs with slow := slow } } : State).update m fun b => { b with slowAt := noteCauses (slowBit cause) s.now b.slowAt } := by
  obtain ⟨e, he, rfl⟩ := List.map_eq_singleton_iff.1 hone
  rw [State.markSlow, State.markSlows, he]
  exact ⟨_, rfl⟩

theorem noteCauses_ring_head (now : Nat) (had : List (Nat × Nat)) : (noteCauses (slowBit slowRing) now had).head? = some (7, now) := rfl

/-! Trees and companion steps (R37, R255). -/

theorem exec_tree {tag : StepTag} {nodes : List TreeNode} {main : Nat} {q : Seq} {s : State} (hcompanion : tag.companion = some main)
    (hq : s.findSeq main tag.seq = some q) (hdraft : q.draft = some tag.motif) (hok : treeOk nodes = true) :
    exec (.tree tag nodes) s = .next (s.giveTree q nodes) := by
  show execTree tag nodes s = _
  simp only [execTree, hcompanion, Option.bind_some, hq, hok, hdraft]
  rfl

theorem State.findSeq_giveTree {s : State} {q q0 : Seq} (hq : s.findSeq q.motif q.id = some q0) (hcompanion : q.companion = none) (nodes : List TreeNode) :
    (s.giveTree q nodes).findSeq q.motif q.id = some { q with nextTree := some nodes } :=
  State.findSeq_putSeq (q := { q with nextTree := some nodes }) hq hcompanion

theorem State.findCompanion_giveTree (s : State) {q : Seq} (hcompanion : q.companion = none) (nodes : List TreeNode) (draft main id : Nat) :
    (s.giveTree q nodes).findCompanion draft main id = s.findCompanion draft main id :=
  State.findCompanion_putSeq_main (q := { q with nextTree := some nodes }) hcompanion draft main id

section Companion
variable {main seq d : Nat} {logits : List (List Fp32)} {q c : Seq} {g : GenInfo} {s : State} {p : Pricking} (hm : main < 16)
  (hq : s.findSeq main seq = some q) (hdraft : q.draft = some d) (hc : s.findCompanion d main seq = some c) (hgen : q.gen = some g)
include hm hq hdraft hc hgen

/-- A tree that is not begun starts from the pending token as committed (R37). -/
theorem exec_companionStep_starts (hbranches : g.branches ≠ []) (htree : q.nextTree = none) (hnone : c.nextTree = none)
    (hidle : s.seqInFlight (seqTag c) = []) (hmain : s.seqInFlight (seqTag q) = []) (hp : s.mayStart d = some p) (hroom : s.roomForStep p 1 = true) :
    exec (.companionStep main seq logits) s =
      .next (s.startStep p { c with nextTree := some [{ token := q.tokens.getLastD 0, parent := 0 }] } q.tokens.length false
        [{ token := q.tokens.getLastD 0, parent := 0 }] 0) := by
  obtain ⟨hmotif, -, -⟩ := State.findCompanion_spec hc
  have hdeepest : deepest [{ token := q.tokens.getLastD 0, parent := 0 }] = [{ token := q.tokens.getLastD 0, parent := 0 }] := rfl
  show execCompanionStep main seq logits s = _
  simp only [execCompanionStep, need, hm, hq, hdraft, Option.bind_some, hc, hidle, hgen, htree, State.draftBase, hmain, if_neg hbranches,
    State.startCompanion, hmotif, hp, hnone, Option.getD_none, hdeepest, List.length_singleton, onlyIf, hroom]
  rfl

/-- A companion step on another module's tail ends with the logits it reports (R37, R255). -/
theorem exec_companionStep_ends {r : StepRec} {nodes : List TreeNode} (hflight : s.seqInFlight (seqTag c) = [r]) (hp : s.prickT (r.tag 0 0) = some p)
    (htail : s.tailOf p = false) (hrows : logits.length = r.width) (hcols : ∀ l ∈ logits, l.length = p.vocabSize) (hnodes : c.nextTree = some nodes)
    (hdeep : g.branches.length ≤ treeDepth nodes + 1) :
    exec (.companionStep main seq logits) s =
      .next (((s.endStep (r.tag 0 0) r.n false).putSeq { c with nextTree := none }).giveTree q
        (growTree nodes (g.branches.getD (treeDepth nodes) 0) logits)) := by
  have hlogits : s.draftLogits p r logits = some logits := by
    have hall : (logits.all fun l => decide (l.length = p.vocabSize)) = true := List.all_eq_true.2 fun l hl => decide_eq_true (hcols l hl)
    simp only [State.draftLogits, htail, hrows, hall]
    rfl
  show execCompanionStep main seq logits s = _
  simp only [execCompanionStep, need, hm, hq, hdraft, Option.bind_some, hc, hflight, hp, hlogits, State.endCompanion, hnodes, hgen, if_pos hdeep]
  rfl

end Companion

/-- Settles O25: a prefill step, a generation step with and without room for its records, a tree, and a companion step from its start to its end. -/
theorem stepsAndTreesStart : Obligations.StepsAndTreesStart := by
  refine ⟨fun motif seq p q a s hm hp hq hstate happend hmore hleft hbarred hroom => ?_,
    fun motif seq p q g s hm hp hq hstate hgen hidle hbarred => ⟨fun hslots hone => ?_, fun nodes cut hslots hnodes hroom => ?_, nextNodes_of_no_branches s p q⟩,
    fun main seq d logits q c g s hm hq hdraft hc => ⟨fun tag nodes htag hseq hmotif hok => ?_,
      fun p hgen hbranches htree hnone hidle hmain hp hroom => ?_, fun p r nodes hgen hflight hr hp htail hrows hcols hnodes hdeep => ?_⟩⟩
  · have hexec := exec_prefillStepStart hm hp hq hstate happend hmore hleft hbarred hroom
    obtain ⟨rfl, rfl, hcompanion⟩ := State.findSeq_spec hq
    let w := chunkWidth (ladderChunk (s.stepLevel q.motif)) a
    obtain ⟨⟨r, hr, hmotif, hseq, hstep, -, hgen, hprefill, -, hwidth, hnodes, hended⟩, -, hframe⟩ :=
      State.startStep_starts s p { q with append := some { a with started := a.started + w } } (q.tokens.length + (a.started - a.committed)) true (prefillNodes q a w) 0
    have hle : r.width ≤ w := hwidth ▸ prefillNodes_length_le q a w
    have hfind := State.findSeq_startStep (q := { q with append := some { a with started := a.started + w } }) hq hcompanion p
      (q.tokens.length + (a.started - a.committed)) true (prefillNodes q a w) 0
    refine ⟨_, r, _, hexec, hr, hmotif, hseq, hstep, hgen, hprefill, ?_, ?_, ?_, ?_, hended, hfind, rfl, hframe⟩
    · exact hle.trans ((Nat.min_le_left ..).trans (Nat.min_le_left ..))
    · exact hle.trans ((Nat.min_le_left ..).trans (Nat.min_le_right ..))
    · exact hle.trans (Nat.min_le_right ..)
    · rw [hnodes, hwidth]
  · obtain ⟨slow, heq⟩ := State.markSlow_of_one slowRing hone
    have hexec := exec_generationStepStart_of_full_ring hm hp hq hstate hgen hidle hbarred hslots
    rw [heq] at hexec
    refine ⟨_, hexec, rfl, rfl, ?_, ?_, fun k hk => ?_, rfl⟩
    · rw [State.update_box, if_pos rfl]
      exact noteCauses_ring_head ..
    · rw [State.update_box, if_pos rfl]
      rfl
    · rw [State.update_box, if_neg hk]
      rfl
  · have hexec := exec_generationStepStart_of_room hm hp hq hstate hgen hidle hbarred hslots hnodes hroom
    obtain ⟨rfl, rfl, hcompanion⟩ := State.findSeq_spec hq
    obtain ⟨⟨r, hr, hmotif, hseq, hstep, -, hgen', hprefill, hn, hwidth, hnodes', -⟩, -, hframe⟩ :=
      State.startStep_starts s p { q with nextTree := none } q.tokens.length false nodes (if cut then slowBit slowNarrowed else 0)
    have hfind := State.findSeq_startStep (q := { q with nextTree := none }) hq hcompanion p q.tokens.length false nodes (if cut then slowBit slowNarrowed else 0)
    exact ⟨_, r, _, hexec, hr, hmotif, hseq, hstep, hgen', hprefill, hn, hnodes', hwidth, hfind, rfl, hframe⟩
  · obtain ⟨rfl, rfl, hcompanion⟩ := State.findSeq_spec hq
    exact ⟨_, exec_tree htag (hseq ▸ hq) (hmotif ▸ hdraft) hok, State.findSeq_giveTree hq hcompanion nodes, rfl⟩
  · have hexec := exec_companionStep_starts (logits := logits) hm hq hdraft hc hgen hbranches htree hnone hidle hmain hp hroom
    obtain ⟨rfl, rfl, hcompanion⟩ := State.findCompanion_spec hc
    obtain ⟨⟨r, hr, hmotif, hseq, hstep, hof, hgen', -, -, hwidth, hnodes, -⟩, -, hframe⟩ :=
      State.startStep_starts s p { c with nextTree := some [{ token := q.tokens.getLastD 0, parent := 0 }] } q.tokens.length false
        [{ token := q.tokens.getLastD 0, parent := 0 }] 0
    exact ⟨_, r, hexec, hr, hmotif, hseq, hof.trans hcompanion, hstep, hgen', hwidth, hnodes,
      State.findCompanion_startStep (c := { c with nextTree := some [{ token := q.tokens.getLastD 0, parent := 0 }] }) hc hcompanion p _ false _ 0, hframe⟩
  · have hexec := exec_companionStep_ends hm hq hdraft hc hgen hflight hp htail hrows hcols hnodes hdeep
    obtain ⟨rfl, rfl, hmain⟩ := State.findSeq_spec hq
    obtain ⟨rfl, hid, hcompanion⟩ := State.findCompanion_spec hc
    have hq' : ((s.endStep (r.tag 0 0) r.n false).putSeq { c with nextTree := none }).findSeq q.motif q.id = some q := by
      rw [State.findSeq_putSeq_companion (by simp [hcompanion]), State.findSeq_endStep, hq]
    have hc' : (s.endStep (r.tag 0 0) r.n false).findCompanion c.motif q.motif c.id = some c := by rw [State.findCompanion_endStep, hid, hc]
    refine ⟨_, hexec, State.findSeq_giveTree hq' hmain _, ?_, ?_, ?_, fun hswitch => ?_, ?_⟩
    · rw [State.findCompanion_giveTree _ hmain, ← hid]
      exact State.findCompanion_putSeq (c := { c with nextTree := none }) hc' hcompanion
    · rw [State.giveTree, State.seqInFlight_putSeq, State.seqInFlight_putSeq, State.seqInFlight_endStep hflight hr]
    · exact State.endStep_window s (r.tag 0 0) r.n false
    · exact State.endStep_boxes hswitch (r.tag 0 0) r.n false
    · rw [State.endStep_frame]
      rfl

/-! ### Commits (R47, R253, R254, R261) -/

/-! The record of a step under its tags. -/

/-- The tag of a step's datum names the step by what the step's own tag names it by. -/
theorem StepRec.tag_eq {s : State} {tag : StepTag} {r : StepRec} (h : s.stepOf tag = some r) (hgen : r.gen = tag.gen) (layer : Nat) (lam : Lineage) :
    r.tag layer lam = { tag with layer := layer, lineage := lam } := by
  obtain ⟨hmotif, hseq, hstep, hcompanion⟩ := State.stepOf_spec h
  rw [StepRec.tag, hmotif, hseq, hstep, hcompanion, hgen]

theorem movedTo_datum (tag : StepTag) (layer : Nat) (lam : Lineage) (l : List Move) (id : Nat) :
    movedTo { tag with layer := layer, lineage := lam } l id = movedTo tag l id := by
  induction l with
  | nil => rfl
  | cons mv l ih => rw [movedTo, movedTo, ih]

theorem State.prickT_datum (s : State) (tag : StepTag) (layer : Nat) (lam : Lineage) :
    s.prickT { tag with layer := layer, lineage := lam } = s.prickT tag := by
  have hmoved : movedTo { tag with layer := layer, lineage := lam } s.take.moves = movedTo tag s.take.moves := funext (movedTo_datum tag layer lam _)
  rw [State.prickT, State.prickT, hmoved]

/-! What a module forgets when a sequence's id comes again (R212). -/

theorem State.dropBygone_frame (s : State) (t : StepTag) :
    s.dropBygone t = { s with steps := { s.steps with live := (s.dropBygone t).steps.live }, attn := (s.dropBygone t).attn, seqs := (s.dropBygone t).seqs } := by
  unfold State.dropBygone
  split <;> rfl

theorem State.dropBygone_of_none {s : State} {t : StepTag} (h : s.steps.live.any (s.bygone t) = false) : s.dropBygone t = s := by
  rw [State.dropBygone, h]
  rfl

/-- While its sequence is open no record of it is bygone. -/
theorem State.bygone_of_open {s : State} {t : StepTag} {q : Seq} (hq : s.findSeq t.motif t.seq = some q) (hcompanion : t.companion = none) (r : StepRec) :
    s.bygone t r = false := by
  obtain ⟨hmotif, hid, hhost⟩ := State.findSeq_spec hq
  have hopen : (s.seqs.open_.any fun x => decide (x.motif = t.motif ∧ x.id = t.seq ∧ x.companion = t.companion)) = true :=
    List.any_eq_true.2 ⟨q, List.mem_of_find?_eq_some hq, decide_eq_true ⟨hmotif, hid, hhost.trans hcompanion.symm⟩⟩
  rw [State.bygone, hopen]
  simp

/-- A step that is not over has not ended, where nothing of an earlier sequence of its id is left. -/
theorem State.not_ended_of_not_over {s : State} {t : StepTag} {r : StepRec} (h : s.stepOf t = some r) (hover : s.stepOver t = false)
    (hbygone : s.bygone t r = false) : r.ended = false := by
  obtain ⟨hmotif, hseq, hstep, hcompanion⟩ := State.stepOf_spec h
  have hmine : sameSeq t r = true := decide_eq_true ⟨hmotif, hseq, hcompanion⟩
  have hr := List.any_eq_false.1 hover r (List.mem_of_find?_eq_some h)
  simpa [hmine, hstep, hbygone] using hr

section InFlight
variable {s : State} {t : StepTag} {r : StepRec} (h : s.stepOf t = some r) (hlive : r.ended = false)
include h hlive

/-- A step in flight keeps its record. -/
theorem State.stepOf_dropBygone : (s.dropBygone t).stepOf t = some r := by
  have hkept : (!s.bygone t r) = true := by simp [State.bygone, hlive]
  unfold State.dropBygone
  split
  · exact find?_filter_of_kept h hkept
  · exact h

theorem State.withStep_of_inFlight : s.withStep t = s.dropBygone t := by
  rw [State.withStep, State.stepOf_dropBygone h hlive]
  rfl

end InFlight

/-! A COMMIT applied (R225, R254). -/

/-- A module's state with a COMMIT compacted and its step ended. -/
def State.commitEnded (s : State) (t : StepTag) (p : Pricking) (c : CommitBody) : State :=
  (if c.uncommitted ∨ c.prefill then s else s.compactAll t p c).endStep t c.tokenLength c.uncommitted

/-- Only a commit of a generation step compacts. -/
theorem State.compactedOnce (s : State) (t : StepTag) (p : Pricking) (c : CommitBody) :
    s.Compacted (if c.uncommitted ∨ c.prefill then s else s.compactAll t p c) := by
  split
  · exact .refl s
  · exact .compactAll s t p c

section Committed
variable (s : State) (t : StepTag) (p : Pricking) (c : CommitBody)

theorem State.commitEnded_frame :
    let u := s.commitEnded t p c
    u = { s with boxes := u.boxes, mem := u.mem, arrays := u.arrays, steps := u.steps, data := u.data, attn := u.attn, fabric := u.fabric } := by
  have hcompacted := (State.compactedOnce s t p c).frame
  have hended := State.endStep_frame (if c.uncommitted ∨ c.prefill then s else s.compactAll t p c) t c.tokenLength c.uncommitted
  rw [State.commitEnded]
  generalize (if c.uncommitted = true ∨ c.prefill = true then s else s.compactAll t p c) = v at *
  generalize v.endStep t c.tokenLength c.uncommitted = u at *
  have hfabric : u.fabric = v.fabric := by rw [hended]
  refine hended.trans ?_
  rw [hfabric, hcompacted]

/-- A COMMIT that compacts nothing sends nothing either. -/
theorem State.commitEnded_uncompacted (h : c.uncommitted = true ∨ c.prefill = true) :
    s.commitEnded t p c = s.endStep t c.tokenLength c.uncommitted := by
  rw [State.commitEnded, if_pos h]

theorem State.commitEnded_seqs : (s.commitEnded t p c).seqs = s.seqs := by
  rw [State.commitEnded_frame]

theorem State.commitEnded_sent {m : Msg} (h : m ∈ s.fabric.out) : m ∈ (s.commitEnded t p c).fabric.out := by
  have hframe := State.endStep_frame (if c.uncommitted ∨ c.prefill then s else s.compactAll t p c) t c.tokenLength c.uncommitted
  rw [State.commitEnded, hframe]
  exact (State.compactedOnce s t p c).sent m h

variable {s}

theorem State.commitEnded_boxes (h : s.motifs.switches = []) : (s.commitEnded t p c).boxes = s.boxes := by
  have hframe := (State.compactedOnce s t p c).frame
  refine (State.endStep_boxes ?_ _ _ _).trans ?_
  · rw [hframe]
    exact h
  · rw [hframe]

theorem State.commitEnded_actWait (h : s.steps.actWait = []) : (s.commitEnded t p c).steps.actWait = [] := by
  refine State.endStep_actWait ?_ _ _ _
  rw [(State.compactedOnce s t p c).frame]
  exact h

variable {t}

theorem State.stepOf_commitEnded {r : StepRec} (h : s.stepOf t = some r) :
    (s.commitEnded t p c).stepOf t = some (r.close c.tokenLength c.uncommitted) := by
  refine State.stepOf_endStep ?_ _ _
  rw [(State.compactedOnce s t p c).frame]
  exact h

end Committed

theorem State.admitRows_of_none {s : State} (h : s.steps.actWait = []) : s.admitRows = s := by
  rw [State.admitRows, h, List.foldl_nil, ← h]

/-- A COMMIT of a step in flight ends it; then the head delivers (R254). -/
theorem State.applyCommit_eq {s : State} {t : StepTag} {r : StepRec} {p : Pricking} (h : s.stepOf t = some r) (hlive : r.ended = false)
    (hp : s.prickT t = some p) (c : CommitBody) :
    s.applyCommit t c =
      (let u := (s.dropBygone t).commitEnded t p c
      if u.headOf p || (decide (u.role = 1) && (u.findSeq r.motif r.seq).isSome) then u.headCommit { r with prefill := c.prefill } c else u).admitRows := by
  have hp0 : (s.dropBygone t).prickT t = some p := by rw [State.dropBygone_frame]; exact hp
  rw [State.applyCommit, State.withStep_of_inFlight h hlive]
  simp only [State.stepOf_dropBygone h hlive, hp0, hlive]
  rfl

section NotHead
variable {s : State} {t : StepTag} {r : StepRec} {p : Pricking} (h : s.stepOf t = some r) (hlive : r.ended = false) (hp : s.prickT t = some p)
  (hhead : s.headOf p = false) (hrole : s.role ≠ 1) (hwait : s.steps.actWait = [])
include h hlive hp hhead hrole hwait

/-- On a module that is not the head nothing follows (R254). -/
theorem State.applyCommit_of_not_head (c : CommitBody) : s.applyCommit t c = (s.dropBygone t).commitEnded t p c := by
  have hframe := State.commitEnded_frame (s.dropBygone t) t p c
  have hhead' : ((s.dropBygone t).commitEnded t p c).headOf p = false := by
    rw [hframe, State.dropBygone_frame]
    exact hhead
  have hrole' : ((s.dropBygone t).commitEnded t p c).role ≠ 1 := by
    rw [hframe, State.dropBygone_frame]
    exact hrole
  have hwait' : (s.dropBygone t).steps.actWait = [] := by rw [State.dropBygone_frame]; exact hwait
  rw [State.applyCommit_eq h hlive hp]
  simp only [hhead', decide_eq_false hrole']
  exact State.admitRows_of_none (State.commitEnded_actWait t p c hwait')

/-- There the step ends, its retained rows are released, and what was sent stays sent (R239, R254). -/
theorem State.applyCommit_ends (c : CommitBody) :
    let u := s.applyCommit t c
    u.stepOf t = some (r.close c.tokenLength c.uncommitted) ∧ (s.motifs.switches = [] → u.boxes = s.boxes) ∧
      (c.prefill = true ∨ c.uncommitted = true → u.mem.window = s.mem.window) ∧ ∀ m ∈ s.fabric.out, m ∈ u.fabric.out := by
  have hdrop := State.dropBygone_frame s t
  rw [State.applyCommit_of_not_head h hlive hp hhead hrole hwait]
  refine ⟨State.stepOf_commitEnded p c (State.stepOf_dropBygone h hlive), fun hswitch => ?_, fun hnone => ?_, fun m hm => ?_⟩
  · have hswitch' : (s.dropBygone t).motifs.switches = [] := by rw [hdrop]; exact hswitch
    rw [State.commitEnded_boxes t p c hswitch', hdrop]
  · rw [State.commitEnded_uncompacted _ t p c hnone.symm, State.endStep_window, hdrop]
  · exact State.commitEnded_sent _ t p c (by rw [hdrop]; exact hm)

end NotHead

/-! ### The tail's decision (R47, R253, R254, R261) -/

/-- The COMMIT as it goes to one module (R254). -/
def State.commitMsg (s : State) (t : StepTag) (c : CommitBody) (d : Nat) : Msg := { s.msg d (some t) (.commit c) with relay := true }

theorem State.sendCommit_frame (s : State) (p : Pricking) (t : StepTag) (c : CommitBody) :
    s.sendCommit p t c = { s with fabric := (s.sendCommit p t c).fabric } :=
  State.foldl_send_frame (fun u d => u.commitMsg t c d) _ s

/-- Every other module of the group that holds part of the motif gets the COMMIT (R254). -/
theorem State.sendCommit_sends (s : State) {p : Pricking} (t : StepTag) (c : CommitBody) {d : Nat} (hd : d ∈ s.motifModules p) (hother : d ≠ s.machineId)
    (hgroup : groupOf d = groupOf s.machineId) : s.commitMsg t c d ∈ (s.sendCommit p t c).fabric.out := by
  refine State.foldl_send_sends (fun u d => u.commitMsg t c d) (fun _ _ => rfl) (List.mem_append_left _ ?_)
  simp [hd, hother, hgroup]

section Decision
variable {tag : StepTag} {p : Pricking} {r : StepRec} {s : State} (hp : s.prickT tag = some p) (hr : s.stepOf tag = some r) (htail : s.tailOf p = true)
  (hlive : r.ended = false)

/-- Commits, on a tail that is not the head, a step in flight: the COMMIT is sent and the step ends here (R254). -/
def State.endsWith (s t : State) (tag : StepTag) (p : Pricking) (r : StepRec) (c : CommitBody) : Prop :=
  t.stepOf tag = some (r.close c.tokenLength c.uncommitted) ∧ (s.motifs.switches = [] → t.boxes = s.boxes) ∧
    (c.prefill = true ∨ c.uncommitted = true → t.mem.window = s.mem.window) ∧
    ∀ d ∈ s.motifModules p, d ≠ s.machineId → groupOf d = groupOf s.machineId →
      ∃ m ∈ t.fabric.out, m.dest = d ∧ m.body = .commit c ∧ m.tag = some (r.tag (p.layers.length - 1) (floorAt r (p.layers.length - 1)))

include hp hr hlive in
theorem State.sendCommit_applyCommit_ends (hgen : r.gen = tag.gen) (hhead : s.headOf p = false) (hrole : s.role ≠ 1) (hwait : s.steps.actWait = [])
    (c : CommitBody) :
    let t := r.tag (p.layers.length - 1) (floorAt r (p.layers.length - 1))
    s.endsWith ((s.sendCommit p t c).applyCommit t c) tag p r c := by
  intro t
  have ht : t = { tag with layer := p.layers.length - 1, lineage := floorAt r (p.layers.length - 1) } := StepRec.tag_eq hr hgen _ _
  have hsent := State.sendCommit_frame s p t c
  have hsends := fun d => State.sendCommit_sends s (p := p) t c (d := d)
  generalize s.sendCommit p t c = u at *
  have hr' : u.stepOf t = some r := by rw [hsent, ht]; exact hr
  have hp' : u.prickT t = some p := by rw [hsent, ht]; exact (State.prickT_datum s tag _ _).trans hp
  have hhead' : u.headOf p = false := by rw [hsent]; exact hhead
  have hrole' : u.role ≠ 1 := by rw [hsent]; exact hrole
  have hwait' : u.steps.actWait = [] := by rw [hsent]; exact hwait
  obtain ⟨hstep, hboxes, hwindow, hkept⟩ := State.applyCommit_ends hr' hlive hp' hhead' hrole' hwait' c
  refine ⟨?_, fun hswitch => ?_, fun hnone => ?_, fun d hd hother hgroup => ?_⟩
  · rw [← hstep, ht]
    rfl
  · rw [hboxes (by rw [hsent]; exact hswitch), hsent]
  · rw [hwindow hnone, hsent]
  · exact ⟨_, hkept _ (hsends d hd hother hgroup), rfl, rfl, rfl⟩

variable (hsafe : s.start.safe = false) (hcompanion : r.companion = none) (hturn : s.turnToCommit r = true)
include hp hr htail hlive hsafe hcompanion hturn

theorem exec_commitDecision_of_recalled (hrecalled : r.noReplay.isSome = true) :
    let t := r.tag (p.layers.length - 1) (floorAt r (p.layers.length - 1))
    exec (.commitDecision tag) s = .next ((s.sendCommit p t (s.uncommittedBody r)).applyCommit t (s.uncommittedBody r)) := by
  show execCommitDecision tag s = _
  simp only [execCommitDecision, hp, hr, htail, hlive, hsafe, hcompanion, hturn, hrecalled]
  rfl

section Whole
variable (hrecalled : r.noReplay = none) (hdepends : s.dependsOnEnded r = false) {chk : CheckBody}
  (hcheck : checkBefore r (segFirst (s.ownLayers p) (p.layers.length - 1)) = some chk)
  (hdone : s.layersDone r (segFirst (s.ownLayers p) (p.layers.length - 1)) (p.layers.length - 1) = true)
  (hreplayed : floorAt r (p.layers.length - 1) = r.maxLineage)
include hrecalled hdepends hcheck hdone hreplayed

theorem exec_commitDecision_of_prefill (hprefill : r.prefill = true) :
    let t := r.tag (p.layers.length - 1) (floorAt r (p.layers.length - 1))
    exec (.commitDecision tag) s = .next ((s.sendCommit p t (s.commitBody r chk [] [])).applyCommit t (s.commitBody r chk [] [])) := by
  show execCommitDecision tag s = _
  simp only [execCommitDecision, hp, hr, htail, hlive, hsafe, hcompanion, hturn, hrecalled, hdepends, hcheck, hdone, hreplayed, hprefill]
  simp

theorem exec_commitDecision_of_verdict (hprefill : r.prefill = false) {path tokens : List Nat}
    (hverdict : s.verdict p r (r.tag (p.layers.length - 1) (floorAt r (p.layers.length - 1))) = some (path, tokens)) :
    let t := r.tag (p.layers.length - 1) (floorAt r (p.layers.length - 1))
    exec (.commitDecision tag) s = .next ((s.sendCommit p t (s.commitBody r chk path tokens)).applyCommit t (s.commitBody r chk path tokens)) := by
  rw [hreplayed] at hverdict
  show execCommitDecision tag s = _
  simp only [execCommitDecision, hp, hr, htail, hlive, hsafe, hcompanion, hturn, hrecalled, hdepends, hcheck, hdone, hreplayed, hprefill, hverdict]
  simp

end Whole
end Decision

/-! ### The head's part of a commit (R37, R44 to R47, R77, R254) -/

/-! Slow causes noted (R73). -/

theorem State.markSlows_open (s : State) (motif seq : Nat) (mask : BitVec 16) : (s.markSlows motif seq mask).seqs.open_ = s.seqs.open_ := by
  unfold State.markSlows
  refine foldl_keeps (fun t : State => t.seqs.open_) _ (fun _ _ => ?_) _ _
  rfl

theorem State.markSlows_binds (s : State) (motif seq : Nat) (mask : BitVec 16) : (s.markSlows motif seq mask).seqs.binds = s.seqs.binds := by
  unfold State.markSlows
  refine foldl_keeps (fun t : State => t.seqs.binds) _ (fun _ _ => ?_) _ _
  rfl

theorem State.markSlows_records (s : State) (motif seq : Nat) (mask : BitVec 16) (k : Nat) :
    ((s.markSlows motif seq mask).box k).records = (s.box k).records := by
  unfold State.markSlows
  refine foldl_keeps (fun t : State => (t.box k).records) _ (fun u x => ?_) _ _
  rw [State.update_box]
  split
  · next h => rw [h]; rfl
  · rfl

/-- A mailbox whose command does not name the sequence keeps its word. -/
theorem State.markSlows_box_other {s : State} {motif seq m : Nat} (mask : BitVec 16) (honly : ∀ e ∈ s.boxes.box, namesSeq e.2 motif seq = true → e.1 = m)
    {k : Nat} (hk : k ≠ m) : (s.markSlows motif seq mask).box k = s.box k := by
  unfold State.markSlows
  refine List.foldlRecOn (motive := fun t : State => t.box k = s.box k) _ _ rfl fun u hu e he => ?_
  obtain ⟨hmem, hnames⟩ := List.mem_filter.1 he
  rw [State.update_box, if_neg (by rw [honly e hmem hnames]; exact hk), hu]

/-! Tokens delivered (R50, R77). -/

theorem tokenRecords_records (m : Nat) (b : Mailbox) (r : StepRec) (c : CommitBody) (n : Nat) (stops : List Nat) :
    (tokenRecords m b r c n stops).records = b.records + c.delivered := by
  have hfold : ∀ (f : Mailbox → Nat → Mailbox), (∀ b j, (f b j).records = b.records + 1) →
      ∀ (l : List Nat) b, (l.foldl f b).records = b.records + l.length := by
    intro f hf l
    induction l with
    | nil => exact fun b => rfl
    | cons j l ih =>
      intro b
      rw [List.foldl_cons, ih, hf, List.length_cons]
      omega
  rw [tokenRecords, hfold _ (fun _ _ => rfl), List.length_range]

/-- A sequence with the tokens that a commit delivers to its generation (R44, R45). -/
def Seq.withDelivered (q : Seq) (g : GenInfo) (c : CommitBody) : Seq :=
  { q with tokens := q.tokens ++ c.tokens.take c.delivered, gen := some { g with delivered := g.delivered + c.delivered } }

/-- A generation's tokens delivered: its sequence, its records, its causes and its progress (R44, R50, R72, R77). -/
def State.tokensDelivered (s : State) (q : Seq) (g : GenInfo) (r : StepRec) (c : CommitBody) : State :=
  (((s.setBox g.mailbox (tokenRecords g.mailbox (s.box g.mailbox) r c q.tokens.length g.stops)).putSeq (q.withDelivered g c)).markSlows r.motif r.seq
    c.slow).setProgress g.mailbox (g.delivered + c.delivered)

theorem State.headGenerate_of_running {s : State} {q : Seq} {g : GenInfo} (r : StepRec) {c : CommitBody} (hstate : q.state = .generating)
    (hend : endCondition { g with delivered := g.delivered + c.delivered } (c.tokens.take c.delivered) (q.tokens ++ c.tokens.take c.delivered).length false = none) :
    s.headGenerate q g r c = s.tokensDelivered q g r c := by
  have hclosing : decide (q.state = .closing) = false := by rw [hstate]; rfl
  rw [State.headGenerate]
  simp only [hclosing, hend]
  rfl

section Delivered
variable (s : State) (q : Seq) (g : GenInfo) (r : StepRec) (c : CommitBody)

theorem State.tokensDelivered_frame :
    s.tokensDelivered q g r c = { s with boxes := (s.tokensDelivered q g r c).boxes, seqs := (s.tokensDelivered q g r c).seqs } := by
  apply State.ext_fields <;> simp [State.tokensDelivered, State.putSeq, State.setBox]

theorem State.tokensDelivered_open : (s.tokensDelivered q g r c).seqs.open_ = (s.putSeq (q.withDelivered g c)).seqs.open_ :=
  State.markSlows_open ..

theorem State.tokensDelivered_binds : (s.tokensDelivered q g r c).seqs.binds = s.seqs.binds :=
  State.markSlows_binds ..

theorem State.tokensDelivered_records : ((s.tokensDelivered q g r c).box g.mailbox).records = (s.box g.mailbox).records + c.delivered := by
  have hrecords : ∀ u : State, ((u.setProgress g.mailbox (g.delivered + c.delivered)).box g.mailbox).records = (u.box g.mailbox).records := fun u => by
    rw [State.setProgress, State.update_box, if_pos rfl]
    rfl
  have hwritten : ((s.setBox g.mailbox (tokenRecords g.mailbox (s.box g.mailbox) r c q.tokens.length g.stops)).box g.mailbox).records =
      (s.box g.mailbox).records + c.delivered := by
    rw [State.setBox_box, if_pos rfl, tokenRecords_records]
  rw [State.tokensDelivered, hrecords, State.markSlows_records]
  exact hwritten

theorem State.tokensDelivered_progress : ((s.tokensDelivered q g r c).box g.mailbox).progress = g.delivered + c.delivered := by
  rw [State.tokensDelivered, State.setProgress, State.update_box, if_pos rfl]
  rfl

variable {s g r}

/-- Another mailbox is left alone where none but the generation's names the sequence. -/
theorem State.tokensDelivered_box_other (honly : ∀ e ∈ s.boxes.box, namesSeq e.2 r.motif r.seq = true → e.1 = g.mailbox) {k : Nat} (hk : k ≠ g.mailbox) :
    (s.tokensDelivered q g r c).box k = s.box k := by
  rw [State.tokensDelivered, State.setProgress, State.update_box, if_neg hk]
  refine (State.markSlows_box_other c.slow (m := g.mailbox) (fun e he hnames => ?_) hk).trans ?_
  · rcases Tab.mem_put he with rfl | hold
    · rfl
    · exact honly e hold hnames
  · exact (State.setBox_box ..).trans (if_neg hk)

variable {q}

theorem State.findSeq_tokensDelivered {q0 : Seq} (hq : s.findSeq q.motif q.id = some q0) (hcompanion : q.companion = none) :
    (s.tokensDelivered q g r c).findSeq q.motif q.id = some (q.withDelivered g c) :=
  (State.findSeq_congr (State.tokensDelivered_open s q g r c) _ _).trans (State.findSeq_putSeq (q := q.withDelivered g c) hq hcompanion)

end Delivered

/-! What follows on the head (R37, R70, R214). -/

theorem State.advanceCompanion_frame (s : State) (motif seq : Nat) :
    s.advanceCompanion motif seq = { s with seqs := { s.seqs with open_ := (s.advanceCompanion motif seq).seqs.open_ } } := by
  unfold State.advanceCompanion
  split
  · rfl
  · dsimp only
    split <;> rfl

/-- The main sequence is advanced in its next tree alone. -/
theorem State.findSeq_advanceCompanion {s : State} {motif seq : Nat} {q : Seq} (hq : s.findSeq motif seq = some q) :
    ∃ tree, (s.advanceCompanion motif seq).findSeq motif seq = some { q with nextTree := tree } := by
  obtain ⟨rfl, rfl, hmain⟩ := State.findSeq_spec hq
  have hput := fun tree => State.findSeq_putSeq (q := { q with nextTree := tree }) hq hmain
  unfold State.advanceCompanion
  rw [hq]
  dsimp only
  split
  · exact ⟨_, hput _⟩
  · next c hc =>
    obtain ⟨d, -, hc⟩ := Option.bind_eq_some_iff.1 hc
    obtain ⟨-, -, hcompanion⟩ := State.findCompanion_spec hc
    exact ⟨_, (State.findSeq_putSeq_companion (by simp [hcompanion]) _ _).trans (hput _)⟩

theorem State.vacateSeq_of_none {s : State} (h : s.take.vacatedTo = none) (motif seq : Nat) : s.vacateSeq motif seq = s := by
  rw [State.vacateSeq, h]

theorem State.finishBinds_of_none {s : State} (h : s.seqs.binds = []) : s.finishBinds = s := by
  simp only [State.finishBinds, h, List.filter_nil, List.foldl_nil]
  rw [← h]

theorem State.closeIfDone_of_open {s : State} {motif seq : Nat} {q : Seq} (hq : s.findSeq motif seq = some q) (hstate : q.state ≠ .closing) :
    s.closeIfDone motif seq = s := by
  rw [State.closeIfDone, hq]
  exact State.finishClose_of_not_closing hstate

/-- What follows a delivery to an open sequence advances its companion, where nothing waits for the commit. -/
theorem State.delivery_follows {s : State} {motif seq : Nat} {q : Seq} (hq : s.findSeq motif seq = some q) (hstate : q.state ≠ .closing)
    (hbinds : s.seqs.binds = []) (hvacated : s.take.vacatedTo = none) :
    (((s.advanceCompanion motif seq).vacateSeq motif seq).finishBinds).closeIfDone motif seq = s.advanceCompanion motif seq := by
  obtain ⟨tree, htree⟩ := State.findSeq_advanceCompanion hq
  have hframe := State.advanceCompanion_frame s motif seq
  have hvacant : (s.advanceCompanion motif seq).take.vacatedTo = none := by rw [hframe]; exact hvacated
  have hunbound : (s.advanceCompanion motif seq).seqs.binds = [] := by rw [hframe]; exact hbinds
  rw [State.vacateSeq_of_none hvacant, State.finishBinds_of_none hunbound]
  exact State.closeIfDone_of_open htree hstate

/-- The state of a head that has noted the level of a commit (R254). -/
def State.levelNoted (s : State) (r : StepRec) (c : CommitBody) : State :=
  { s with steps := { s.steps with commitLevel := Tab.put 0 s.steps.commitLevel r.motif c.level } }

/-- A sequence of which a step has been committed (R34). -/
def Seq.stepCounted (q : Seq) (step : Nat) : Seq := { q with nextStep := max q.nextStep (step + 1) }

/-- The commit of a generation step on the head. -/
theorem State.headCommit_of_generation {s : State} {q : Seq} {g : GenInfo} {r : StepRec} {c : CommitBody} (hcompanion : r.companion = none)
    (hq : s.findSeq r.motif r.seq = some q) (hgen : q.gen = some g) (hcommitted : c.uncommitted = false) :
    s.headCommit r c =
      (((((s.levelNoted r c).headGenerate (q.stepCounted r.step) g r c).advanceCompanion r.motif r.seq).vacateSeq r.motif r.seq).finishBinds).closeIfDone
        r.motif r.seq := by
  have hfind : (s.levelNoted r c).findSeq r.motif r.seq = some q := hq
  rw [State.levelNoted] at hfind
  simp only [State.headCommit, hcompanion, hfind, hcommitted, hgen]
  rfl

/-- On the head the commit of a generation step that ends nothing delivers its tokens to the open sequence and leaves the step records as they are. -/
theorem State.headCommit_of_running {s : State} {q : Seq} {g : GenInfo} {r : StepRec} {c : CommitBody} (hcompanion : r.companion = none)
    (hq : s.findSeq r.motif r.seq = some q) (hstate : q.state = .generating) (hgen : q.gen = some g) (hcommitted : c.uncommitted = false)
    (hbinds : s.seqs.binds = []) (hvacated : s.take.vacatedTo = none)
    (hend : endCondition { g with delivered := g.delivered + c.delivered } (c.tokens.take c.delivered) (q.tokens ++ c.tokens.take c.delivered).length false = none) :
    let t := s.headCommit r c
    (∃ q', t.findSeq r.motif r.seq = some q' ∧ q'.tokens = q.tokens ++ c.tokens.take c.delivered ∧ q'.state = .generating ∧
      q'.gen = some { g with delivered := g.delivered + c.delivered }) ∧
    (t.box g.mailbox).records = (s.box g.mailbox).records + c.delivered ∧ (t.box g.mailbox).progress = g.delivered + c.delivered ∧
    t.steps.live = s.steps.live ∧ t.steps.actWait = s.steps.actWait := by
  obtain ⟨hmotif, hid, hmain⟩ := State.findSeq_spec hq
  have hfind : (s.levelNoted r c).findSeq (q.stepCounted r.step).motif (q.stepCounted r.step).id = some q := by rw [← hq, ← hmotif, ← hid]; rfl
  have hdelivered : ((s.levelNoted r c).tokensDelivered (q.stepCounted r.step) g r c).findSeq r.motif r.seq = some ((q.stepCounted r.step).withDelivered g c) := by
    rw [← hmotif, ← hid]
    exact State.findSeq_tokensDelivered c hfind hmain
  have hframe := State.tokensDelivered_frame (s.levelNoted r c) (q.stepCounted r.step) g r c
  have hunbound := (State.tokensDelivered_binds (s.levelNoted r c) (q.stepCounted r.step) g r c).trans hbinds
  have hrecords := State.tokensDelivered_records (s.levelNoted r c) (q.stepCounted r.step) g r c
  have hprogress := State.tokensDelivered_progress (s.levelNoted r c) (q.stepCounted r.step) g r c
  have hopen : ((q.stepCounted r.step).withDelivered g c).state ≠ .closing := fun h => by cases hstate.symm.trans h
  rw [State.headCommit_of_generation hcompanion hq hgen hcommitted, State.headGenerate_of_running (q := q.stepCounted r.step) r hstate hend]
  generalize (s.levelNoted r c).tokensDelivered (q.stepCounted r.step) g r c = u at *
  have hvacant : u.take.vacatedTo = none := by rw [hframe]; exact hvacated
  rw [State.delivery_follows hdelivered hopen hunbound hvacant]
  obtain ⟨tree, htree⟩ := State.findSeq_advanceCompanion hdelivered
  refine ⟨⟨_, htree, rfl, hstate, rfl⟩, ?_⟩
  rw [State.advanceCompanion_frame]
  refine ⟨hrecords, hprogress, ?_, ?_⟩
  · rw [hframe]
    rfl
  · rw [hframe]
    rfl

/-! The end of a generation (R44). -/

theorem endCondition_of_no_stop {g : GenInfo} {toks : List Nat} (h : ¬ ∃ t ∈ toks, t ∈ g.stops) (n : Nat) (closing : Bool) :
    endCondition g toks n closing =
      if g.count ≤ g.delivered then some (0, 0) else if 16777216 ≤ n then some (0x0301, 0)
      else if g.cancelled = true ∨ closing = true then some (2, 0) else none := by
  have hnone : toks.find? g.stops.contains = none := List.find?_eq_none.2 fun t ht hstop => h ⟨t, ht, List.contains_iff_mem.1 hstop⟩
  rw [endCondition, hnone]
  rfl

theorem endCondition_of_stop {g : GenInfo} {toks : List Nat} (h : ∃ t ∈ toks, t ∈ g.stops) (n : Nat) (closing : Bool) :
    ∃ t, t ∈ toks ∧ t ∈ g.stops ∧ endCondition g toks n closing = some (1, t) := by
  obtain ⟨t, ht, hstop⟩ := h
  have hsome : (toks.find? g.stops.contains).isSome = true := List.find?_isSome.2 ⟨t, ht, List.contains_iff_mem.2 hstop⟩
  obtain ⟨u, hu⟩ := Option.isSome_iff_exists.1 hsome
  refine ⟨u, List.mem_of_find?_eq_some hu, List.contains_iff_mem.1 (List.find?_some hu), ?_⟩
  rw [endCondition, hu]
  rfl

/-! ### Steps are committed (R44, R47, R77, R253, R254, R261) -/

theorem exec_commit_of_inFlight {tag : StepTag} {p : Pricking} {s : State} (hp : s.prickT tag = some p) (hover : s.stepOver tag = false) (c : CommitBody) :
    exec (.commit tag false c) s = .next (s.applyCommit tag c) := by
  show execCommit tag false c s = _
  simp only [execCommit, hp, hover]
  rfl

/-- On the head the COMMIT of a generation step in flight of an open sequence ends the step, and the head delivers. -/
theorem State.applyCommit_of_head {s : State} {tag : StepTag} {p : Pricking} {r : StepRec} {q : Seq} {c : CommitBody} (hp : s.prickT tag = some p)
    (hr : s.stepOf tag = some r) (hlive : r.ended = false) (hhead : s.headOf p = true) (hcompanion : r.companion = none)
    (hq : s.findSeq r.motif r.seq = some q) :
    s.applyCommit tag c = ((s.commitEnded tag p c).headCommit { r with prefill := c.prefill } c).admitRows := by
  obtain ⟨hmotif, hseq, -, hof⟩ := State.stepOf_spec hr
  have hopen : s.findSeq tag.motif tag.seq = some q := by rw [← hmotif, ← hseq]; exact hq
  have hnone : s.steps.live.any (s.bygone tag) = false :=
    List.any_eq_false.2 fun x _ => by rw [State.bygone_of_open hopen (hof.symm.trans hcompanion) x]; nofun
  have hhead' : (s.commitEnded tag p c).headOf p = true := by rw [State.commitEnded_frame]; exact hhead
  rw [State.applyCommit_eq hr hlive hp, State.dropBygone_of_none hnone]
  simp only [hhead']
  rfl

/-- On the head the COMMIT of a generation step that ends nothing delivers its tokens and ends the step. -/
theorem exec_commit_delivers {s : State} {tag : StepTag} {p : Pricking} {r : StepRec} {q : Seq} {g : GenInfo} {c : CommitBody} (hp : s.prickT tag = some p)
    (hr : s.stepOf tag = some r) (hover : s.stepOver tag = false) (hhead : s.headOf p = true) (hcompanion : r.companion = none)
    (hwait : s.steps.actWait = []) (hcommitted : c.uncommitted = false) (hq : s.findSeq r.motif r.seq = some q) (hstate : q.state = .generating)
    (hgen : q.gen = some g) (hbinds : s.seqs.binds = []) (hvacated : s.take.vacatedTo = none) (hswitch : s.motifs.switches = [])
    (hend : endCondition { g with delivered := g.delivered + c.delivered } (c.tokens.take c.delivered) (q.tokens ++ c.tokens.take c.delivered).length false = none) :
    ∃ t q', exec (.commit tag false c) s = .next t ∧ t.findSeq r.motif r.seq = some q' ∧ q'.tokens = q.tokens ++ c.tokens.take c.delivered ∧
      q'.state = .generating ∧ q'.gen = some { g with delivered := g.delivered + c.delivered } ∧
      (t.box g.mailbox).records = (s.box g.mailbox).records + c.delivered ∧ (t.box g.mailbox).progress = g.delivered + c.delivered ∧
      t.stepOf tag = some (r.close c.tokenLength c.uncommitted) := by
  obtain ⟨hmotif, hseq, -, hof⟩ := State.stepOf_spec hr
  have hlive : r.ended = false := State.not_ended_of_not_over hr hover (State.bygone_of_open (hmotif ▸ hseq ▸ hq) (hof ▸ hcompanion) r)
  have hexec := exec_commit_of_inFlight hp hover c
  rw [State.applyCommit_of_head hp hr hlive hhead hcompanion hq] at hexec
  have hframe := State.commitEnded_frame s tag p c
  have hstep := State.stepOf_commitEnded p c hr
  have hboxes := State.commitEnded_boxes tag p c hswitch
  have hended := State.commitEnded_actWait tag p c hwait
  generalize s.commitEnded tag p c = u at *
  obtain ⟨⟨q', hq', htokens, hstate', hgen'⟩, hrecords, hprogress, hsteps, hrows⟩ :=
    State.headCommit_of_running (s := u) (q := q) (g := g) (r := { r with prefill := c.prefill }) (c := c) hcompanion (by rw [hframe]; exact hq) hstate hgen
      hcommitted (by rw [hframe]; exact hbinds) (by rw [hframe]; exact hvacated) hend
  rw [State.admitRows_of_none (hrows.trans hended)] at hexec
  refine ⟨_, q', hexec, hq', htokens, hstate', hgen', ?_, hprogress, (State.stepOf_congr hsteps tag).trans hstep⟩
  rw [hrecords, State.box, hboxes]
  rfl

/-- Settles O29: the tail's decision ends the step with its COMMIT sent; a COMMIT elsewhere ends the step and leaves memory where it compacts nothing; on the
head it delivers; the end conditions stand in order. -/
theorem stepsAreCommitted : Obligations.StepsAreCommitted := by
  refine ⟨fun tag p r s hp hr htail hlive hsafe hhead hrole hturn hgen hcompanion hwait => ?_,
    fun tag c p r s hp hr hover hhead hrole hwait hbygone => ?_,
    fun tag c p r q g s hp hr hover hhead hcompanion hwait hcommitted hprefill hq hstate hgen hbinds hvacated hswitch hend => ?_,
    fun q g r c s hopen hcompanion hstate hgen hend => ?_, fun g toks n closing => ?_⟩
  · intro last ends
    have hends : ∀ c t, exec (.commitDecision tag) s = .next t → s.endsWith t tag p r c → ends c :=
      fun c t hexec ⟨hstep, hboxes, hwindow, hsent⟩ => ⟨t, _, hexec, hstep, rfl, rfl, rfl, rfl, rfl, hboxes, hwindow, hsent⟩
    have hcommits := State.sendCommit_applyCommit_ends hp hr hlive hgen hhead hrole hwait
    refine ⟨fun chk hrecalled hdepends hcheck hdone hreplayed => ⟨fun hprefill => ?_, fun path tokens hprefill hverdict => ?_⟩, fun f hrecalled => ?_⟩
    · exact hends _ _ (exec_commitDecision_of_prefill hp hr htail hlive hsafe hcompanion hturn hrecalled hdepends hcheck hdone hreplayed hprefill) (hcommits _)
    · exact hends _ _ (exec_commitDecision_of_verdict hp hr htail hlive hsafe hcompanion hturn hrecalled hdepends hcheck hdone hreplayed hprefill hverdict)
        (hcommits _)
    · exact hends _ _ (exec_commitDecision_of_recalled hp hr htail hlive hsafe hcompanion hturn (by rw [hrecalled]; rfl)) (hcommits _)
  · have hlive : r.ended = false :=
      State.not_ended_of_not_over hr hover (by simpa using List.any_eq_false.1 hbygone r (List.mem_of_find?_eq_some hr))
    have hended := State.applyCommit_of_not_head hr hlive hp hhead hrole hwait c
    rw [State.dropBygone_of_none hbygone] at hended
    refine ⟨_, _, (exec_commit_of_inFlight hp hover c).trans (by rw [hended]), State.stepOf_commitEnded p c hr, rfl, rfl, rfl, rfl, rfl,
      State.commitEnded_boxes tag p c, State.commitEnded_seqs s tag p c, fun hnone => ?_⟩
    rw [State.commitEnded_uncompacted s tag p c hnone.symm]
    refine ⟨State.endStep_window .., ?_⟩
    rw [State.endStep_frame]
  · obtain ⟨t, q', hexec, hq', htokens, hstate', hgen', hrecords, hprogress, hstep⟩ :=
      exec_commit_delivers hp hr hover hhead hcompanion hwait hcommitted hq hstate hgen hbinds hvacated hswitch hend
    exact ⟨t, q', _, hexec, hq', htokens, hstate', hgen', hrecords, hprogress, hstep, rfl, hcommitted⟩
  · have hfind : s.findSeq q.motif q.id = some q := by simp [State.findSeq, hopen, hcompanion]
    rw [State.headGenerate_of_running r hstate hend]
    refine ⟨_, State.findSeq_tokensDelivered c hfind hcompanion, rfl, hstate, rfl, State.tokensDelivered_records .., State.tokensDelivered_progress ..,
      fun honly k hk => State.tokensDelivered_box_other q c honly hk, ?_⟩
    rw [State.tokensDelivered_frame]
  · refine ⟨fun hstop => endCondition_of_stop hstop n closing, fun hstop hcount => ?_, fun hstop hcount hlong => ?_, fun hstop hcount hlong hcancel => ?_,
      fun hstop hcount hlong hrunning hopen => ?_⟩
    · rw [endCondition_of_no_stop hstop, if_pos hcount]
    · rw [endCondition_of_no_stop hstop, if_neg (by omega), if_pos hlong]
    · rw [endCondition_of_no_stop hstop, if_neg (by omega), if_neg (by omega), if_pos hcancel]
    · rw [endCondition_of_no_stop hstop, if_neg (by omega), if_neg (by omega), if_neg (by simp [hrunning, hopen])]

/-! ### Arrays and motifs released (R114, R179, R290, R292) -/

/-- One array returned to FREE, or left OUT where no working physical array serves it (R114, R283). -/
def State.freeArray (s : State) (a : Nat) : State :=
  ((s.setPhys (s.physOf a) (disowned (s.phys (s.physOf a)))).setArray a
    { s.array a with service := if (s.workOf a).isSome then .free else .out, due := none, outForService := false }).takeHost a

theorem State.freeArrays_eq (s : State) (l : List Nat) : s.freeArrays l = l.foldl State.freeArray s := rfl

theorem State.takeHost_frame (s : State) (a : Nat) :
    s.takeHost a = { s with arrays := { s.arrays with addr := (s.takeHost a).arrays.addr, phys := (s.takeHost a).arrays.phys } } := by
  unfold State.takeHost
  split
  · split <;> rfl
  · rfl

/-- A host set that comes into force leaves the service of every array. -/
theorem State.takeHost_service (s : State) (a b : Nat) : ((s.takeHost a).array b).service = (s.array b).service := by
  unfold State.takeHost
  split
  · split
    · rw [State.setArray_array]
      split
      · next h => rw [h]
      · rfl
    · rfl
  · rfl

theorem State.setPhys_setArray_frame (s : State) (ph a : Nat) (x : PhysArray) (v : ArrayState) :
    (s.setPhys ph x).setArray a v = { s with arrays := { s.arrays with
      addr := ((s.setPhys ph x).setArray a v).arrays.addr, phys := ((s.setPhys ph x).setArray a v).arrays.phys } } := rfl

theorem State.freeArray_frame (s : State) (a : Nat) :
    s.freeArray a = { s with arrays := { s.arrays with addr := (s.freeArray a).arrays.addr, phys := (s.freeArray a).arrays.phys } } := by
  have hset := State.setPhys_setArray_frame s (s.physOf a) a (disowned (s.phys (s.physOf a)))
    { s.array a with service := if (s.workOf a).isSome then .free else .out, due := none, outForService := false }
  rw [State.freeArray]
  generalize (s.setPhys _ _).setArray a _ = u at *
  rw [State.takeHost_frame, hset]

theorem State.freeArray_service (s : State) (a b : Nat) :
    ((s.freeArray a).array b).service = if b = a then (if (s.workOf a).isSome then .free else .out) else (s.array b).service := by
  rw [State.freeArray, State.takeHost_service, State.setArray_array]
  split <;> rfl

theorem State.freeArray_workOf (s : State) (a b : Nat) : (s.freeArray a).workOf b = s.workOf b := by
  rw [State.freeArray_frame]
  rfl

theorem State.freeArrays_frame (s : State) (l : List Nat) : s.freeArrays l = { s with arrays := (s.freeArrays l).arrays } := by
  rw [State.freeArrays_eq]
  induction l generalizing s with
  | nil => rfl
  | cons a l ih =>
    rw [List.foldl_cons]
    exact (ih _).trans (by rw [State.freeArray_frame])

/-- Every array of the list ends FREE, or OUT where no working physical array serves it. -/
theorem State.freeArrays_service {s : State} {l : List Nat} {a : Nat} (ha : a ∈ l) :
    ((s.freeArrays l).array a).service = if (s.workOf a).isSome then .free else .out := by
  have hfold : ∀ (l : List Nat) (s : State), a ∈ l ∨ (s.array a).service = (if (s.workOf a).isSome then .free else .out) →
      ((l.foldl State.freeArray s).array a).service = if (s.workOf a).isSome then .free else .out := by
    intro l
    induction l with
    | nil => exact fun s h => h.resolve_left List.not_mem_nil
    | cons b l ih =>
      intro s h
      rw [List.foldl_cons, ih, State.freeArray_workOf]
      rw [State.freeArray_service, State.freeArray_workOf]
      by_cases hab : a = b
      · exact .inr (by rw [hab, if_pos rfl])
      · rw [if_neg hab]
        exact h.imp_left fun hmem => (List.mem_cons.1 hmem).resolve_left hab
  exact hfold l s (.inl ha)

/-- Tiles that all have an array need no other (R292). -/
theorem State.placeLate_of_placed {s : State} {motif : Nat} (h : ∀ sh, (s.motif motif).mirror = some sh → ∀ x ∈ sh.tiles, x.array ≠ noArray) :
    s.placeLate motif = s := by
  unfold State.placeLate
  dsimp only
  split
  · rfl
  · next sh hsh =>
    have hall : (sh.tiles.all fun t => decide (t.array ≠ noArray)) = true := List.all_eq_true.2 fun x hx => decide_eq_true (h sh hsh x hx)
    exact if_pos hall

/-- A motif's entry without its old copy (R290). -/
def MotifEntry.oldReleased (e : MotifEntry) : MotifEntry :=
  { e with prick2 := none, mirror2 := none, groupMirror := e.groupMirror.filter fun g => g.2.1 = e.gen.toNat }

section Release
variable {s : State} {motif : Nat} (hplaced : ∀ sh, (s.motif motif).mirror = some sh → ∀ x ∈ sh.tiles, x.array ≠ noArray)
include hplaced

theorem State.releaseOld_eq :
    s.releaseOld motif =
      ((s.freeArrays (match (s.motif motif).mirror2 with | some sh => shardArrays sh | none => [])).setMotif motif (s.motif motif).oldReleased).freshLayers motif
        (some (s.motif motif).gen2) := by
  refine State.placeLate_of_placed fun sh hsh => hplaced sh ?_
  have hentry : ∀ (u : State) (gen : Option Nat),
      ((u.setMotif motif (s.motif motif).oldReleased).freshLayers motif gen).motif motif = (s.motif motif).oldReleased :=
    fun u gen => (State.setMotif_motif ..).trans (if_pos rfl)
  exact (congrArg MotifEntry.mirror (hentry _ _)).symm.trans hsh

theorem State.releaseOld_frame : s.releaseOld motif = { s with arrays := (s.releaseOld motif).arrays, motifs := (s.releaseOld motif).motifs } := by
  rw [State.releaseOld_eq hplaced, State.freeArrays_frame]
  rfl

theorem State.releaseOld_motif : (s.releaseOld motif).motif motif = (s.motif motif).oldReleased := by
  rw [State.releaseOld_eq hplaced]
  exact (State.setMotif_motif ..).trans (if_pos rfl)

theorem State.releaseOld_switches : (s.releaseOld motif).motifs.switches = s.motifs.switches := by
  rw [State.releaseOld_eq hplaced, State.freeArrays_frame]
  rfl

theorem State.releaseOld_service {sh : Shard} (hsh : (s.motif motif).mirror2 = some sh) {a : Nat} (ha : a ∈ shardArrays sh) :
    ((s.releaseOld motif).array a).service = if (s.workOf a).isSome then .free else .out := by
  rw [State.releaseOld_eq hplaced, hsh]
  exact State.freeArrays_service ha

end Release

theorem State.dropMotif_frame (s : State) (motif : Nat) :
    s.dropMotif motif = { s with arrays := (s.dropMotif motif).arrays, motifs := (s.dropMotif motif).motifs } := by
  rw [State.dropMotif, State.freeArrays_frame]
  rfl

/-- A dropped motif leaves its generation alone (R20, R284). -/
theorem State.dropMotif_motif (s : State) (motif k : Nat) :
    (s.dropMotif motif).motif k = if k = motif then { MotifEntry.init with gen := (s.motif motif).gen } else s.motif k := by
  rw [State.dropMotif, State.freeArrays_frame]
  exact State.setMotif_motif ..

/-! ### MOTIF_SWITCH, MOTIF_DROP and MOTIF_QUERY (R20, R63, R274, R278, R284, R289, R290) -/

section Resident
variable {s : State} {m motif : Nat} {p : Pricking} (f : Pricking → State)

theorem State.onResident_of_none (hp : s.prickNow motif = none) : s.onResident m motif f = s.failCmd m 0x0204 0 := by
  rw [State.onResident, hp]
  rfl

variable (hp : s.prickNow motif = some p) (hstate : (s.motif motif).state ≠ 0)
include hp hstate

theorem State.onResident_of_head (hhead : s.headOf p = true) : s.onResident m motif f = f p := by
  simp only [State.onResident, hp, if_neg hstate, hhead]
  rfl

theorem State.onResident_of_not_head (hhead : s.headOf p = false) : s.onResident m motif f = s.failCmd m 0x0200 (s.holder p.head) := by
  simp only [State.onResident, hp, if_neg hstate, hhead]
  rfl

end Resident

/-- A command that can run completes as requested after an effect that left the mailboxes alone. -/
theorem Ready.okCmd_of_boxes {s u : State} {m op : Nat} {e : Bytes} (h : Ready s m op e) (result : Nat) (hboxes : u.boxes = s.boxes) (hcfg : u.cfg = s.cfg)
    (hnow : u.now = s.now) : Completes s (u.okCmd m result) m 0 0 (s.box m).target result := by
  have hbox : u.box m = s.box m := by rw [State.box, hboxes]; rfl
  have hdone := State.okCmd_completes (s := u) (m := m) result (by rw [hbox]; exact h.free) (by rw [hcfg]; exact h.breakQps)
  rw [hbox] at hdone
  exact hdone.of_boxes hnow hboxes

/-! The switch. -/

/-- The result of a refused `MOTIF_SWITCH` is the generation in force (R78). -/
theorem State.resultOf_of_switch {s : State} {e : Bytes} (hop : entryOp e = 0x21) :
    s.resultOf e = if (s.motif (entryMotif e)).state = 2 ∨ (s.motif (entryMotif e)).state = 3 then (s.motif (entryMotif e)).gen.toNat else 0 := by
  have hno : ¬ (entryOp e = opSeqAppend ∨ entryOp e = opSeqGenerate) := by rw [hop]; decide
  rw [State.resultOf, if_neg hno, if_pos (.inr hop)]

theorem MotifEntry.copyReady_of_ready {e : MotifEntry} (h : e.copy = 2 ∨ e.copy = 3) : e.copyReady = true := decide_eq_true h

/-- The head's state once its switch has begun, before its message goes to the placement (R289, R290). -/
def State.switchBegun (s : State) (m motif : Nat) : State :=
  let n := s.stepsOfGen motif (s.motif motif).gen.toNat
  let u := ((s.switchMotif motif).setCmd m fun c => { c with begun := true }).setTarget m n
  { u with motifs := { u.motifs with switches := { motif := motif, mailbox := m, oldGen := (s.motif motif).gen, target := n } :: u.motifs.switches } }

section Switch
variable {s : State} {m : Nat} {e : Bytes} {p : Pricking} (h : Ready s m 0x21 e) (hbegun : begunOn s m = false)
  (hp : s.prickNow (entryMotif e) = some p) (hstate : (s.motif (entryMotif e)).state ≠ 0) (hhead : s.headOf p = true)
include h hbegun hp hstate hhead

theorem exec_motifSwitch_refused (hcopy : (s.motif (entryMotif e)).copyReady = false) : exec (.motifSwitch m) s = .next (s.failCmd m 0x0206 0) := by
  have hrow : Ready s m opMotifSwitch e := h
  show execMotifSwitch m s = _
  rw [execMotifSwitch, command_ready hrow]
  simp only [h.entryOf, hbegun]
  refine congrArg Host.Outcome.next ((State.onResident_of_head _ hp hstate hhead).trans ?_)
  simp only [hcopy]
  rfl

theorem exec_motifSwitch_accepted {p2 : Pricking} (hcopy : (s.motif (entryMotif e)).copyReady = true) (hp2 : (s.motif (entryMotif e)).prick2 = some p2)
    (hthere : ∀ x ∈ p.shards, s.lostForGood x.machineId = false) :
    exec (.motifSwitch m) s = .next ((s.switchBegun m (entryMotif e)).sendAll
      ((p2.shards.map fun x => s.holder (movedNow s.take.moves x.machineId)).filter (· ≠ s.machineId)) none
      (.switch (entryMotif e) ((s.motif (entryMotif e)).gen + 1).toNat)) := by
  have hrow : Ready s m opMotifSwitch e := h
  have hnone : (p.shards.any fun x => s.lostForGood x.machineId) = false := List.any_eq_false.2 fun x hx => by rw [hthere x hx]; nofun
  show execMotifSwitch m s = _
  rw [execMotifSwitch, command_ready hrow]
  simp only [h.entryOf, hbegun]
  refine congrArg Host.Outcome.next ((State.onResident_of_head _ hp hstate hhead).trans ?_)
  simp only [hcopy, hnone, hp2]
  rfl

end Switch

theorem State.switchBegun_frame (s : State) (m motif : Nat) :
    s.switchBegun m motif = { s with boxes := (s.switchBegun m motif).boxes, motifs := (s.switchBegun m motif).motifs } := by
  apply State.ext_fields <;> simp [State.switchBegun, State.switchMotif, State.setMotif]

theorem State.switchBegun_motif (s : State) (m motif k : Nat) :
    (s.switchBegun m motif).motif k = if k = motif then switchedEntry (s.motif motif) s.machineId s.now else s.motif k :=
  State.setMotif_motif ..

theorem State.switchBegun_box (s : State) (m motif k : Nat) :
    (s.switchBegun m motif).box k = if k = m then
      touchBox { s.box m with cur := (s.box m).cur.map fun c => { c with begun := true }, target := s.stepsOfGen motif (s.motif motif).gen.toNat } s.now
    else s.box k := by
  have hset : (s.switchBegun m motif).box k =
    (((s.switchMotif motif).setCmd m fun c => { c with begun := true }).setTarget m (s.stepsOfGen motif (s.motif motif).gen.toNat)).box k := rfl
  rw [hset, State.setTarget, State.update_box, State.setCmd_box, State.setCmd_box, if_pos rfl]
  split <;> rfl

/-- A command that can run is in progress. -/
theorem Ready.inProgress {s : State} {m op : Nat} {e : Bytes} (h : Ready s m op e) : ∃ c, (s.box m).cur = some c := by
  obtain ⟨-, -, hcur, -⟩ := h
  obtain ⟨c, hc, -⟩ := Option.map_eq_some_iff.1 hcur
  exact ⟨c, hc⟩

theorem State.sendAll_frame (s : State) (dests : List Nat) (tag : Option StepTag) (body : MsgBody) :
    s.sendAll dests tag body = { s with fabric := (s.sendAll dests tag body).fabric } :=
  State.foldl_send_frame (fun u d => u.msg d tag body) dests s

theorem State.sendAll_sends (s : State) {dests : List Nat} (tag : Option StepTag) (body : MsgBody) {d : Nat} (hd : d ∈ dests) :
    s.msg d tag body ∈ (s.sendAll dests tag body).fabric.out :=
  State.foldl_send_sends (fun u d => u.msg d tag body) (fun _ _ => rfl) hd

/-! A module's own switch, and the release of its old copy. -/

theorem exec_switch_of_ready {s : State} {motif gen : Nat} (hm : motif < 16) (hcopy : (s.motif motif).copyReady = true)
    (hgen : gen = ((s.motif motif).gen + 1).toNat) : exec (.switch motif gen) s = .next (s.switchMotif motif) := by
  show execSwitch motif gen s = _
  simp only [execSwitch, need, onlyIf, hm, hcopy, hgen]
  rfl

theorem exec_switch_of_other {s : State} {motif gen : Nat} (hm : motif < 16) (hgen : gen ≠ ((s.motif motif).gen + 1).toNat) :
    exec (.switch motif gen) s = .next s := by
  show execSwitch motif gen s = _
  simp only [execSwitch, need, onlyIf, hm, decide_eq_false hgen, Bool.and_false]
  rfl

section Release
variable {s : State} {motif : Nat} {p : Pricking} (hm : motif < 16) (hrole : s.role ≠ 1)
include hm hrole

theorem exec_oldCopyRelease_waits (hsteps : s.stepsOfGen motif (s.motif motif).gen2 ≠ 0) : exec (.oldCopyRelease motif) s = .next s := by
  show execOldCopyRelease motif s = _
  simp only [execOldCopyRelease, need, hm, hrole, false_and, if_false, State.oldStepsGone, decide_eq_false hsteps, Bool.false_and, Bool.not_false, Bool.or_true]
  rfl

theorem exec_oldCopyRelease_releases (hstate : (s.motif motif).state = 2) (hcopy : (s.motif motif).copy = 0)
    (hold : (s.motif motif).prick2.isSome = true) (hp : (s.motif motif).prick = some p) (hhead : s.headOf p = true)
    (hsteps : s.stepsOfGen motif (s.motif motif).gen2 = 0) :
    exec (.oldCopyRelease motif) s = .next
      (match (s.releaseOld motif).motifs.switches.find? fun w => w.motif = motif with
      | none => s.releaseOld motif
      | some w => ({ s.releaseOld motif with motifs := { (s.releaseOld motif).motifs with
          switches := (s.releaseOld motif).motifs.switches.filter fun w => w.motif ≠ motif } } : State).okCmd w.mailbox (s.motif motif).gen.toNat) := by
  have holdCopy : (s.motif motif).oldCopy = true := by simp [MotifEntry.oldCopy, hstate, hcopy, hold]
  have hgone : s.oldStepsGone motif (s.motif motif) = true := by simp [State.oldStepsGone, hsteps, hp, hhead]
  show execOldCopyRelease motif s = _
  simp only [execOldCopyRelease, need, hm, hrole, false_and, if_false, holdCopy, hgone]
  rfl

end Release

/-! The drop. -/

section Drop
variable {s : State} {m : Nat} {e : Bytes} (h : Ready s m 0x22 e)
include h

theorem exec_motifDrop_of_loading (hstate : (s.motif (entryMotif e)).state ≠ 2)
    (hloading : s.loadConsumed (entryMotif e) = true ∨ (s.motif (entryMotif e)).state = 1) : exec (.motifDrop m) s = .next (s.failCmd m 0x0205 0) := by
  have hrow : Ready s m opMotifDrop e := h
  show execMotifDrop m s = _
  rw [execMotifDrop, command_ready hrow]
  simp only [h.entryOf, if_pos (And.intro hstate hloading)]
  rfl

theorem exec_motifDrop_of_not_loading (hresident : (s.motif (entryMotif e)).state = 2 ∨ s.loadConsumed (entryMotif e) = false)
    (hstate : (s.motif (entryMotif e)).state ≠ 1) :
    exec (.motifDrop m) s = .next (s.onResident m (entryMotif e) fun p =>
      if (s.motif (entryMotif e)).copy = 1 ∨ s.replaceConsumed m (entryMotif e) = true ∨ 0 < s.usersOf (entryMotif e) then
        s.failCmd m 0x0205 (s.usersOf (entryMotif e))
      else if (s.motif (entryMotif e)).oldCopy then s
      else ((s.setTarget m ((p.shards.map (·.tiles)).sum)).dropMotif (entryMotif e)).okCmd m 0) := by
  have hrow : Ready s m opMotifDrop e := h
  have hnot : ¬ ((s.motif (entryMotif e)).state ≠ 2 ∧ (s.loadConsumed (entryMotif e) = true ∨ (s.motif (entryMotif e)).state = 1)) := by
    rintro ⟨hne, hload⟩
    have hnone := hresident.resolve_left hne
    exact hload.elim (fun hl => by simp [hnone] at hl) hstate
  show execMotifDrop m s = _
  rw [execMotifDrop, command_ready hrow]
  simp only [h.entryOf, if_neg hnot]
  rfl

/-- What a drop leaves, and that it completes at the tiles it released (R20, R67). -/
theorem State.dropMotif_completes (motif n : Nat) :
    let t := ((s.setTarget m n).dropMotif motif).okCmd m 0
    (t.motif motif = { MotifEntry.init with gen := (s.motif motif).gen } ∧ ∀ k, k ≠ motif → t.motif k = s.motif k) ∧
      ((t.box m).done = true ∧ (t.box m).status = 0 ∧ (t.box m).progress = n ∧ (t.box m).cur = none) ∧
      t = { s with boxes := t.boxes, arrays := t.arrays, motifs := t.motifs, fabric := t.fabric } := by
  have hdrop := State.dropMotif_frame (s.setTarget m n) motif
  have hentry := State.dropMotif_motif (s.setTarget m n) motif
  generalize (s.setTarget m n).dropMotif motif = u at *
  have htarget : (s.setTarget m n).box m = touchBox { s.box m with target := n } s.now := (State.update_box ..).trans (if_pos rfl)
  have hbox : u.box m = touchBox { s.box m with target := n } s.now := by
    rw [hdrop]
    exact htarget
  have hfree : (u.box m).records - (u.box m).readCount < 16383 := by rw [hbox]; exact h.free
  have hbreak : u.cfg.breakQps = false := by rw [hdrop]; exact h.breakQps
  obtain ⟨hcur, -, hdone, -, hstatus, -, hprogress, -⟩ := State.okCmd_completes (s := u) (m := m) 0 hfree hbreak
  have hchanges : u.okCmd m 0 = _ := State.complete_changes (s := u) (m := m) 0 0 (u.box m).target 0 hfree hbreak
  have hmotif : ∀ k, (u.okCmd m 0).motif k = u.motif k := fun k => by rw [State.motif, State.okCmd_motifs]; rfl
  refine ⟨⟨?_, fun k hk => ?_⟩, ⟨hdone, hstatus, ?_, hcur⟩, ?_⟩
  · rw [hmotif, hentry, if_pos rfl]
    rfl
  · rw [hmotif, hentry, if_neg hk]
    rfl
  · rw [hprogress, hbox]
    rfl
  · rw [hchanges, hdrop]
    rfl

end Drop

/-! The query. -/

theorem exec_motifQuery_delivers {s : State} {m : Nat} {c : Cmd} (h : Ready s m 0x23 c.entry) (hcur : (s.box m).cur = some c) (hxfer : c.xfer = .none) :
    exec (.motifQuery m) s = .next (s.deliver m
      (if entryMotif c.entry = 0xFF then (List.range 16).flatMap (motifRecord s) else motifRecord s (entryMotif c.entry))) := by
  have hrow : Ready s m opMotifQuery c.entry := h
  have hidle : s.xferOf m = .none := by rw [State.xferOf, hcur]; exact hxfer
  show execMotifQuery m s = _
  rw [execMotifQuery, command_ready hrow]
  simp only [hidle, h.entryOf]
  rfl

theorem State.deliver_of_short {s : State} {m : Nat} {c : Cmd} {data : Bytes} (hcur : (s.box m).cur = some c) (hshort : bufLen c.entry < data.length) :
    s.deliver m data = s.failCmd m 0x0403 data.length := by
  simp only [State.deliver, hcur, if_pos hshort]
  rfl

theorem State.deliver_of_room {s : State} {m : Nat} {c : Cmd} {data : Bytes} (hcur : (s.box m).cur = some c) (hown : c.continued = false)
    (hroom : data.length ≤ bufLen c.entry) (hqp : s.qpOk c.qp = true) :
    s.deliver m data = (s.setCmd m fun x => { x with xfer := .writing, via := c.qp }).toHost
      (.writeRequest c.qp m (bufAddr c.entry) (bufRkey c.entry) data) := by
  have hfrom : s.cmdQp c = some c.qp := by simp [State.cmdQp, hown]
  simp only [State.deliver, hcur, if_neg (Nat.not_lt.2 hroom), hfrom, hqp]
  rfl

/-! The theorem, clause by clause. -/

/-- A switch on the head brings the second copy into force, counts the steps of the old one and tells every other module of the placement. -/
theorem exec_motifSwitch_switches {s : State} {m : Nat} {e : Bytes} {p p2 : Pricking} (h : Ready s m 0x21 e) (hbegun : begunOn s m = false)
    (hp : s.prickNow (entryMotif e) = some p) (hstate : (s.motif (entryMotif e)).state ≠ 0) (hhead : s.headOf p = true)
    (hcopy : (s.motif (entryMotif e)).copy = 2 ∨ (s.motif (entryMotif e)).copy = 3) (hp2 : (s.motif (entryMotif e)).prick2 = some p2)
    (hthere : ∀ x ∈ p.shards, s.lostForGood x.machineId = false) :
    ∃ t, exec (.motifSwitch m) s = .next t ∧ (∀ k, t.motif k = (s.switchBegun m (entryMotif e)).motif k) ∧
      (∀ k, t.box k = (s.switchBegun m (entryMotif e)).box k) ∧
      (∀ x ∈ p2.shards, s.holder (movedNow s.take.moves x.machineId) ≠ s.machineId →
        s.msg (s.holder (movedNow s.take.moves x.machineId)) none (.switch (entryMotif e) ((s.motif (entryMotif e)).gen + 1).toNat) ∈ t.fabric.out) ∧
      t = { s with boxes := t.boxes, motifs := t.motifs, fabric := t.fabric } := by
  have hexec := exec_motifSwitch_accepted h hbegun hp hstate hhead (MotifEntry.copyReady_of_ready hcopy) hp2 hthere
  have hframe := fun dests body => State.sendAll_frame (s.switchBegun m (entryMotif e)) dests none body
  have hsends := fun dests body d => State.sendAll_sends (s.switchBegun m (entryMotif e)) (dests := dests) (d := d) none body
  generalize (s.switchBegun m (entryMotif e)).sendAll = sent at *
  refine ⟨_, hexec, fun k => ?_, fun k => ?_, fun x hx hother => ?_, ?_⟩
  · rw [hframe]
    rfl
  · rw [hframe]
    rfl
  · exact hsends _ _ _ (List.mem_filter.2 ⟨List.mem_map.2 ⟨x, hx, rfl⟩, decide_eq_true hother⟩)
  · rw [hframe, State.switchBegun_frame]

/-- A switch that has begun shows its target and is not begun again. -/
theorem State.switchBegun_word {s t : State} {m motif : Nat} {e : Bytes} (h : Ready s m 0x21 e) (hbox : t.box m = (s.switchBegun m motif).box m) :
    (t.box m).target = s.stepsOfGen motif (s.motif motif).gen.toNat ∧ begunOn t m = true := by
  obtain ⟨c, hc⟩ := h.inProgress
  rw [State.switchBegun_box, if_pos rfl, hc] at hbox
  rw [begunOn, hbox]
  exact ⟨rfl, rfl⟩

/-- The old copy is released, and the head's switch, where one waits for it, completes (R290). -/
theorem exec_oldCopyRelease_completes {s : State} {motif : Nat} {p : Pricking} (hm : motif < 16) (hrole : s.role ≠ 1) (hstate : (s.motif motif).state = 2)
    (hcopy : (s.motif motif).copy = 0) (hold : (s.motif motif).prick2.isSome = true) (hp : (s.motif motif).prick = some p) (hhead : s.headOf p = true)
    (hsteps : s.stepsOfGen motif (s.motif motif).gen2 = 0)
    (hplaced : ∀ sh, (s.motif motif).mirror = some sh → ∀ x ∈ sh.tiles, x.array ≠ noArray) :
    ∃ t, exec (.oldCopyRelease motif) s = .next t ∧ t.motif motif = (s.motif motif).oldReleased ∧ t.arrays = (s.releaseOld motif).arrays ∧
      (∀ w b, s.motifs.switches.find? (fun w => w.motif = motif) = some w → Ready s w.mailbox 0x21 b →
        Completes s t w.mailbox 0 0 (s.box w.mailbox).target (s.motif motif).gen.toNat) := by
  have hexec := exec_oldCopyRelease_releases hm hrole hstate hcopy hold hp hhead hsteps
  have hframe := State.releaseOld_frame hplaced
  have hentry := State.releaseOld_motif hplaced
  rw [State.releaseOld_switches hplaced] at hexec
  generalize s.releaseOld motif = u at *
  cases hfind : s.motifs.switches.find? fun w => w.motif = motif with
  | none =>
    rw [hfind] at hexec
    exact ⟨u, hexec, hentry, rfl, fun w b hw => by cases hw⟩
  | some w =>
    rw [hfind] at hexec
    refine ⟨_, hexec, ?_, State.okCmd_arrays .., fun w' b hw hready => ?_⟩
    · rw [State.motif, State.okCmd_motifs]
      exact hentry
    · cases hw
      refine hready.okCmd_of_boxes _ ?_ ?_ ?_
      · show u.boxes = s.boxes
        rw [hframe]
      · show u.cfg = s.cfg
        rw [hframe]
      · show u.now = s.now
        rw [hframe]
        rfl

/-- Settles O34: the switch on the head and elsewhere, the release of the old copy, the refusals and the effect of a drop, and the delivery of a record. -/
theorem motifsAreSwitchedDroppedAndQueried : Obligations.MotifsAreSwitchedDroppedAndQueried := by
  refine ⟨fun m e p s h hbegun hp hstate hhead => ⟨fun hnot2 hnot3 => ?_, fun p2 hcopy hp2 hthere => ?_⟩,
    fun motif gen s hm => ⟨fun hcopy hgen => ?_, exec_switch_of_other hm, fun p hrole hstate hcopy hold hp hhead =>
      ⟨exec_oldCopyRelease_waits hm hrole, fun hsteps hplaced => ?_⟩⟩,
    fun m e s h => ?_, fun m c s h hcur hown hxfer => ⟨fun hshort => ?_, fun hroom hqp => ?_⟩⟩
  · have hcopy : (s.motif (entryMotif e)).copyReady = false := decide_eq_false fun hc => hc.elim hnot2 hnot3
    exact ⟨_, exec_motifSwitch_refused h hbegun hp hstate hhead hcopy, h.failCmd _ _ rfl (State.resultOf_of_switch h.entryOp_eq)⟩
  · obtain ⟨t, hexec, hmotif, hbox, hsends, hframe⟩ := exec_motifSwitch_switches h hbegun hp hstate hhead hcopy hp2 hthere
    obtain ⟨htarget, hbegun'⟩ := State.switchBegun_word h (hbox m)
    refine ⟨t, hexec, ?_, htarget, hbegun', hsends, fun k hk => ?_, fun k hk => ?_, hframe⟩
    · rw [hmotif, State.switchBegun_motif, if_pos rfl]
    · rw [hmotif, State.switchBegun_motif, if_neg hk]
    · rw [hbox, State.switchBegun_box, if_neg hk]
  · refine ⟨_, exec_switch_of_ready hm (MotifEntry.copyReady_of_ready hcopy) hgen, ?_, fun k hk => ?_, rfl⟩
    · exact (State.setMotif_motif ..).trans (if_pos rfl)
    · exact (State.setMotif_motif ..).trans (if_neg hk)
  · obtain ⟨t, hexec, hentry, harrays, hdone⟩ := exec_oldCopyRelease_completes hm hrole hstate hcopy hold hp hhead hsteps hplaced
    refine ⟨t, hexec, ?_, ?_, ?_, ?_, fun sh hsh a ha => ?_, hdone⟩
    · rw [hentry]; rfl
    · rw [hentry]; rfl
    · rw [hentry]; rfl
    · rw [hentry]; rfl
    · rw [State.array, harrays]
      exact State.releaseOld_service hplaced hsh ha
  · intro motif fails
    have hfails : ∀ st d, exec (.motifDrop m) s = .next (s.failCmd m st d) → fails st d :=
      fun st d hexec => ⟨_, hexec, h.failCmd st d rfl (h.no_result (by decide))⟩
    refine ⟨fun hstate hloading => hfails _ _ (exec_motifDrop_of_loading h hstate hloading), fun hstate hload hp => hfails _ _ ?_,
      fun p hp hthere hstate hresident => ⟨fun hhead => hfails _ _ ?_, fun hhead hused => hfails _ _ ?_, fun hhead hcopy hreplace husers hold => ?_⟩⟩
    · rw [exec_motifDrop_of_not_loading h (.inr hload) hstate, State.onResident_of_none _ hp]
    · rw [exec_motifDrop_of_not_loading h hresident hstate, State.onResident_of_not_head _ hp hthere hhead]
    · rw [exec_motifDrop_of_not_loading h hresident hstate, State.onResident_of_head _ hp hthere hhead, if_pos hused]
    · have hexec := exec_motifDrop_of_not_loading h hresident hstate
      have hfree : ¬ ((s.motif motif).copy = 1 ∨ s.replaceConsumed m motif = true ∨ 0 < s.usersOf motif) := by simp [hcopy, hreplace, husers]
      rw [State.onResident_of_head _ hp hthere hhead, if_neg hfree, hold, if_neg Bool.false_ne_true] at hexec
      obtain ⟨⟨hentry, hother⟩, ⟨hdone, hstatus, hprogress, hcur⟩, hframe⟩ := State.dropMotif_completes h motif (p.shards.map (·.tiles)).sum
      exact ⟨_, hexec, hentry, hother, hdone, hstatus, hprogress, hcur, hframe⟩
  · have hexec := exec_motifQuery_delivers h hcur hxfer
    rw [State.deliver_of_short hcur hshort] at hexec
    exact ⟨_, hexec, h.failCmd _ _ rfl (h.no_result (by decide))⟩
  · have hexec := exec_motifQuery_delivers h hcur hxfer
    rw [State.deliver_of_room hcur hown hroom hqp] at hexec
    refine ⟨_, hexec, rfl, ?_, rfl⟩
    refine congrArg Mailbox.cur ((State.setCmd_box ..).trans (if_pos rfl)) |>.trans ?_
    rw [hcur]
    rfl

end Sys2Proof.Machine

namespace Sys2Proof.Machine

/- The theorems of this part are elaborated one after another: side by side they need more memory than the check has left beside the tests above. -/
set_option Elab.async false

/-! ### Layouts -/

@[simp] theorem leBytes_length (w n : Nat) : (leBytes w n).length = w := by
  induction w generalizing n with
  | zero => rfl
  | succ w ih => rw [leBytes, List.length_cons, ih]

@[simp] theorem overlay_length (b : Bytes) (off : Nat) (v : Bytes) : (overlay b off v).length = b.length := by
  simp only [overlay, List.length_take, List.length_append, List.length_drop]
  omega

@[simp] theorem layout_length (size : Nat) (fields : List (Nat × Nat × Nat)) : (layout size fields).length = size := by
  have hfold : ∀ b : Bytes, (fields.foldl (fun b f => overlay b f.1 (leBytes f.2.1 f.2.2)) b).length = b.length := by
    induction fields with
    | nil => exact fun b => rfl
    | cons f fields ih => exact fun b => (ih _).trans (overlay_length ..)
  exact (hfold _).trans (List.length_replicate ..)

@[simp] theorem statusBytes_length (m : Nat) (b : Mailbox) : (statusBytes m b).length = 64 := layout_length ..

/-! ### Windows (R53) -/

/-- The windows rise and do not meet; above the coefficient window there is room before the memory window. -/
theorem windowOf_end_le {v w : Nat} (hvw : v < w) (hw : w < 8) : (windowOf v).1 + (windowOf v).2 ≤ (windowOf w).1 := by
  interval_cases w <;> interval_cases v <;> decide

theorem windowOf_end_lt {v : Nat} (hv : v < 7) : (windowOf v).1 + (windowOf v).2 < (windowOf 7).1 := by
  interval_cases v <;> decide

/-- An access of at least one byte that lies in a window is found there; one of no bytes is too in the memory window, which nothing touches from below. -/
theorem findWindow_of_mem {w addr n : Nat} (hw : w < 8) (hn : 0 < n ∨ w = 7) (hlo : (windowOf w).1 ≤ addr)
    (hhi : addr + n ≤ (windowOf w).1 + (windowOf w).2) : findWindow addr n = some (w, addr - (windowOf w).1) := by
  have hbelow : ∀ v, v < w → addr + n ≤ (windowOf v).1 + (windowOf v).2 → False := fun v hv hend => by
    rcases hn with hn | rfl
    · have := windowOf_end_le hv hw
      omega
    · have := windowOf_end_lt hv
      omega
  have hfirst : (List.range 8).find? (fun v => decide ((windowOf v).1 ≤ addr ∧ addr + n ≤ (windowOf v).1 + (windowOf v).2)) = some w :=
    List.find?_range_eq_some.2 ⟨decide_eq_true ⟨hlo, hhi⟩, List.mem_range.2 hw, fun v hv => by
      simpa using .inr (Nat.lt_of_not_le (hbelow v hv))⟩
  rw [findWindow, hfirst]
  rfl

/-- An access at an offset of window `w`. -/
theorem findWindow_of_offset {w base size off n : Nat} (hw : w < 8) (hwindow : windowOf w = (base, size)) (hn : 0 < n ∨ w = 7) (hend : off + n ≤ size) :
    findWindow (base + off) n = some (w, off) := by
  have hbase : (windowOf w).1 = base := by rw [hwindow]
  have hsize : (windowOf w).2 = size := by rw [hwindow]
  rw [findWindow_of_mem hw hn (by omega) (by omega), hbase, Nat.add_sub_cancel_left]

theorem findWindow_of_none {addr n : Nat} (h : ∀ w, w < 8 → ¬ ((windowOf w).1 ≤ addr ∧ addr + n ≤ (windowOf w).1 + (windowOf w).2)) :
    findWindow addr n = none := by
  rw [findWindow, Option.map_eq_none_iff, List.find?_eq_none]
  exact fun w hw => by simpa using h w (List.mem_range.1 hw)

/-- A unit of a window, read whole. -/
theorem readSpan_unit (unit : Nat → Bytes) (u : Nat) (hu : (unit u).length = 64) : readSpan unit 64 (u * 64) 64 = unit u := by
  rw [readSpan, Nat.mul_mod_left, Nat.mul_div_cancel u (by decide : 0 < 64)]
  simp [List.range_succ, hu]



/-! ### Event records (R387, R390) -/

theorem State.event_frame (s : State) (e : Event) : s.event e = { s with log := (s.event e).log } := by
  apply State.ext_fields <;> simp

theorem State.ev_frame (s : State) (cls code op kind index : Nat) (detail : Bytes) :
    s.ev cls code op kind index detail = { s with log := (s.ev cls code op kind index detail).log } := State.event_frame s _

/-- A record of which there is none of late is written (R390). -/
theorem State.event_of_fresh {s : State} {e : Event} (h : (s.log.recent.all fun r => r.1 != (e.cls, e.code, unitField e.kind e.index)) = true) :
    s.event e = { s with log := putEvent s e } := by
  have hnone : s.recentlyLogged e = false := by
    simp only [List.all_eq_true, bne_iff_ne] at h
    exact List.any_eq_false.2 fun r hr => by simpa using fun heq => absurd heq (h r hr)
  rw [State.event, hnone, Bool.and_false]
  exact if_neg Bool.false_ne_true

theorem putEvent_slot (s : State) (e : Event) : Tab.get (zeros 64) (putEvent s e).slots (1 + s.log.written % 262143) = eventBytes s e := by
  simp only [putEvent, Config.eventSlots, Tab.get_put_same]

/-! ### Accesses outside every window (R53, R54) -/

theorem execHostWrite_of_window {s : State} {qp addr w off : Nat} {data : Bytes} (h : findWindow addr data.length = some (w, off)) :
    exec (.hostWrite qp addr data) s = .next (windowWrite s qp w off data) := by
  show execHostWrite qp addr data s = _
  rw [execHostWrite, h]

theorem execRdmaWrite_of_window {s : State} {qp rkey addr w off : Nat} {data : Bytes} (hqp : s.qpOk qp = true) (hkey : s.port.rkeys.getD w 0 = rkey)
    (h : findWindow addr data.length = some (w, off)) :
    exec (.rdmaWrite qp rkey addr data) s = .next ((windowWrite s qp w off data).toHost (.ack qp)) := by
  show execRdmaWrite qp rkey addr data s = _
  simp only [execRdmaWrite, hqp, h, if_pos hkey]
  rfl

theorem execRdmaRead_of_window {s : State} {qp rkey addr len w off : Nat} (hqp : s.qpOk qp = true) (hkey : s.port.rkeys.getD w 0 = rkey)
    (h : findWindow addr len = some (w, off)) (hflagged : w = 7 → s.mem.flagged = []) :
    exec (.rdmaRead qp rkey addr len) s = .next (s.toHost (.readResponse qp (windowRead s w off len))) := by
  show execRdmaRead qp rkey addr len s = _
  simp only [execRdmaRead, hqp, h, if_pos hkey]
  by_cases hw : w = 7
  · simp [hw, flaggedIn, hflagged hw]
  · simp [hw]

theorem exec_of_no_window {s : State} {qp rkey addr len : Nat} {data : Bytes}
    (h : ∀ w, w < 8 → ¬ ((windowOf w).1 ≤ addr ∧ addr + len ≤ (windowOf w).1 + (windowOf w).2)) (hlen : data.length = len) :
    exec (.hostWrite qp addr data) s = .next ((s.breakQp qp).toHost (.nakAccess qp)) ∧
      (s.qpOk qp = true → exec (.rdmaWrite qp rkey addr data) s = .next ((s.breakQp qp).toHost (.nakAccess qp)) ∧
        exec (.rdmaRead qp rkey addr len) s = .next ((s.breakQp qp).toHost (.nakAccess qp))) := by
  subst hlen
  have hnone := findWindow_of_none h
  refine ⟨?_, fun hqp => ⟨?_, ?_⟩⟩
  · show execHostWrite qp addr data s = _
    rw [execHostWrite, hnone]
  · show execRdmaWrite qp rkey addr data s = _
    rw [execRdmaWrite, hqp, hnone]
    rfl
  · show execRdmaRead qp rkey addr data.length s = _
    rw [execRdmaRead, hqp, hnone]
    rfl



/-! ### Writes to the memory window (R53, R54) -/

theorem logStray_frame (s : State) (w : Nat) (o : Option Nat) : logStray s w o = { s with log := (logStray s w o).log } := by
  cases o with
  | none => rfl
  | some o => exact State.event_frame s _

@[simp] theorem logStray_mem (s : State) (w : Nat) (o : Option Nat) : (logStray s w o).mem = s.mem := by rw [logStray_frame]

/-- The bytes of a host write that lie in the host area are stored, and no other. -/
theorem writeHostArea_eq (s : State) (off : Nat) (data : Bytes) :
    writeHostArea s off data =
      { s with
        mem := if max off s.cfg.cur.hostOffset < min (off + data.length) (s.cfg.cur.hostOffset + s.cfg.cur.hostSize) then
            memWrite s.mem (max off s.cfg.cur.hostOffset) ((data.drop (max off s.cfg.cur.hostOffset - off)).take
              (min (off + data.length) (s.cfg.cur.hostOffset + s.cfg.cur.hostSize) - max off s.cfg.cur.hostOffset))
          else s.mem
        log := (logStray s 7 (firstStray (fun o => s.inHostArea o 1) off data.length)).log } := by
  have hlog := logStray_frame s 7 (firstStray (fun o => s.inHostArea o 1) off data.length)
  rw [writeHostArea]
  split <;> rw [hlog]

theorem firstStray_of_area {s : State} {off n : Nat} (h : ∀ a, off ≤ a → a < off + n → s.inHostArea a 1 = true) :
    firstStray (fun o => s.inHostArea o 1) off n = none :=
  List.find?_eq_none.2 fun a ha => by
    obtain ⟨i, hi, rfl⟩ := List.mem_map.1 ha
    have hin := List.mem_range.1 hi
    simpa using h (i + off) (by omega) (by omega)

/-- What a byte of memory reads as after the host has written: what was written, where it lies in the host area. -/
theorem memByte_writeHostArea (s : State) (off : Nat) (data : Bytes) (a : Nat) :
    memByte (writeHostArea s off data).mem a =
      if off ≤ a ∧ a < off + data.length ∧ s.inHostArea a 1 = true then data.getD (a - off) 0 else memByte s.mem a := by
  have harea : s.inHostArea a 1 = true ↔ s.cfg.cur.hostOffset ≤ a ∧ a + 1 ≤ s.cfg.cur.hostOffset + s.cfg.cur.hostSize := decide_eq_true_iff
  rw [writeHostArea_eq]
  simp only [harea]
  generalize s.cfg.cur.hostOffset = base, s.cfg.cur.hostSize = size
  split
  · rename_i hlt
    rw [memByte_memWrite]
    simp only [List.length_take, List.length_drop]
    by_cases hin : off ≤ a ∧ a < off + data.length ∧ base ≤ a ∧ a + 1 ≤ base + size
    · rw [if_pos hin, if_pos (by omega)]
      simp only [List.getD_eq_getElem?_getD, List.getElem?_take, List.getElem?_drop]
      rw [if_pos (by omega)]
      congr 3
      omega
    · rw [if_neg hin, if_neg (by omega)]
  · rename_i hlt
    rw [if_neg (by omega)]



/-- What the host reads of the memory window where no block is flagged. -/
theorem windowRead_memory {s : State} (off n : Nat) (hflagged : s.mem.flagged = []) (i : Nat) (hi : i < n) :
    (windowRead s 7 off n).getD i 0 = if s.cfg.cur.hostOffset ≤ off + i ∧ off + i + 1 ≤ s.cfg.cur.hostOffset + s.cfg.cur.hostSize
      then memByte s.mem (off + i) else 0 := by
  show ((List.range n).map fun i => hostMemByte s (off + i)).getD i 0 = _
  simp [hi, hostMemByte, hflagged, State.inHostArea]

/-- Settles O9: what lies in no window breaks the queue pair; the read-only windows log; reads answer the window; the memory window stores what is in the host area. -/
theorem windowsAnswerTheHost : Obligations.WindowsAnswerTheHost := by
  refine ⟨fun qp rkey addr len data s hout hlen => ?_, fun qp w off data s hw hdata hend => ?_, fun qp rkey s hqp => ⟨fun m hm hkey => ?_, fun off n hend hkey hflagged => ?_⟩,
    fun qp rkey off data s hqp hkey hdata hend => ?_⟩
  · obtain ⟨hwrite, hrdma⟩ := exec_of_no_window (s := s) (qp := qp) (rkey := rkey) hout hlen
    exact ⟨_, hwrite, hrdma, rfl, rfl⟩
  · have hwindow : findWindow (w * 0x1000 + off) data.length = some (w, off) :=
      findWindow_of_offset (Nat.lt_trans hw (by decide)) (by interval_cases w <;> rfl) (.inl hdata) hend
    have hwrite : windowWrite s qp w off data = s.evDiscarded w off := by
      have hnonempty := Nat.ne_of_gt hdata
      interval_cases w <;> simp [windowWrite, hnonempty]
    refine ⟨_, execHostWrite_of_window hwindow, ?_, fun hfresh => ?_⟩
    · rw [hwrite]
      exact State.ev_frame ..
    · have hunit : unitField kWindow w = kWindow * 2 ^ 24 + w := by interval_cases w <;> rfl
      rw [hwrite, State.evDiscarded, State.ev, State.event_of_fresh (by rw [hunit]; exact hfresh)]
      exact ⟨rfl, rfl, putEvent_slot ..⟩
  · have hwindow : findWindow (0x1000 + m * 0x40) 64 = some (1, m * 0x40) :=
      findWindow_of_offset (base := 0x1000) (off := m * 0x40) (by decide) rfl (.inl (by decide)) (by omega)
    have hword : windowRead s 1 (m * 0x40) 64 = statusBytes m (s.box m) := by
      rw [windowRead, if_neg (by decide), if_pos rfl]
      exact readSpan_unit (fun u => statusBytes u (s.box u)) m (statusBytes_length ..)
    rw [execRdmaRead_of_window hqp hkey hwindow nofun, hword]
  · have hwindow : findWindow (0x10000000000 + off) n = some (7, off) :=
      findWindow_of_offset (base := 0x10000000000) (off := off) (by decide) rfl (.inr rfl) hend
    exact ⟨_, execRdmaRead_of_window hqp hkey hwindow fun _ => hflagged, by simp [windowRead], windowRead_memory off n hflagged⟩
  · have hwindow : findWindow (0x10000000000 + off) data.length = some (7, off) :=
      findWindow_of_offset (base := 0x10000000000) (off := off) (by decide) rfl (.inr rfl) hend
    have hwrite : windowWrite s qp 7 off data = writeHostArea s off data := by simp [windowWrite, Nat.ne_of_gt hdata]
    refine ⟨_, execRdmaWrite_of_window hqp hkey hwindow, fun a => ?_, ?_, fun harea => ?_⟩
    · rw [hwrite]
      exact memByte_writeHostArea s off data a
    · rw [hwrite, writeHostArea_eq]
      rfl
    · rw [hwrite, writeHostArea_eq, firstStray_of_area harea]
      rfl

end Sys2Proof.Machine

namespace Sys2Proof.Machine

/- The theorems of this part are elaborated one after another: side by side they need more memory than the check has left beside the tests above. -/
set_option Elab.async false

/-! ### Host writes of ring entries (R54, R57, R58, R60) -/

theorem execMailboxEntryWrite_of_ring {s : State} {qp off : Nat} {data : Bytes} (hdata : 0 < data.length) (hend : off + data.length ≤ 0x1000000) :
    exec (.mailboxEntryWrite qp (0x10000 + off) data) s = .next (writeEntry s qp off data) ∧
      exec (.hostWrite qp (0x10000 + off) data) s = .next (writeEntry s qp off data) := by
  have hwindow : findWindow (0x10000 + off) data.length = some (2, off) := findWindow_of_offset (by decide) rfl (.inl hdata) hend
  have hnonempty := Nat.ne_of_gt hdata
  constructor
  · show execMailboxEntryWrite qp _ data s = _
    simp [execMailboxEntryWrite, hwindow, hnonempty]
  · rw [execHostWrite_of_window hwindow]
    simp [windowWrite, hnonempty]

/-- Entry `e` of mailbox `m` with what the host has written, and the queue pair that wrote it. -/
def State.entryPosted (s : State) (qp m e : Nat) (data : Bytes) : State :=
  s.setBox m { s.box m with entries := Tab.put (zeros 64) (s.box m).entries e data, posted := Tab.put 0 (s.box m).posted e qp }

/-- A write of one whole aligned entry whose OWN bit is 0 is taken; one in the instant in which the entry was consumed is logged (R60). -/
theorem writeEntry_of_free {s : State} {qp m e : Nat} {data : Bytes} (he : e < 4096) (hdata : data.length = 64)
    (hown : entryOwn (entryBytes (s.box m) e) = false) :
    writeEntry s qp (m * 0x40000 + e * 64) data =
      if (s.box m).cleared = some (e, s.now) then (s.entryPosted qp m e data).ev 12 3 11 kWindow 2 (leBytes 5 (m * 0x40000 + e * 64))
      else s.entryPosted qp m e data := by
  have hbox : (m * 0x40000 + e * 64) / 0x40000 = m := by omega
  have hentry : (m * 0x40000 + e * 64) / 64 % 4096 = e := by omega
  have haligned : (m * 0x40000 + e * 64) % 64 = 0 := by omega
  simp only [writeEntry, hbox, hentry, haligned, hdata, hown, and_self, if_true, clearedNow, decide_eq_true_eq]
  rfl

/-- Any other write is discarded, logged, and counted in the mailbox of its first byte (R58). -/
theorem writeEntry_of_refused {s : State} {qp m off : Nat} {data : Bytes} (hoff : off < 0x40000)
    (h : off % 64 ≠ 0 ∨ data.length ≠ 64 ∨ entryOwn (entryBytes (s.box m) (off / 64)) = true) :
    writeEntry s qp (m * 0x40000 + off) data =
      (s.evDiscarded 2 (m * 0x40000 + off)).update m fun b => { b with discarded := b.discarded + 1 } := by
  have hbox : (m * 0x40000 + off) / 0x40000 = m := by omega
  have hentry : (m * 0x40000 + off) / 64 % 4096 = off / 64 := by omega
  have haligned : (m * 0x40000 + off) % 64 = off % 64 := by omega
  simp only [writeEntry, hbox, hentry, haligned]
  refine if_neg fun ⟨h0, h64, hown⟩ => ?_
  rw [hown] at h
  exact h.elim (· h0) (·.elim (· h64) Bool.false_ne_true)

theorem State.update_frame (s : State) (m : Nat) (f : Mailbox → Mailbox) :
    s.update m f = { s with boxes := { s.boxes with box := (s.update m f).boxes.box } } := rfl

theorem State.entryPosted_box (s : State) (qp m e k : Nat) (data : Bytes) :
    (s.entryPosted qp m e data).box k = if k = m then
      { s.box m with entries := Tab.put (zeros 64) (s.box m).entries e data, posted := Tab.put 0 (s.box m).posted e qp } else s.box k :=
  State.setBox_box ..

/-- What the ring and the posting queue pairs read as once an entry is taken. -/
theorem State.entryPosted_entries {s t : State} {qp m e : Nat} {data : Bytes} (h : t.box m = (s.entryPosted qp m e data).box m) :
    (∀ j, entryBytes (t.box m) j = if j = e then data else entryBytes (s.box m) j) ∧
      (∀ j, Tab.get 0 (t.box m).posted j = if j = e then qp else Tab.get 0 (s.box m).posted j) := by
  rw [h, State.entryPosted_box, if_pos rfl]
  exact ⟨fun j => Tab.get_put _ _ j e data, fun j => Tab.get_put _ _ j e qp⟩

/-- Settles O10: a whole aligned entry with its OWN bit clear is taken, and logged where it met a consumption; any other write is discarded and counted. -/
theorem entryWritesAreTakenOrDiscarded : Obligations.EntryWritesAreTakenOrDiscarded := by
  refine ⟨fun qp m e data s hm he hdata hown => ?_, fun qp m off data s hm hoff hdata hend hrefused => ?_⟩
  · obtain ⟨hexec, hexec'⟩ := execMailboxEntryWrite_of_ring (s := s) (qp := qp) (off := m * 0x40000 + e * 64) (data := data) (by omega) (by omega)
    rw [← Nat.add_assoc] at hexec hexec'
    have hwrite := writeEntry_of_free (qp := qp) he hdata hown
    have hbox : ∀ k, (writeEntry s qp (m * 0x40000 + e * 64) data).box k = (s.entryPosted qp m e data).box k := fun k => by
      rw [hwrite]
      split
      · exact State.ev_box ..
      · rfl
    obtain ⟨hentries, hposted⟩ := State.entryPosted_entries (hbox m)
    have hother : ∀ k, k ≠ m → (writeEntry s qp (m * 0x40000 + e * 64) data).box k = s.box k := fun k hk => by
      rw [hbox, State.entryPosted_box, if_neg hk]
    refine ⟨_, hexec, hexec', (hentries e).trans (if_pos rfl), (hposted e).trans (if_pos rfl),
      fun j hj => ⟨(hentries j).trans (if_neg hj), (hposted j).trans (if_neg hj)⟩, ?_, hother, ?_, fun hapart => ?_, fun hsame hfresh => ?_⟩
    · rw [hbox, State.entryPosted_box, if_pos rfl]
    · rw [hwrite]
      split
      · rw [State.ev_frame]
        rfl
      · rfl
    · rw [hwrite, if_neg hapart]
      rfl
    · rw [hwrite, if_pos hsame, State.ev, State.event_of_fresh hfresh]
      exact ⟨rfl, putEvent_slot ..⟩
  · obtain ⟨hexec, hexec'⟩ := execMailboxEntryWrite_of_ring (s := s) (qp := qp) (off := m * 0x40000 + off) (data := data) hdata (by omega)
    rw [← Nat.add_assoc] at hexec hexec'
    rw [writeEntry_of_refused hoff hrefused] at hexec hexec'
    refine ⟨_, hexec, hexec', ?_, ?_, ?_, ?_, ?_, ?_, ?_, fun k hk => ?_, ?_⟩
    case refine_8 => rw [State.update_box, if_neg hk, State.evDiscarded_box]
    case refine_9 =>
      rw [State.update_frame, State.evDiscarded, State.ev_frame]
    all_goals simp [touchBox]

end Sys2Proof.Machine

namespace Sys2Proof.Machine

/- The theorems of this part are elaborated one after another: side by side they need more memory than the check has left beside the tests above. -/
set_option Elab.async false

/-! ### Read counts (R74, R391, R423) -/

theorem State.headSync_frame (s : State) (k m : Nat) (e : Bytes) (l : List Nat) :
    s.headSync k m e l = { s with fabric := (s.headSync k m e l).fabric } := by
  apply State.ext_fields <;> simp

theorem syncReadCount_frame (s : State) (m : Nat) :
    syncReadCount s m = { s with take := (syncReadCount s m).take, fabric := (syncReadCount s m).fabric } := by
  unfold syncReadCount
  split
  · rfl
  · rw [State.headSync_frame]

/-- The kept read_count with the log's record of one that was out of range, before the spare is told. -/
def State.readCountLogged (s : State) (m value : Nat) : State :=
  if countLogged (s.box m).readCount (s.box m).records value then s.evReadCount kMailbox m value else s

theorem State.readCountLogged_frame (s : State) (m value : Nat) :
    s.readCountLogged m value = { s with log := (s.readCountLogged m value).log } := by
  rw [State.readCountLogged]
  split
  · exact State.ev_frame ..
  · rfl

theorem State.readCountLogged_box (s : State) (m value k : Nat) : (s.readCountLogged m value).box k = s.box k := by
  rw [State.readCountLogged_frame]
  rfl

theorem countLogged_of_in_range {kept written value : Nat} (hwritten : value ≤ written) (hkept : kept ≤ value) : countLogged kept written value = false :=
  decide_eq_false (by omega)

theorem takeReadCount_eq (s : State) (m value : Nat) :
    takeReadCount s m value =
      if (s.box m).readCount < keepCount (s.box m).readCount (s.box m).records value then
        syncReadCount ((s.readCountLogged m value).setBox m
          { s.box m with readCount := keepCount (s.box m).readCount (s.box m).records value }) m
      else s.readCountLogged m value := by
  have hunfold : takeReadCount s m value =
      if (s.box m).readCount < keepCount (s.box m).readCount (s.box m).records value then
        syncReadCount ((s.readCountLogged m value).setBox m
          { (s.readCountLogged m value).box m with readCount := keepCount (s.box m).readCount (s.box m).records value }) m
      else s.readCountLogged m value := rfl
  rw [hunfold, State.readCountLogged_box]

/-- A host write of read_count changes the mailboxes and what is logged and told of it. -/
theorem takeReadCount_frame (s : State) (m value : Nat) :
    takeReadCount s m value =
      { s with boxes := (takeReadCount s m value).boxes, log := (s.readCountLogged m value).log,
               take := (takeReadCount s m value).take, fabric := (takeReadCount s m value).fabric } := by
  rw [takeReadCount_eq, State.readCountLogged_frame]
  split
  · rw [syncReadCount_frame]
    rfl
  · rfl

/-- The kept read_count is the largest taken, and no other field of a mailbox changes (R74). -/
theorem takeReadCount_box (s : State) (m value k : Nat) :
    (takeReadCount s m value).box k =
      if k = m then { s.box m with readCount := keepCount (s.box m).readCount (s.box m).records value } else s.box k := by
  rw [takeReadCount_eq]
  split
  · rw [syncReadCount_frame]
    exact (State.setBox_box ..).trans (by rw [State.readCountLogged_box])
  · rename_i hkept
    rw [State.readCountLogged_box]
    split
    · rename_i hk
      have hsame : keepCount (s.box m).readCount (s.box m).records value = (s.box m).readCount :=
        Nat.le_antisymm (Nat.le_of_not_lt hkept) (Nat.le_max_left ..)
      rw [hk, hsame]
    · rfl

/-! The counts of the event log and of the capture queue. -/

/-- A log record leaves the read_count of the event log, and one in range leaves the log. -/
theorem State.ev_readCount (s : State) (cls code op kind index : Nat) (detail : Bytes) :
    (s.ev cls code op kind index detail).log.readCount = s.log.readCount := by
  rw [State.ev, State.event]
  split <;> rfl

theorem takeEventCount_spec (s : State) (value : Nat) :
    (takeEventCount s value).log.readCount = max s.log.readCount (min value s.log.written) ∧
      takeEventCount s value = { s with log := (takeEventCount s value).log } ∧
      (value ≤ s.log.written → s.log.readCount ≤ value →
        (takeEventCount s value).log.written = s.log.written ∧ (takeEventCount s value).log.slots = s.log.slots) := by
  unfold takeEventCount
  dsimp only
  split
  · rename_i hlogged
    refine ⟨State.ev_readCount .., ?_, fun hwritten hkept => ?_⟩
    · rw [State.evReadCount, State.ev_frame]
    · rw [countLogged_of_in_range hwritten hkept] at hlogged
      cases hlogged
  · exact ⟨rfl, rfl, fun _ _ => ⟨rfl, rfl⟩⟩

theorem takeCaptureCount_spec (s : State) (value : Nat) :
    (takeCaptureCount s value).monitor = { s.monitor with readCount := max s.monitor.readCount (min value s.monitor.written) } ∧
      takeCaptureCount s value = { s with monitor := (takeCaptureCount s value).monitor, log := (takeCaptureCount s value).log } ∧
      (value ≤ s.monitor.written → s.monitor.readCount ≤ value → (takeCaptureCount s value).log = s.log) := by
  unfold takeCaptureCount
  dsimp only
  split
  · rename_i hlogged
    rw [State.evReadCount, State.ev_frame]
    refine ⟨rfl, rfl, fun hwritten hkept => ?_⟩
    rw [countLogged_of_in_range hwritten hkept] at hlogged
    cases hlogged
  · exact ⟨rfl, rfl, fun _ _ => rfl⟩

/-! ### Scans and doorbells (R52, R343, R472) -/

theorem mem_scanResult (s : State) (m : Nat) :
    m ∈ scanResult s ↔ s.bobbinRuns = true ∧ m < 64 ∧ (s.start.rom = true → m = 0) ∧ (s.box m).cur = none ∧
      entryOwn (entryBytes (s.box m) (s.box m).consume) = true := by
  have hrange : m < (if s.start.rom = true then 1 else 64) ↔ m < 64 ∧ (s.start.rom = true → m = 0) := by
    by_cases hrom : s.start.rom = true
    · simp only [hrom, if_true, true_implies]
      omega
    · simp [hrom]
  rw [scanResult]
  split
  · rename_i hruns
    simp only [List.mem_filter, List.mem_range, hrange, consumable, Bool.and_eq_true, Option.isNone_iff_eq_none, hruns, true_and, and_assoc]
  · rename_i hstopped
    simp [hstopped]

theorem scanResult_pairwise (s : State) : (scanResult s).Pairwise (· < ·) := by
  rw [scanResult]
  split
  · exact List.pairwise_lt_range.filter _
  · exact List.Pairwise.nil

/-- A SEND over a live queue pair while the firmware runs. -/
theorem execDoorbell_of_live {s : State} {qp : Nat} (len : Nat) (hqp : s.qpOk qp = true) (hrun : s.restarting = false) :
    exec (.doorbell qp len) s = .next (if 64 < len then
      ({ s with port := { s.port with longSends := s.port.longSends + 1 } } : State).toHost (.ack qp) else (scan s).toHost (.ack qp)) := by
  show execDoorbell qp len s = _
  rw [execDoorbell, hqp, hrun]
  rfl

/-- Settles O11: read counts are kept and logged where they are out of range, a scan notes what may be consumed, and a SEND is a scan unless it is too long. -/
theorem readCountsAndDoorbells : Obligations.ReadCountsAndDoorbells := by
  refine ⟨fun m value s hm => ⟨⟨_, if_pos (decide_eq_true hm), ?_, ?_, fun k hk => ?_, ?_, fun hwritten hkept => ?_⟩, ⟨_, rfl, takeEventCount_spec s value⟩, ⟨_, rfl, ?_⟩⟩,
    fun qp len s => ⟨⟨scan s, rfl, rfl, scanResult_pairwise s, mem_scanResult s, fun hqp hrun hlen => ?_⟩, fun hqp hrun hlen => ?_⟩⟩
  · rw [takeReadCount_box, if_pos rfl]
    rfl
  · rw [takeReadCount_box, if_pos rfl]
  · rw [takeReadCount_box, if_neg hk]
  · rw [takeReadCount_frame]
  · rw [takeReadCount_frame, State.readCountLogged, countLogged_of_in_range hwritten hkept]
    rfl
  · obtain ⟨hmonitor, hframe, hlog⟩ := takeCaptureCount_spec s value
    exact ⟨by rw [hmonitor], by rw [hmonitor], hframe, hlog⟩
  · rw [execDoorbell_of_live len hqp hrun, if_neg (Nat.not_lt.2 hlen)]
  · rw [execDoorbell_of_live len hqp hrun, if_pos hlen]
    rfl

end Sys2Proof.Machine

namespace Sys2Proof.Machine

/- The theorems of this part are elaborated one after another: side by side they need more memory than the check has left beside the tests above. -/
set_option Elab.async false

/-! ### IDENTIFY, TIME_READ and status words (R67, R71, R72, R75, R78, R80) -/

/-- A module that is no head tells its spare of no mailbox but one that loads. -/
theorem State.tells_of_not_head {s : State} {m : Nat} {c : Cmd} (hhead : s.isHead = false) (hcur : (s.box m).cur = some c) (hop : entryOp c.entry ≠ opMotifLoad) :
    s.tells m = false := by
  simp [State.tells, hhead, State.loadsHere, hcur, hop]

/-- A completion of which no spare is told sets the mailbox alone. -/
theorem State.complete_of_untold {s : State} {m : Nat} (status detail progress result : Nat) (hfree : (s.box m).records - (s.box m).readCount < 16383)
    (hbreak : s.cfg.breakQps = false) (htells : s.tells m = false) :
    s.complete m status detail progress result =
      s.setBox m (finishBox m s.now (s.box m) { status := status, detail := detail % 2 ^ 32, progress := progress, result := result }) := by
  rw [State.complete_eq _ _ _ _ hfree hbreak, htells, if_neg Bool.false_ne_true]

theorem finishBox_slot (m now : Nat) (b : Mailbox) (d : DoneRec) :
    Tab.get (zeros 64) (finishBox m now b d).results (1 + b.records % 16383) = recordBytes m b 2 now (doneFields d) := by
  simp only [finishBox_results, putRecord, Config.resultSlots, Tab.get_put_same]

/-- A command in progress whose firmware runs and whose record finds a slot can run. -/
theorem Ready.of_cur {s : State} {m op : Nat} {c : Cmd} (hm : m < 64) (hrun : s.restarting = false) (hcur : (s.box m).cur = some c)
    (hop : entryOp c.entry = op) (hwait : (s.box m).doneWait = none) (hfree : (s.box m).records - (s.box m).readCount < 16383)
    (hbreak : s.cfg.breakQps = false) : Ready s m op c.entry := ⟨hm, hrun, by rw [hcur]; rfl, hop, hwait, hfree, hbreak⟩

/-- `IDENTIFY` with a common version agrees on the highest, and completes with it (R80). -/
theorem exec_identify_of_common {s : State} {m v : Nat} {e : Bytes} (h : Ready s m 0x0001 e)
    (hcommon : max (field e 8 2) s.fw.runningSlot.ifMin ≤ v) (hv : v = min (field e 0xA 2) s.fw.runningSlot.ifMax) :
    exec (.identify m) s = .next ((s.setBox m { s.box m with version := some v }).complete m 0 0 (s.box m).target v) := by
  have hready : Ready s m opIdentify e := h
  show execIdentify m s = _
  rw [execIdentify, command_ready hready, identify, h.entryOf, commonVersion, if_pos (hv ▸ hcommon), ← hv]
  simp only [State.okCmd, State.setBox_box, if_true]
  rfl

/-- Without one the mailbox is left without a version (R80). -/
theorem exec_identify_of_apart {s : State} {m : Nat} {e : Bytes} (h : Ready s m 0x0001 e)
    (hapart : min (field e 0xA 2) s.fw.runningSlot.ifMax < max (field e 8 2) s.fw.runningSlot.ifMin) :
    exec (.identify m) s =
      .next ((s.setBox m { s.box m with version := none }).complete m 0x0104 s.fw.runningSlot.ifMax (s.box m).progress 0) := by
  have hready : Ready s m opIdentify e := h
  have hentry : (s.setBox m { s.box m with version := none }).entryOf m = e := by
    rw [← h.entryOf, State.entryOf, State.setBox_box, if_pos rfl]
    rfl
  show execIdentify m s = _
  rw [execIdentify, command_ready hready, identify, h.entryOf, commonVersion, if_neg (Nat.not_le.2 hapart)]
  simp only [State.failCmd, hentry, State.resultOf_of_no_result (e := e) (by rw [h.entryOp_eq]; decide), State.setBox_box, if_true]
  rfl

theorem exec_timeRead_ready {s : State} {m : Nat} {e : Bytes} (h : Ready s m 0x0060 e) :
    exec (.timeRead m) s = .next (s.complete m 0 0 (s.box m).target s.now) := 
  command_ready (op := opTimeRead) h fun t => t.okCmd m t.now

/-- A record slot that is free takes the DONE record that waited (R75). -/
theorem State.finish_of_free {s : State} {m : Nat} {d : DoneRec} (hwait : (s.box m).doneWait = some d) (hbreak : s.cfg.breakQps = false)
    (hfree : (s.box m).records - (s.box m).readCount < 16383) :
    s.finish m = if s.tells m = true then (s.setBox m (finishBox m s.now (s.box m) d)).sendSync 1 m [] []
      else s.setBox m (finishBox m s.now (s.box m) d) := by
  have hslot : freeSlots (s.box m) ≠ 0 := by simp [freeSlots, Config.resultSlots]; omega
  simp only [State.finish, hwait, if_neg hslot]
  rw [if_neg (by split <;> simp [hbreak])]

/-- What the write of a waiting DONE record leaves. -/
theorem State.finish_spec {s : State} {m : Nat} {d : DoneRec} (hwait : (s.box m).doneWait = some d) (hbreak : s.cfg.breakQps = false)
    (hfree : (s.box m).records - (s.box m).readCount < 16383) :
    (s.finish m).box m = finishBox m s.now (s.box m) d ∧ (∀ k, k ≠ m → (s.finish m).box k = s.box k) ∧
      s.finish m = { s with boxes := (s.finish m).boxes, fabric := (s.finish m).fabric } ∧ (s.tells m = false → (s.finish m).fabric = s.fabric) := by
  have hbox : ∀ k, (s.finish m).box k = if k = m then finishBox m s.now (s.box m) d else s.box k := fun k => by
    rw [State.finish_of_free hwait hbreak hfree]
    split
    · rw [State.sendSync_box, State.setBox_box]
    · rw [State.setBox_box]
  refine ⟨(hbox m).trans (if_pos rfl), fun k hk => (hbox k).trans (if_neg hk), ?_, fun htells => ?_⟩
  · rw [State.finish_of_free hwait hbreak hfree]
    split
    · apply State.ext_fields <;> simp
    · rfl
  · rw [State.finish_of_free hwait hbreak hfree, htells, if_neg Bool.false_ne_true]
    rfl

theorem State.finish_of_full {s : State} {m : Nat} (hfull : 16383 ≤ (s.box m).records - (s.box m).readCount) : s.finish m = s := by
  have hslot : freeSlots (s.box m) = 0 := by simp [freeSlots, Config.resultSlots]; omega
  simp only [State.finish, if_pos hslot]
  split <;> rfl

/-- What a completion of which no spare is told leaves, seen from the state `s` before an effect that reached the mailboxes alone. -/
theorem State.complete_untold_spec {s u : State} {m status detail progress result : Nat} (hframe : u = { s with boxes := u.boxes })
    (hother : ∀ k, k ≠ m → u.box k = s.box k) (hfree : (u.box m).records - (u.box m).readCount < 16383) (hbreak : s.cfg.breakQps = false)
    (htells : u.tells m = false) :
    let t := u.complete m status detail progress result
    t.box m = finishBox m s.now (u.box m) { status := status, detail := detail % 2 ^ 32, progress := progress, result := result } ∧
      (∀ k, k ≠ m → t.box k = s.box k) ∧ t = { s with boxes := t.boxes } := by
  have hnow : u.now = s.now := by rw [hframe]; rfl
  intro t
  have ht : t = _ := State.complete_of_untold status detail progress result hfree (by rw [hframe]; exact hbreak) htells
  rw [hnow] at ht
  refine ⟨?_, fun k hk => ?_, ?_⟩
  · rw [ht, State.setBox_box, if_pos rfl]
  · rw [ht, State.setBox_box, if_neg hk, hother k hk]
  · rw [ht]
    conv_lhs => rw [hframe]
    rfl

/-- What `IDENTIFY` does on a module that is no head. -/
theorem State.versioned_complete {s : State} {m : Nat} {c : Cmd} (v : Option Nat) (status detail progress result : Nat) (hhead : s.isHead = false)
    (hcur : (s.box m).cur = some c) (hop : entryOp c.entry ≠ opMotifLoad) (hfree : (s.box m).records - (s.box m).readCount < 16383)
    (hbreak : s.cfg.breakQps = false) :
    let t := (s.setBox m { s.box m with version := v }).complete m status detail progress result
    t.box m = finishBox m s.now { s.box m with version := v } { status := status, detail := detail % 2 ^ 32, progress := progress, result := result } ∧
      (∀ k, k ≠ m → t.box k = s.box k) ∧ t = { s with boxes := t.boxes } := by
  have hbox : (s.setBox m { s.box m with version := v }).box m = { s.box m with version := v } := (State.setBox_box ..).trans (if_pos rfl)
  have hspec := State.complete_untold_spec (s := s) (u := s.setBox m { s.box m with version := v }) (m := m) (status := status) (detail := detail)
    (progress := progress) (result := result) rfl (fun k hk => (State.setBox_box ..).trans (if_neg hk)) (by rw [hbox]; exact hfree) hbreak
    (State.tells_of_not_head hhead (by rw [hbox]; exact hcur) hop)
  rwa [hbox] at hspec

/-- What the host sees in a mailbox whose command has completed. -/
theorem finishBox_spec (m now : Nat) (b : Mailbox) (v : Option Nat) (d : DoneRec) :
    let f := finishBox m now { b with version := v } d
    f.cur = none ∧ f.done = true ∧ f.idle = true ∧ f.status = d.status ∧ f.records = b.records + 1 ∧ f.doneWait = none ∧
      Tab.get (zeros 64) f.results (1 + b.records % 16383) =
        recordBytes m { b with version := f.version } 2 now (doneFields ⟨d.status, f.detail, f.progress, d.result⟩) :=
  ⟨rfl, rfl, rfl, rfl, rfl, rfl, finishBox_slot m now { b with version := v } d⟩

/-- A completion as the statement of `IDENTIFY` and `TIME_READ` puts it, from what the mailbox, the others and the rest of the state are. -/
theorem State.done_of_finished {s t : State} {m : Nat} {v : Option Nat} {d : DoneRec}
    (hbox : t.box m = finishBox m s.now { s.box m with version := v } d) (hother : ∀ k, k ≠ m → t.box k = s.box k) (hframe : t = { s with boxes := t.boxes }) :
    (t.box m).cur = none ∧ (t.box m).done = true ∧ (t.box m).idle = true ∧ (t.box m).status = d.status ∧
      (t.box m).records = (s.box m).records + 1 ∧ (t.box m).doneWait = none ∧
      Tab.get (zeros 64) (t.box m).results (1 + (s.box m).records % 16383) =
        recordBytes m { s.box m with version := (t.box m).version } 2 s.now (doneFields ⟨d.status, (t.box m).detail, (t.box m).progress, d.result⟩) ∧
      (∀ k, k ≠ m → t.box k = s.box k) ∧ t = { s with boxes := t.boxes } := by
  have hspec := finishBox_spec m s.now (s.box m) v d
  rw [← hbox] at hspec
  obtain ⟨hcur, hdone, hidle, hstatus, hrecords, hwait, hslot⟩ := hspec
  exact ⟨hcur, hdone, hidle, hstatus, hrecords, hwait, hslot, hother, hframe⟩

/-- Settles O13: `IDENTIFY` and `TIME_READ` complete at once, a status word is touched, and a record that waited is written when a slot is free. -/
theorem statusWordsAndSimpleCommands : Obligations.StatusWordsAndSimpleCommands := by
  refine ⟨fun m s hm hrun hhead hbreak hfree hwait c hcur => ?_, fun m s hm => ⟨fun hactive => ?_, fun d hd hbreak hfree => ?_, fun d hd hfull => ?_⟩⟩
  · have hready := fun op hop => Ready.of_cur (op := op) hm hrun hcur hop hwait hfree hbreak
    intro lo hi doneAt
    refine ⟨fun hop hcommon => ?_, fun hop hapart => ?_, fun hop => ?_⟩
    · obtain ⟨hbox, hother, hframe⟩ := State.versioned_complete (m := m) (some hi) 0 0 (s.box m).target hi hhead hcur (by rw [hop]; decide) hfree hbreak
      exact ⟨_, exec_identify_of_common (hready _ hop) hcommon rfl, by rw [hbox]; rfl, State.done_of_finished hbox hother hframe⟩
    · obtain ⟨hbox, hother, hframe⟩ := State.versioned_complete (m := m) none 0x0104 s.fw.runningSlot.ifMax (s.box m).progress 0 hhead hcur
        (by rw [hop]; decide) hfree hbreak
      exact ⟨_, exec_identify_of_apart (hready _ hop) hapart, by rw [hbox]; rfl, by rw [hbox]; rfl, State.done_of_finished hbox hother hframe⟩
    · obtain ⟨hbox, hother, hframe⟩ := State.complete_untold_spec (s := s) (u := s) (m := m) (status := 0) (detail := 0) (progress := (s.box m).target)
        (result := s.now) rfl (fun _ _ => rfl) hfree hbreak (State.tells_of_not_head hhead hcur (by rw [hop]; decide))
      exact ⟨_, exec_timeRead_ready (hready _ hop), State.done_of_finished (v := (s.box m).version) hbox hother hframe, by rw [hbox]; rfl⟩
  · refine ⟨s.update m id, (if_pos (decide_eq_true hm)).trans (congrArg _ (if_pos hactive)), ?_⟩
    have hbox : (s.update m id).box m = touchBox (s.box m) s.now := (State.update_box ..).trans (if_pos rfl)
    rw [hbox]
    exact ⟨rfl, rfl, rfl, fun k hk => (State.update_box ..).trans (if_neg hk), rfl⟩
  · have hexec : exec (.doneRecordWrite m) s = .next (s.finish m) := if_pos (decide_eq_true hm)
    obtain ⟨hbox, hother, hframe, htold⟩ := State.finish_spec hd hbreak hfree
    refine ⟨_, hexec, ?_⟩
    rw [hbox]
    exact ⟨rfl, rfl, rfl, rfl, rfl, rfl, rfl, finishBox_slot .., hother, hframe, htold⟩
  · exact (if_pos (decide_eq_true hm)).trans (congrArg _ (State.finish_of_full hfull))

end Sys2Proof.Machine

namespace Sys2Proof.Machine

/- The theorems of this part are elaborated one after another: side by side they need more memory than the check has left beside the tests above. -/
set_option Elab.async false

/-! ### Module start (R53, R71) -/

/-- The status word of a mailbox right after module start: DONE and IDLE, the mailbox's number, and zeros (R71). -/
theorem statusBytes_init (m : Nat) : statusBytes m Mailbox.init = 0xA0 :: BitVec.ofNat 8 m :: zeros 62 := by
  simp [statusBytes, layout, overlay, leBytes, zeros, statusFlags, Mailbox.init, b2n]

/-- Settles O5: nothing is listed in the tables after reset, so every unit reads as its initial value. -/
theorem resetLeavesTheGivenValues : Obligations.ResetLeavesTheGivenValues :=
  ⟨fun m _ => statusBytes_init m, fun _ => ⟨rfl, rfl, rfl⟩, fun _ => ⟨rfl, rfl, rfl⟩, fun _ => ⟨rfl, rfl⟩, rfl, rfl, rfl, rfl, rfl⟩

/-- Settles O7: nothing has been written. -/
theorem resetMemoryIsCanonical : Obligations.ResetMemoryIsCanonical := rfl
end Sys2Proof.Machine

namespace Sys2Proof.Machine

/- The theorems of this part are elaborated one after another: side by side they need more memory than the check has left beside the tests above. -/
set_option Elab.async false

/-! ### PAGES_BIND (R62, R66, R209, R214) -/

/-- The page table that a `PAGES_BIND` with entry `e` binds for a sequence (R209). -/
def boundTable (q : Seq) (e : Bytes) : Binding :=
  { motif := q.motif, seq := q.id, firstLayer := field e 0x10 2, layerCount := field e 0x12 2, descOffset := field e 0x18 8 }

/-- The tables once that one is bound: it takes the place of those whose layers it covers (R214). -/
def State.tableBound (s : State) (q : Seq) (e : Bytes) : State :=
  { s with seqs := { s.seqs with bindings := boundTable q e :: s.seqs.bindings.filter fun x => !x.inside (boundTable q e) } }

section Bind
variable {s : State} {m : Nat} {e : Bytes} {p : Pricking} {q : Seq} (h : Ready s m 0x38 e) (hbegun : begunOn s m = false) (hw : s.seqWaits m = false)
  (hv : s.take.vacatedTo = none) (hp : s.seqMotif (field e 8 1) = some (.ok p)) (hq : s.findSeq (field e 8 1) (field e 0xC 3) = some q)
include h hbegun hw hv hp hq

theorem exec_pagesBind_refused {i : Nat} (hbad : bindBad s p q e = some i) : exec (.pagesBind m) s = .next (s.failCmd m 0x0102 i) := by
  have hrow : Ready s m opPagesBind e := h
  show execPagesBind m s = _
  rw [execPagesBind, seqCommand_ready hrow hw, hbegun, if_neg Bool.false_ne_true, State.onSeq_of_open h hv hp hq, h.entryOf, hbad]
  rfl

/-- Where no bound table covers any of its layers a table is bound at once. -/
theorem exec_pagesBind_binds (hgood : bindBad s p q e = none) (hopen : q.state ≠ .closing)
    (hfresh : (s.seqs.bindings.any fun x => x.overlaps (boundTable q e)) = false) :
    exec (.pagesBind m) s = .next ((s.tableBound q e).okCmd m 0) := by
  have hrow : Ready s m opPagesBind e := h
  show execPagesBind m s = _
  rw [execPagesBind, seqCommand_ready hrow hw, hbegun, if_neg Bool.false_ne_true, State.onSeq_of_open h hv hp hq, h.entryOf, hgood]
  rw [boundTable] at hfresh
  simp only [if_neg hopen, hfresh]
  rfl

theorem pagesBind_fails {i : Nat} (hbad : bindBad s p q e = some i) (hi : i < 2 ^ 32) :
    ∃ t, exec (.pagesBind m) s = .next t ∧ Completes s t m 0x0102 i (s.box m).progress 0 ∧ t = { s with boxes := t.boxes, fabric := t.fabric } :=
  ⟨_, exec_pagesBind_refused h hbegun hw hv hp hq hbad, h.failCmd 0x0102 i (Nat.mod_eq_of_lt hi) (h.no_result (by decide))⟩

end Bind

/-- The first of the parameters of a `PAGES_BIND` that is out of range (R209). -/
theorem bindBad_of_host {s : State} {p : Pricking} {q : Seq} {e : Bytes} (hhost : q.hostPages = true) :
    bindBad s p q e = if p.layers.length ≤ field e 0x10 2 then some 0x10 else if p.layers.length < field e 0x10 2 + field e 0x12 2 then some 0x12
      else if s.inHostArea (field e 0x18 8) (32 * field e 0x12 2) = true then none else some 0x18 := by
  simp only [bindBad, hhost]
  cases s.inHostArea (field e 0x18 8) (32 * field e 0x12 2) <;> rfl

/-- Settles O19: each parameter out of range is named; a table whose layers no bound one covers is bound, and the command completes. -/
theorem pagesBindBindsATable : Obligations.PagesBindBindsATable := by
  intro m e p q s h hbegun hw hv hp hq b fails
  have hfails : ∀ {i}, bindBad s p q e = some i → i < 2 ^ 32 → fails i := pagesBind_fails h hbegun hw hv hp hq
  refine ⟨fun hhost => hfails ?_ (by decide), fun hhost hfirst => hfails ?_ (by decide), fun hhost hfirst hcount => hfails ?_ (by decide),
    fun hhost hfirst hcount harea => hfails ?_ (by decide), fun hhost hfirst hcount harea hopen hfresh => ?_⟩
  · rw [bindBad, hhost]
    rfl
  · rw [bindBad_of_host hhost, if_pos hfirst]
  · rw [bindBad_of_host hhost, if_neg (Nat.not_le.2 hfirst), if_pos hcount]
  · rw [bindBad_of_host hhost, if_neg (Nat.not_le.2 hfirst), if_neg (Nat.not_lt.2 hcount), harea]
    rfl
  · have hgood : bindBad s p q e = none := by
      rw [bindBad_of_host hhost, if_neg (Nat.not_le.2 hfirst), if_neg (Nat.not_lt.2 hcount), if_pos harea]
    have hdone : Completes s ((s.tableBound q e).okCmd m 0) m 0 0 (s.box m).target 0 := State.complete_completes_seqs 0 0 _ 0 h.free h.breakQps
    have hseqs : ((s.tableBound q e).okCmd m 0).seqs = (s.tableBound q e).seqs := State.okCmd_seqs ..
    have hframe : (s.tableBound q e).okCmd m 0 = { s with
      boxes := ((s.tableBound q e).okCmd m 0).boxes, seqs := ((s.tableBound q e).okCmd m 0).seqs, fabric := ((s.tableBound q e).okCmd m 0).fabric } :=
      State.complete_changes_seqs 0 0 _ 0 h.free h.breakQps
    refine ⟨_, exec_pagesBind_binds h hbegun hw hv hp hq hgood hopen hfresh, hdone, ?_, ?_⟩
    · rw [hseqs]
      exact List.mem_cons_self ..
    · exact hframe.trans (by rw [hseqs]; rfl)

end Sys2Proof.Machine

namespace Sys2Proof.Machine

/- The theorems of this part are elaborated one after another: side by side they need more memory than the check has left beside the tests above. -/
set_option Elab.async false

/-! ### HEALTH_READ and ATTEST (R63, R393, R414, R451) -/

section Deliver
variable {s : State} {m qp : Nat} {c : Cmd} {data : Bytes} (hcur : (s.box m).cur = some c) (hroom : data.length ≤ bufLen c.entry) (hqp : s.cmdQp c = some qp)
include hcur hroom hqp

theorem State.deliver_of_broken (hbroken : s.qpOk qp = false) : s.deliver m data = s.failCmd m 0x0402 0 := by
  simp only [State.deliver, hcur, if_neg (Nat.not_lt.2 hroom), hqp, hbroken]
  rfl

theorem State.deliver_of_live (hlive : s.qpOk qp = true) :
    s.deliver m data = (s.setCmd m fun x => { x with xfer := .writing, via := qp }).toHost
      (.writeRequest qp m (bufAddr c.entry) (bufRkey c.entry) data) := by
  simp only [State.deliver, hcur, if_neg (Nat.not_lt.2 hroom), hqp, hlive]
  rfl

end Deliver

/-- What a command that delivers a report does, by the size of its buffer and the state of its queue pair (R63). -/
theorem Ready.delivers {s : State} {m op : Nat} {c : Cmd} {i : Instr} {data : Bytes} (h : Ready s m op c.entry) (hcur : (s.box m).cur = some c)
    (hresult : s.resultOf c.entry = 0) (hexec : exec i s = .next (s.deliver m data)) :
    let fails (st d : Nat) : Prop := ∃ t, exec i s = .next t ∧ Completes s t m st (d % 2 ^ 32) (s.box m).progress 0 ∧
      t = { s with boxes := t.boxes, fabric := t.fabric }
    (bufLen c.entry < data.length → fails 0x0403 data.length) ∧
    (∀ qp, data.length ≤ bufLen c.entry → s.cmdQp c = some qp → s.qpOk qp = false → fails 0x0402 0) ∧
    (∀ qp, data.length ≤ bufLen c.entry → s.cmdQp c = some qp → s.qpOk qp = true → ∃ t, exec i s = .next t ∧
      t.port.out = s.frame (.writeRequest qp m (bufAddr c.entry) (bufRkey c.entry) data) :: s.port.out ∧
      (t.box m).cur = some { c with xfer := .writing, via := qp } ∧
      (∀ k, k ≠ m → t.box k = s.box k) ∧ t = { s with boxes := t.boxes, port := { s.port with out := t.port.out } }) := by
  refine ⟨fun hshort => ?_, fun qp hroom hqp hbroken => ?_, fun qp hroom hqp hlive => ?_⟩
  · rw [hexec, State.deliver_of_short hcur hshort]
    exact ⟨_, rfl, h.failCmd _ _ rfl hresult⟩
  · rw [hexec, State.deliver_of_broken hcur hroom hqp hbroken]
    exact ⟨_, rfl, h.failCmd _ _ rfl hresult⟩
  · rw [hexec, State.deliver_of_live hcur hroom hqp hlive]
    refine ⟨_, rfl, rfl, ?_, fun k hk => (State.setCmd_box ..).trans (if_neg hk), rfl⟩
    rw [State.toHost_box, State.setCmd_box, if_pos rfl, hcur]
    rfl

section Reports
variable {s : State} {m : Nat} {c : Cmd} (hcur : (s.box m).cur = some c) (hxfer : c.xfer = .none)
include hcur hxfer

theorem State.xferOf_of_cur : s.xferOf m = .none := by
  rw [State.xferOf, hcur]
  exact hxfer

variable (h : Ready s m 0x50 c.entry)
include h

theorem exec_healthRead_fixed (hsel : ¬ (0x10 ≤ field c.entry 8 1 ∧ field c.entry 8 1 < 0x30)) :
    exec (.healthRead m) s = .next (s.deliver m (fixedReport s (field c.entry 8 1))) := by
  have hrow : Ready s m opHealthRead c.entry := h
  show execHealthRead m s = _
  rw [execHealthRead, command_ready hrow, State.xferOf_of_cur hcur hxfer, h.entryOf]
  simp only [if_neg hsel]
  rfl

theorem exec_healthRead_layer (hsel : 0x10 ≤ field c.entry 8 1 ∧ field c.entry 8 1 < 0x30) {data : Bytes}
    (hreport : layerReport s (field c.entry 8 1) = some data) : exec (.healthRead m) s = .next (s.deliver m data) := by
  have hrow : Ready s m opHealthRead c.entry := h
  show execHealthRead m s = _
  rw [execHealthRead, command_ready hrow, State.xferOf_of_cur hcur hxfer, h.entryOf]
  simp only [if_pos hsel, hreport]
  rfl

theorem exec_healthRead_no_layer (hsel : 0x10 ≤ field c.entry 8 1 ∧ field c.entry 8 1 < 0x30) (hreport : layerReport s (field c.entry 8 1) = none) :
    exec (.healthRead m) s = .next (s.failCmd m 0x0204 0) := by
  have hrow : Ready s m opHealthRead c.entry := h
  show execHealthRead m s = _
  rw [execHealthRead, command_ready hrow, State.xferOf_of_cur hcur hxfer, h.entryOf]
  simp only [if_pos hsel, hreport]
  rfl

end Reports

theorem exec_attest_delivers {s : State} {m : Nat} {c : Cmd} (hcur : (s.box m).cur = some c) (hxfer : c.xfer = .none) (h : Ready s m 0xA0 c.entry) :
    exec (.attest m) s = .next (s.deliver m (quote s ((c.entry.drop 0x20).take 32))) := by
  have hrow : Ready s m opAttest c.entry := h
  show execAttest m s = _
  rw [execAttest, command_ready hrow, State.xferOf_of_cur hcur hxfer, h.entryOf]
  rfl

/-- Settles O54: each report is delivered like any other, but for the layer record of a motif that has no layers here. -/
theorem reportsAreDelivered : Obligations.ReportsAreDelivered := by
  intro m c s hcur hxfer sel fails delivers
  have hdelivers : ∀ {op i data}, Ready s m op c.entry → op ∉ [0x12, 0x13, 0x20, 0x21, 0x31, 0x32, 0x60, 0x81, 0x82] →
      exec i s = .next (s.deliver m data) → delivers i data := fun h hop hexec => h.delivers hcur (h.no_result hop) hexec
  refine ⟨fun h hsel => ?_, fun h hlo hhi hnone => ?_, fun data h hlo hhi hsome => ?_, fun h => ?_⟩
  · exact hdelivers h (by decide) (exec_healthRead_fixed hcur hxfer h fun hin => hsel.elim (Nat.not_lt.2 hin.1) (Nat.not_le.2 hin.2))
  · exact ⟨_, exec_healthRead_no_layer hcur hxfer h ⟨hlo, hhi⟩ hnone, h.failCmd 0x0204 0 rfl (h.no_result (by decide))⟩
  · exact hdelivers h (by decide) (exec_healthRead_layer hcur hxfer h ⟨hlo, hhi⟩ hsome)
  · exact hdelivers h (by decide) (exec_attest_delivers hcur hxfer h)

end Sys2Proof.Machine

namespace Sys2Proof.Machine

/- The theorems of this part are elaborated one after another: side by side they need more memory than the check has left beside the tests above. -/
set_option Elab.async false

/-- A change of the monitor and the log after one of the monitor alone. -/
theorem State.frame_of_monitor {s u t : State} (hu : u = { s with monitor := u.monitor }) (ht : t = { u with monitor := t.monitor, log := t.log }) :
    t = { s with monitor := t.monitor, log := t.log } := ht.trans (by rw [hu])

/-! ### Results of sequencer entries (R419 to R423) -/

theorem Monitor.capture_slot (q : Monitor) (data : Bytes) : Tab.get (zeros 16) (q.capture data).slots (4 + q.written % Config.captureSlots) = data :=
  Tab.get_put_same ..

/-- A result is captured where its entry delivers to the capture queue. -/
theorem State.deliverResult_monitor (s : State) (i : Nat) (e : MonEntry) (r : Nat × Bool × Bool) (outside : Bool) :
    (s.deliverResult i e r outside).monitor =
      if e.dest = 0 then s.monitor else s.monitor.capture (captureBytes s.monitor.written i e r outside s.now) := by
  rw [State.deliverResult]
  split <;> split <;> simp

theorem State.deliverResult_frame (s : State) (i : Nat) (e : MonEntry) (r : Nat × Bool × Bool) (outside : Bool) :
    s.deliverResult i e r outside = { s with monitor := (s.deliverResult i e r outside).monitor, log := (s.deliverResult i e r outside).log } := by
  rw [State.deliverResult]
  split
  · rw [State.ev_frame]
    split <;> rfl
  · split <;> rfl

theorem State.deliverResult_monEntry (s : State) (i k : Nat) (e : MonEntry) (r : Nat × Bool × Bool) (outside : Bool) :
    (s.deliverResult i e r outside).monEntry k = s.monEntry k := by
  rw [State.monEntry, State.deliverResult_monitor]
  split <;> rfl

/-- What the capture queue holds after a result. -/
theorem State.deliverResult_captured (s : State) (i : Nat) {e : MonEntry} (r : Nat × Bool × Bool) (outside : Bool) (hdest : e.dest ≠ 0) :
    (s.deliverResult i e r outside).monitor.written = s.monitor.written + 1 ∧
      Tab.get (zeros 16) (s.deliverResult i e r outside).monitor.slots (4 + s.monitor.written % Config.captureSlots) =
        captureBytes s.monitor.written i e r outside s.now := by
  rw [State.deliverResult_monitor, if_neg hdest]
  exact ⟨rfl, Monitor.capture_slot ..⟩

theorem State.deliverResult_uncaptured (s : State) (i : Nat) {e : MonEntry} (r : Nat × Bool × Bool) (outside : Bool) (hdest : e.dest = 0) :
    (s.deliverResult i e r outside).monitor = s.monitor := by
  rw [State.deliverResult_monitor, if_pos hdest]

/-! The result of an entry in force, and the last result of one that a program has replaced (R424). -/

/-- The state before the capture of an entry's result: its register and the comparator's memory (R421, R422). -/
def State.entryDelivered (s : State) (i : Nat) (r : Nat × Bool × Bool) : State :=
  s.setMonEntry i ((s.monEntry i).deliver r ((s.bandEntry i).isOutside r) ((s.monEntry i).records ((s.bandEntry i).isOutside r)) s.now)

theorem exec_monitorEntry_delivers {s : State} {i : Nat} {samples : List Int} {r : Nat × Bool × Bool}
    (hr : monResult (samples.map (monCode (s.monEntry i).channel)) = r) (hi : i < 32) (hpower : s.start.powerGood = true) (hold : s.oldEntry i = none)
    (hends : s.monEnds i = true) (hturn : s.monTurn i = true) (hlen : samples.length = 2 ^ (s.monEntry i).avg) :
    exec (.monitorEntry i samples) s =
      .next ((s.entryDelivered i r).deliverResult i (s.monEntry i) r ((s.bandEntry i).isOutside r)) := by
  show execMonitorEntry i samples s = _
  rw [execMonitorEntry, hold, decide_eq_true hi]
  simp only [hpower, hends, hturn, hlen, hr, ne_eq, not_true_eq_false, decide_false, Bool.not_true, Bool.or_false]
  rfl

theorem exec_monitorEntry_waits {s : State} {i : Nat} {samples : List Int} (hi : i < 32) (hold : s.oldEntry i = none) (hends : s.monEnds i = false) :
    exec (.monitorEntry i samples) s = .next s := by
  show execMonitorEntry i samples s = _
  rw [execMonitorEntry, hold, decide_eq_true hi]
  simp only [hends, Bool.not_false, Bool.or_true, Bool.true_or, if_true]
  rfl

theorem exec_monitorEntry_old {s : State} {i : Nat} {samples : List Int} {old : MonEntry} (hi : i < 32) (hpower : s.start.powerGood = true)
    (hold : s.oldEntry i = some old) (hlen : samples.length = 2 ^ old.avg) :
    exec (.monitorEntry i samples) s = .next (s.deliverOld i old samples) := by
  show execMonitorEntry i samples s = _
  rw [execMonitorEntry, hold, decide_eq_true hi]
  simp only [hpower, hlen]
  rfl

theorem State.setMonEntry_frame (s : State) (i : Nat) (e : MonEntry) : s.setMonEntry i e = { s with monitor := (s.setMonEntry i e).monitor } := rfl

/-- The register, the comparator's memory and the start of an entry after its result. -/
theorem MonEntry.deliver_spec (e : MonEntry) (r : Nat × Bool × Bool) (outside record : Bool) (now : Nat) :
    let x := e.deliver r outside record now
    (e.dest ≠ 1 → x.code = r.1 ∧ x.ovr = r.2.1 ∧ x.under = r.2.2 ∧ x.valid = true ∧ x.count = e.count + 1 ∧ x.time = now) ∧
      (e.dest = 1 → x.code = e.code ∧ x.count = e.count ∧ x.time = e.time) ∧
      x.lastStart = some (now - e.length) ∧ x.missed = false ∧ x.inside = (if outside = true then 0 else e.inside + 1) := by
  intro x
  by_cases hdest : e.dest = 1
  · have hx : x = _ := if_pos hdest
    rw [hx]
    exact ⟨fun h => absurd hdest h, fun _ => ⟨rfl, rfl, rfl⟩, rfl, rfl, rfl⟩
  · have hx : x = _ := if_neg hdest
    rw [hx]
    exact ⟨fun _ => ⟨rfl, rfl, rfl, rfl, rfl, rfl⟩, fun h => absurd h hdest, rfl, rfl, rfl⟩

/-- What an entry's result leaves. -/
theorem State.delivered_frame (s : State) (i : Nat) (r : Nat × Bool × Bool) (outside : Bool) :
    let t := (s.entryDelivered i r).deliverResult i (s.monEntry i) r outside
    t = { s with monitor := t.monitor, log := t.log } ∧ (∀ k, t.monEntry k = if k = i then
      (s.monEntry i).deliver r ((s.bandEntry i).isOutside r) ((s.monEntry i).records ((s.bandEntry i).isOutside r)) s.now else s.monEntry k) := by
  intro t
  refine ⟨State.frame_of_monitor (u := s.entryDelivered i r) rfl (State.deliverResult_frame ..), fun k => ?_⟩
  exact (State.deliverResult_monEntry ..).trans (State.setMonEntry_monEntry ..)

/-- A replaced entry's register write: the new entry's register, where the old entry delivered to it. -/
def State.oldRegistered (s : State) (i : Nat) (old : MonEntry) (r : Nat × Bool × Bool) : State :=
  let s1 : State := if old.dest = 1 then s else s.setMonEntry i ((s.monEntry i).register r (old.isOutside r) old.missed s.now)
  { s1 with monitor := { s1.monitor with replaced := s1.monitor.replaced.filter fun x => x.1 % 4 ≠ i % 4 } }

theorem State.deliverOld_eq (s : State) (i : Nat) (old : MonEntry) (samples : List Int) :
    s.deliverOld i old samples =
      (s.oldRegistered i old (monResult (samples.map (monCode old.channel)))).deliverResult i old (monResult (samples.map (monCode old.channel)))
        (old.isOutside (monResult (samples.map (monCode old.channel)))) := rfl

theorem State.oldRegistered_monitor (s : State) (i : Nat) (old : MonEntry) (r : Nat × Bool × Bool) :
    (s.oldRegistered i old r).monitor = { s.monitor with
      entries := if old.dest = 1 then s.monitor.entries
        else Tab.put MonEntry.init s.monitor.entries i ((s.monEntry i).register r (old.isOutside r) old.missed s.now)
      replaced := s.monitor.replaced.filter fun x => x.1 % 4 ≠ i % 4 } := by
  rw [State.oldRegistered]
  split <;> rfl

theorem State.oldRegistered_frame (s : State) (i : Nat) (old : MonEntry) (r : Nat × Bool × Bool) :
    s.oldRegistered i old r = { s with monitor := (s.oldRegistered i old r).monitor } := by
  rw [State.oldRegistered]
  split <;> rfl

theorem State.oldRegistered_monEntry (s : State) (i k : Nat) (old : MonEntry) (r : Nat × Bool × Bool) :
    (s.oldRegistered i old r).monEntry k =
      if k = i ∧ old.dest ≠ 1 then (s.monEntry i).register r (old.isOutside r) old.missed s.now else s.monEntry k := by
  rw [State.monEntry, State.oldRegistered_monitor]
  by_cases hdest : old.dest = 1
  · simp [hdest, State.monEntry]
  · simp [hdest, Tab.get_put, State.monEntry]

/-- No replaced entry of the converter is left in progress. -/
theorem State.oldEntry_of_filtered {s : State} {i : Nat} {l : List (Nat × MonEntry)} (h : s.monitor.replaced = l.filter fun x => x.1 % 4 ≠ i % 4) :
    s.oldEntry i = none := by
  have hnone : s.monitor.replaced.find? (fun x => x.1 = i) = none := by
    rw [h]
    refine List.find?_eq_none.2 fun x hx => ?_
    have hother := (List.mem_filter.1 hx).2
    simp only [ne_eq, decide_eq_true_eq] at hother ⊢
    exact fun heq => hother (by rw [heq])
  rw [State.oldEntry, hnone]

/-- The last result of a replaced entry (R424). -/
theorem State.deliverOld_spec {s : State} {i : Nat} {old : MonEntry} {samples : List Int} {r : Nat × Bool × Bool}
    (hr : monResult (samples.map (monCode old.channel)) = r) :
    let t := s.deliverOld i old samples
    (∀ k, t.monEntry k = if k = i ∧ old.dest ≠ 1 then (s.monEntry i).register r (old.isOutside r) old.missed s.now else s.monEntry k) ∧
      (old.dest = 0 → t.monitor.written = s.monitor.written) ∧
      (old.dest ≠ 0 → t.monitor.written = s.monitor.written + 1 ∧
        Tab.get (zeros 16) t.monitor.slots (4 + s.monitor.written % Config.captureSlots) =
          captureBytes s.monitor.written i old r (old.isOutside r) s.now) ∧
      t.oldEntry i = none ∧ t = { s with monitor := t.monitor, log := t.log } := by
  intro t
  have ht : t = (s.oldRegistered i old r).deliverResult i old r (old.isOutside r) := by rw [← hr]; exact State.deliverOld_eq ..
  have hmonitor := State.oldRegistered_monitor s i old r
  have hnow : (s.oldRegistered i old r).now = s.now := by rw [State.oldRegistered_frame]; rfl
  rw [ht]
  refine ⟨fun k => (State.deliverResult_monEntry ..).trans (State.oldRegistered_monEntry ..), fun hdest => ?_, fun hdest => ?_, ?_, ?_⟩
  · rw [State.deliverResult_uncaptured _ _ _ _ hdest, hmonitor]
  · have hcaptured := State.deliverResult_captured (s.oldRegistered i old r) i r (old.isOutside r) hdest
    rw [hnow, hmonitor] at hcaptured
    exact hcaptured
  · refine State.oldEntry_of_filtered (l := s.monitor.replaced) ?_
    rw [State.deliverResult_monitor, hmonitor]
    split <;> rfl
  · exact State.frame_of_monitor (State.oldRegistered_frame ..) (State.deliverResult_frame ..)

/-! An entry that is due again before it has started (R421). -/

/-- An entry that is late and has been so since its last result. -/
def MonEntry.lated (e : MonEntry) : MonEntry := { e with late := true, missed := true }

theorem exec_late_not_due {s : State} {i u : Nat} (hi : i < 32) (hu : (s.monEntry i).lastStart = some u)
    (hdue : (s.monEntry i).period = 0 ∨ s.now < u + 2000 * (s.monEntry i).period) : exec (.late i) s = .next s := by
  show execLate i s = _
  rw [execLate, decide_eq_true hi]
  simp only [hu, if_pos hdue]
  rfl

theorem exec_late_due {s : State} {i u : Nat} (hi : i < 32) (hu : (s.monEntry i).lastStart = some u) (hperiod : (s.monEntry i).period ≠ 0)
    (hdue : u + 2000 * (s.monEntry i).period ≤ s.now) :
    exec (.late i) s = .next ((s.setMonEntry i (s.monEntry i).lated).ev 7 2 0 kMonitor (s.monEntry i).channel
      (leBytes 1 i ++ leBytes 2 (satTo 16 ((s.now - u) / (1000 * (s.monEntry i).period) - 1)))) := by
  have hlate : ¬ ((s.monEntry i).period = 0 ∨ s.now < u + 2000 * (s.monEntry i).period) := fun h => h.elim hperiod (Nat.not_lt.2 hdue)
  show execLate i s = _
  rw [execLate, decide_eq_true hi]
  simp only [MonEntry.lated, hu, if_neg hlate]
  rfl

theorem State.lated_monEntry (s : State) (i k kind : Nat) (detail : Bytes) :
    ((s.setMonEntry i (s.monEntry i).lated).ev 7 2 0 kMonitor kind detail).monEntry k = if k = i then (s.monEntry i).lated else s.monEntry k := by
  rw [State.monEntry, State.ev_monitor]
  exact State.setMonEntry_monEntry ..

/-! ### MONITOR_PROGRAM (R63, R420, R424) -/

section Program
variable {s : State} {m : Nat} {c : Cmd} (h : Ready s m 0x58 c.entry) (hcur : (s.box m).cur = some c)
include h hcur

/-- The buffer's length is checked before it is read. -/
theorem exec_monitorProgram_size (hxfer : c.xfer = .none) (hsize : ¬ (8 ≤ bufLen c.entry ∧ bufLen c.entry % 8 = 0 ∧ bufLen c.entry ≤ 136)) :
    exec (.monitorProgram m) s = .next (s.failCmd m 0x0102 0) := by
  have hrow : Ready s m opMonitorProgram c.entry := h
  have hidle : s.xferOf m = .none := by rw [State.xferOf, hcur]; exact hxfer
  show execMonitorProgram m s = _
  rw [execMonitorProgram, command_ready hrow, h.entryOf, hidle]
  exact congrArg _ (if_pos (by omega))

theorem exec_monitorProgram_reads {qp : Nat} (hxfer : c.xfer = .none) (hsize : 8 ≤ bufLen c.entry ∧ bufLen c.entry % 8 = 0 ∧ bufLen c.entry ≤ 136)
    (hqp : s.cmdQp c = some qp) (hlive : s.qpOk qp = true) (hroom : s.readRoom qp = true) :
    exec (.monitorProgram m) s = .next ((s.setCmd m fun x => { x with xfer := .reading, want := bufLen c.entry, via := qp }).toHost
      (.readRequest qp 0 m (bufAddr c.entry) (bufRkey c.entry) (bufLen c.entry))) := by
  have hrow : Ready s m opMonitorProgram c.entry := h
  have hidle : s.xferOf m = .none := by rw [State.xferOf, hcur]; exact hxfer
  show execMonitorProgram m s = _
  rw [execMonitorProgram, command_ready hrow, h.entryOf, hidle]
  refine congrArg _ ((if_neg (by omega)).trans ?_)
  simp only [State.readBuffer, hcur, hqp, State.startRead, hlive, hroom]
  rfl

theorem exec_monitorProgram_unread (hxfer : c.xfer = .readFailed) : exec (.monitorProgram m) s = .next (s.failCmd m 0x0400 s.machineId) := by
  have hrow : Ready s m opMonitorProgram c.entry := h
  have hfailed : s.xferOf m = .readFailed := by rw [State.xferOf, hcur]; exact hxfer
  show execMonitorProgram m s = _
  rw [execMonitorProgram, command_ready hrow, hfailed]
  rfl

theorem exec_monitorProgram_refused (hxfer : c.xfer = .readDone) {st d : Nat} (hbad : monRefusal s c.data = some (st, d)) :
    exec (.monitorProgram m) s = .next (s.failCmd m st d) := by
  have hrow : Ready s m opMonitorProgram c.entry := h
  have hread : s.xferOf m = .readDone := by rw [State.xferOf, hcur]; exact hxfer
  have hdata : s.dataOf m = c.data := by rw [State.dataOf, hcur]
  show execMonitorProgram m s = _
  rw [execMonitorProgram, command_ready hrow, hread]
  simp only [hdata, hbad]

theorem exec_monitorProgram_accepted (hxfer : c.xfer = .readDone) (hgood : monRefusal s c.data = none) :
    exec (.monitorProgram m) s = .next (({ s with monitor := s.monitor.program (monEntries c.data) s.now } : State).okCmd m 0) := by
  have hrow : Ready s m opMonitorProgram c.entry := h
  have hread : s.xferOf m = .readDone := by rw [State.xferOf, hcur]; exact hxfer
  have hdata : s.dataOf m = c.data := by rw [State.dataOf, hcur]
  show execMonitorProgram m s = _
  rw [execMonitorProgram, command_ready hrow, hread]
  simp only [hdata, hgood]

theorem exec_monitorProgram_waits (hxfer : c.xfer = .reading ∨ c.xfer = .writing) : exec (.monitorProgram m) s = .next s := by
  have hrow : Ready s m opMonitorProgram c.entry := h
  have hx : s.xferOf m = c.xfer := by rw [State.xferOf, hcur]
  show execMonitorProgram m s = _
  rw [execMonitorProgram, command_ready hrow, hx]
  rcases hxfer with hxfer | hxfer <;> rw [hxfer]

end Program

/-- A fold of writes to the entries from 16 on. -/
theorem Tab.get_foldl_put (f : Nat → MonEntry) (n : Nat) (t : Tab MonEntry) (j : Nat) :
    Tab.get MonEntry.init ((List.range n).foldl (fun t i => Tab.put MonEntry.init t (16 + i) (f i)) t) j =
      if 16 ≤ j ∧ j < 16 + n then f (j - 16) else Tab.get MonEntry.init t j := by
  induction n with
  | zero => rw [if_neg (by omega)]; rfl
  | succ n ih =>
    rw [List.range_succ, List.foldl_append, List.foldl_cons, List.foldl_nil, Tab.get_put, ih]
    by_cases hj : j = 16 + n
    · rw [if_pos hj, if_pos (by omega), show j - 16 = n by omega]
    · rw [if_neg hj]
      by_cases hin : 16 ≤ j ∧ j < 16 + n
      · rw [if_pos hin, if_pos (by omega)]
      · rw [if_neg hin, if_neg (by omega)]

/-- Entries 16 to 31 are the program's, and the others are left (R424). -/
theorem Monitor.program_entry (q : Monitor) (es : List Bytes) (now j : Nat) :
    Tab.get MonEntry.init (q.program es now).entries j = if 16 ≤ j ∧ j < 32 then
      (if j - 16 < es.length then readMonEntry (es.getD (j - 16) []) else MonEntry.init) else Tab.get MonEntry.init q.entries j :=
  Tab.get_foldl_put (fun i => if i < es.length then readMonEntry (es.getD i []) else MonEntry.init) 16 q.entries j

/-- A program that is accepted completes its command, and what it replaces is noted (R424). -/
theorem State.programmed_completes {s : State} {m : Nat} {e : Bytes} (h : Ready s m 0x58 e) (q : Monitor) :
    let t := ({ s with monitor := q } : State).okCmd m 0
    Completes s t m 0 0 (s.box m).target 0 ∧ t.monitor = q ∧ t = { s with boxes := t.boxes, fabric := t.fabric, monitor := q } :=
  ⟨(State.complete_completes (s := { s with monitor := q }) 0 0 _ 0 h.free h.breakQps).of_boxes rfl rfl, State.okCmd_monitor ..,
    State.complete_changes (s := { s with monitor := q }) 0 0 _ 0 h.free h.breakQps⟩

/-- Settles O53: results of entries in force and of replaced ones, a late entry, and a program from its read to its effect. -/
theorem monitorEntriesAndPrograms : Obligations.MonitorEntriesAndPrograms := by
  refine ⟨fun i samples s hi => ?_, fun m c s h hcur => ?_⟩
  · intro e r
    refine ⟨exec_monitorEntry_waits hi, fun old hpower hold hlen => ?_, fun hpower hold hends hturn hlen => ?_,
      fun u hu => ⟨exec_late_not_due hi hu, fun hperiod hdue => ?_⟩⟩
    · intro q
      obtain ⟨hentry, huncaptured, hcaptured, hfinished, hframe⟩ := State.deliverOld_spec (s := s) (i := i) (samples := samples) (old := old) (r := q) rfl
      refine ⟨_, exec_monitorEntry_old hi hpower hold hlen, fun k hk => ?_, ?_⟩
      · rw [hentry, if_neg fun h => hk h.1]
      · rw [hentry]
        by_cases hdest : old.dest = 1
        · rw [if_neg fun h => h.2 hdest]
          exact ⟨rfl, rfl, rfl, rfl, fun h => absurd hdest h, fun _ => rfl, huncaptured, hcaptured, hfinished, hframe⟩
        · rw [if_pos ⟨rfl, hdest⟩]
          exact ⟨rfl, rfl, rfl, rfl, fun _ => ⟨rfl, rfl⟩, fun h => absurd h hdest, huncaptured, hcaptured, hfinished, hframe⟩
    · obtain ⟨hframe, hentry⟩ := State.delivered_frame s i r ((s.bandEntry i).isOutside r)
      obtain ⟨hregister, hkept, -⟩ := MonEntry.deliver_spec e r ((s.bandEntry i).isOutside r) (e.records ((s.bandEntry i).isOutside r)) s.now
      refine ⟨_, exec_monitorEntry_delivers rfl hi hpower hold hends hturn hlen, fun k hk => ?_, ?_⟩
      · rw [hentry, if_neg hk]
      · rw [hentry, if_pos rfl]
        refine ⟨hregister, hkept, fun hdest => ?_, State.deliverResult_captured (s.entryDelivered i r) i r _, hframe⟩
        rw [State.deliverResult_uncaptured _ _ _ _ hdest]
        exact ⟨rfl, rfl⟩
    · refine ⟨_, exec_late_due hi hu hperiod hdue, ?_, fun k hk => ?_, ?_⟩
      · rw [State.lated_monEntry, if_pos rfl]
        rfl
      · rw [State.lated_monEntry, if_neg hk]
      · rw [State.ev_frame]
        rfl
  · intro fails sized
    have hfails : ∀ st d, exec (.monitorProgram m) s = .next (s.failCmd m st d) → fails st d := fun st d hexec =>
      ⟨_, hexec, h.failCmd st d rfl (h.no_result (by decide))⟩
    refine ⟨fun hxfer hsize => hfails _ _ (exec_monitorProgram_size h hcur hxfer hsize), fun hxfer => hfails _ _ (exec_monitorProgram_unread h hcur hxfer),
      fun qp hxfer hsize hqp hlive hroom => ⟨_, exec_monitorProgram_reads h hcur hxfer hsize hqp hlive hroom, rfl, rfl⟩,
      fun st d hxfer hbad => hfails _ _ (exec_monitorProgram_refused h hcur hxfer hbad), fun hxfer hgood => ?_⟩
    obtain ⟨hdone, hmonitor, hframe⟩ := State.programmed_completes h (s.monitor.program (monEntries c.data) s.now)
    have hentry := Monitor.program_entry s.monitor (monEntries c.data) s.now
    refine ⟨_, exec_monitorProgram_accepted h hcur hxfer hgood, hdone, fun k hk => ?_, fun k hk => ?_, ?_, ?_, ?_⟩
    · rw [State.monEntry, hmonitor, hentry, if_neg (by omega)]
      rfl
    · rw [State.monEntry, hmonitor, hentry, if_pos (by omega), Nat.add_sub_cancel_left]
    · rw [hmonitor]; rfl
    · rw [hmonitor]; rfl
    · exact hframe.trans (by rw [hmonitor]; rfl)

end Sys2Proof.Machine

namespace Sys2Proof.Machine

/- The theorems of this part are elaborated one after another: side by side they need more memory than the check has left beside the tests above. -/
set_option Elab.async false

/-! ### What each command keeps (R53, log 10)

A command's state is built of the state's operations, each with its own law of what it keeps. A row of one operation is a term of that law; a row that branches
is split along its branches, and each branch is taken apart operation by operation. -/

theorem next_keeps {s t u : State} (hu : Keeps s u) (ht : (.next u : Result) = .next t) : Keeps s t := by
  cases ht
  exact hu

theorem seqCommand_keeps {s t : State} {m op : Nat} {f : State → State} (hf : Keeps s (f s)) (ht : seqCommand m op s f = .next t) : Keeps s t :=
  command_keeps (f := fun u => onlyIf (!u.seqWaits m) u (f u)) (onlyIf_keeps _ (Keeps.refl s) hf) ht

theorem flagWord_wf (m : Memory) (kind index addr : Nat) (tag : Option StepTag) (h : m.wf = true) : (flagWord m kind index addr tag).wf = true := by
  unfold flagWord
  split
  · split <;> exact h
  · exact h

theorem execHostWrite_keeps {s t : State} {qp addr data} (h : execHostWrite qp addr data s = .next t) : Keeps s t := by
  refine next_keeps ?_ h
  repeat' with_reducible (first | exact Keeps.refl s | apply windowWrite_keeps | apply State.breakQp_keeps | apply State.toHost_keeps | split)

theorem execMailboxEntryWrite_keeps {s t : State} {qp addr data} (h : execMailboxEntryWrite qp addr data s = .next t) : Keeps s t := by
  refine next_keeps ?_ h
  repeat' with_reducible (first | exact Keeps.refl s | apply writeEntry_keeps | apply State.breakQp_keeps | apply State.toHost_keeps | split)

theorem execReadCountWrite_keeps {s t : State} {m value} (h : execReadCountWrite m value s = .next t) : Keeps s t :=
  need_keeps (takeReadCount_keeps (hsu := Keeps.refl s) ..) h

theorem execEventLogReadCountWrite_keeps {s t : State} {value} (h : execEventLogReadCountWrite value s = .next t) : Keeps s t :=
  next_keeps (takeEventCount_keeps (hsu := Keeps.refl s) ..) h

theorem execCaptureReadCountWrite_keeps {s t : State} {value} (h : execCaptureReadCountWrite value s = .next t) : Keeps s t :=
  next_keeps (takeCaptureCount_keeps (hsu := Keeps.refl s) ..) h

theorem execDoorbell_keeps {s t : State} {qp len} (h : execDoorbell qp len s = .next t) : Keeps s t := by
  refine next_keeps ?_ h
  repeat' with_reducible (first | exact Keeps.refl s | apply State.toHost_keeps | apply scan_keeps | simp only [Keeps.put_iff] | apply Keeps.ite)

theorem execRingScan_keeps {s t : State} (h : execRingScan s = .next t) : Keeps s t :=
  next_keeps (scan_keeps (hsu := Keeps.refl s) ..) h

theorem execMailboxConsume_keeps {s t : State} {m} (h : execMailboxConsume m s = .next t) : Keeps s t :=
  need_keeps (onlyIf_keeps _ (Keeps.refl s) (consume_keeps (hsu := Keeps.refl s) ..)) h

theorem execStatusWordUpdate_keeps {s t : State} {m} (h : execStatusWordUpdate m s = .next t) : Keeps s t :=
  need_keeps (onlyIf_keeps _ (Keeps.refl s) (State.update_keeps (hsu := Keeps.refl s) ..)) h

theorem execIdentify_keeps {s t : State} {m} (h : execIdentify m s = .next t) : Keeps s t :=
  command_keeps (identify_keeps (hsu := Keeps.refl s) ..) h

theorem execConfigRead_keeps {s t : State} {m} (h : execConfigRead m s = .next t) : Keeps s t := by
  refine updateCommand_keeps ?_ h
  dsimp only
  repeat' with_reducible (first | exact Keeps.refl s | apply State.failCmd_keeps | apply State.setTarget_keeps | apply State.deliver_keeps | split)

theorem execConfigStage_keeps {s t : State} {m} (h : execConfigStage m s = .next t) : Keeps s t := by
  refine updateCommand_keeps ?_ h
  repeat' with_reducible (first | exact Keeps.refl s | apply State.failCmd_keeps | apply State.setTarget_keeps | apply State.readBuffer_keeps | apply State.complete_keeps | apply State.okCmd_keeps | simp only [Keeps.put_iff] | split)

theorem execConfigCommit_keeps {s t : State} {m} (h : execConfigCommit m s = .next t) : Keeps s t := by
  refine updateCommand_keeps ?_ h
  repeat' with_reducible (first | exact Keeps.refl s | apply State.failCmd_keeps | apply State.switchCfg_keeps | split)

theorem execConfigRevert_keeps {s t : State} {m} (h : execConfigRevert m s = .next t) : Keeps s t := by
  refine updateCommand_keeps ?_ h
  repeat' with_reducible (first | exact Keeps.refl s | apply State.failCmd_keeps | apply State.switchCfg_keeps | split)

theorem execMotifLoad_keeps {s t : State} {m} (h : execMotifLoad m s = .next t) : Keeps s t := by
  refine command_keeps ?_ h
  repeat' with_reducible (first | exact Keeps.refl s | apply State.loadCommand_keeps | apply onlyIf_keeps)

theorem execMotifLoadReplace_keeps {s t : State} {m} (h : execMotifLoadReplace m s = .next t) : Keeps s t := by
  refine command_keeps ?_ h
  repeat' with_reducible (first | exact Keeps.refl s | apply State.loadCommand_keeps | apply onlyIf_keeps)

theorem execMotifSwitch_keeps {s t : State} {m} (h : execMotifSwitch m s = .next t) : Keeps s t := by
  refine command_keeps ?_ h
  repeat' with_reducible (first | exact Keeps.refl s | apply State.onResident_keeps | apply State.failCmd_keeps | apply State.switchMotif_keeps | apply State.setCmd_keeps | apply State.setTarget_keeps | apply State.sendAll_keeps | intro _ | simp only [Keeps.put_iff] | split)

theorem execMotifDrop_keeps {s t : State} {m} (h : execMotifDrop m s = .next t) : Keeps s t := by
  refine command_keeps ?_ h
  repeat' with_reducible (first | exact Keeps.refl s | apply State.failCmd_keeps | apply State.onResident_keeps | apply State.setTarget_keeps | apply State.dropMotif_keeps | apply State.okCmd_keeps | intro _ | apply Keeps.ite)

theorem execMotifQuery_keeps {s t : State} {m} (h : execMotifQuery m s = .next t) : Keeps s t := by
  refine command_keeps ?_ h
  repeat' with_reducible (first | exact Keeps.refl s | apply State.deliver_keeps | apply Keeps.ite)

theorem execSeqOpen_keeps {s t : State} {m} (h : execSeqOpen m s = .next t) : Keeps s t := by
  refine seqCommand_keeps ?_ h
  repeat' with_reducible (first | exact Keeps.refl s | apply State.onMotif_keeps | apply State.failCmd_keeps | apply State.addSeq_keeps | apply State.okCmd_keeps | split | intro _)

theorem execSeqAppend_keeps {s t : State} {m} (h : execSeqAppend m s = .next t) : Keeps s t := by
  refine seqCommand_keeps ?_ h
  dsimp only
  repeat' with_reducible (first | exact Keeps.refl s | apply State.onPages_keeps | apply State.readBuffer_keeps | apply State.failCmd_keeps | apply State.beginAppend_keeps | split | intro _)

theorem execSeqGenerate_keeps {s t : State} {m} (h : execSeqGenerate m s = .next t) : Keeps s t := by
  refine seqCommand_keeps ?_ h
  repeat' with_reducible (first | exact Keeps.refl s | apply State.onPages_keeps | apply State.failCmd_keeps | apply State.complete_keeps | apply State.beginGenerate_keeps | apply Keeps.ite | split | intro _)

theorem execCancel_keeps {s t : State} {m} (h : execCancel m s = .next t) : Keeps s t := by
  refine seqCommand_keeps ?_ h
  repeat' with_reducible (first | exact Keeps.refl s | apply State.onSeq_keeps | apply State.failCmd_keeps | apply State.complete_keeps | apply State.putSeq_keeps | apply State.endWork_keeps | dsimp only | split | intro _)

theorem execSeqClose_keeps {s t : State} {m} (h : execSeqClose m s = .next t) : Keeps s t := by
  refine seqCommand_keeps ?_ h
  repeat' with_reducible (first | exact Keeps.refl s | assumption | (apply Keeps.foldl; intro _ _ _) | apply State.onSeq_keeps | apply State.failCmd_keeps | apply State.putSeq_keeps | apply State.setCmd_keeps | apply State.cancelFetch_keeps | apply State.closeRecalled_keeps | apply State.finishClose_keeps | apply Keeps.ite | intro _)

theorem execPagesBind_keeps {s t : State} {m} (h : execPagesBind m s = .next t) : Keeps s t := by
  refine seqCommand_keeps ?_ h
  repeat' with_reducible (first | exact Keeps.refl s | apply State.onSeq_keeps | apply State.failCmd_keeps | apply State.setCmd_keeps | apply State.okCmd_keeps | simp only [Keeps.put_iff] | split | intro _)

theorem execCalFreeze_keeps {s t : State} {m} (h : execCalFreeze m s = .next t) : Keeps s t := by
  refine command_keeps ?_ h
  repeat' with_reducible (first | exact Keeps.refl s | apply State.okCmd_keeps | apply onlyIf_keeps | simp only [Keeps.put_iff])

theorem execCalThaw_keeps {s t : State} {m} (h : execCalThaw m s = .next t) : Keeps s t := by
  refine command_keeps ?_ h
  repeat' with_reducible (first | exact Keeps.refl s | apply State.okCmd_keeps | apply onlyIf_keeps | simp only [Keeps.put_iff])

theorem execCalCommit_keeps {s t : State} {m} (h : execCalCommit m s = .next t) : Keeps s t := by
  refine command_keeps ?_ h
  repeat' with_reducible (first | exact Keeps.refl s | assumption | (apply Keeps.foldl; intro _ _ _) | apply State.judgeHost_keeps | apply State.setCmd_keeps | apply State.setTarget_keeps | apply State.advanceHost_keeps | apply State.setProgress_keeps | apply State.okCmd_keeps | apply Keeps.ite)

theorem execHealthRead_keeps {s t : State} {m} (h : execHealthRead m s = .next t) : Keeps s t := by
  refine command_keeps ?_ h
  repeat' with_reducible (first | exact Keeps.refl s | apply State.deliver_keeps | apply State.failCmd_keeps | apply Keeps.ite | split)

theorem execMonitorProgram_keeps {s t : State} {m} (h : execMonitorProgram m s = .next t) : Keeps s t := by
  refine command_keeps ?_ h
  repeat' with_reducible (first | exact Keeps.refl s | apply State.failCmd_keeps | apply State.readBuffer_keeps | apply State.okCmd_keeps | simp only [Keeps.put_iff] | split)

theorem execTimeRead_keeps {s t : State} {m} (h : execTimeRead m s = .next t) : Keeps s t :=
  command_keeps (State.okCmd_keeps (hsu := Keeps.refl s) ..) h

theorem execTakeover_keeps {s t : State} {m} (h : execTakeover m s = .next t) : Keeps s t := by
  refine command_keeps ?_ h
  repeat' with_reducible (first | exact Keeps.refl s | apply State.complete_keeps | apply State.setTarget_keeps | apply State.failCmd_keeps | apply State.setCmd_keeps | apply State.beginTakeover_keeps | simp only [Keeps.put_iff] | apply Keeps.ite)

theorem execHandback_keeps {s t : State} {m} (h : execHandback m s = .next t) : Keeps s t := by
  refine command_keeps ?_ h
  repeat' with_reducible (first | exact Keeps.refl s | apply State.setTarget_keeps | apply State.complete_keeps | apply State.handbackArrays_keeps | apply State.setCmd_keeps | apply onlyIf_keeps | simp only [Keeps.put_iff] | split)

theorem execFwStage_keeps {s t : State} {m} (h : execFwStage m s = .next t) : Keeps s t := by
  refine updateCommand_keeps ?_ h
  repeat' with_reducible (first | exact Keeps.refl s | apply State.failCmd_keeps | apply State.setTarget_keeps | apply State.readBuffer_keeps | apply State.complete_keeps | apply State.evUpdate_keeps | apply State.okCmd_keeps | exact Keeps.putFw (Keeps.refl s) (Firmware.putSlot_floor _ _ _) (Firmware.putSlot_revoked _ _ _) | dsimp only | split)

theorem execFwActivate_keeps {s t : State} {m} (h : execFwActivate m s = .next t) : Keeps s t := by
  refine updateCommand_keeps ?_ h
  repeat' with_reducible (first | exact Keeps.refl s | apply State.failCmd_keeps | apply State.activate_keeps | apply Keeps.ite | split)

theorem execFwRevert_keeps {s t : State} {m} (h : execFwRevert m s = .next t) : Keeps s t := by
  refine updateCommand_keeps ?_ h
  repeat' with_reducible (first | exact Keeps.refl s | apply State.failCmd_keeps | apply State.activate_keeps | split)

theorem execOwnerLockSet_keeps {s t : State} {m} (h : execOwnerLockSet m s = .next t) : Keeps s t := by
  refine command_keeps ?_ h
  repeat' with_reducible (first | exact Keeps.refl s | apply State.failCmd_keeps | apply State.evUpdate_keeps | apply State.okCmd_keeps | apply onlyIf_keeps | exact Keeps.putFw (Keeps.refl s) rfl rfl | apply Keeps.ite)

theorem execOwnerLockClear_keeps {s t : State} {m} (h : execOwnerLockClear m s = .next t) : Keeps s t := by
  refine command_keeps ?_ h
  repeat' with_reducible (first | exact Keeps.refl s | apply State.okCmd_keeps | apply State.evUpdate_keeps | apply State.failCmd_keeps | apply onlyIf_keeps | exact Keeps.putFw (Keeps.refl s) rfl rfl | split)

theorem execAttest_keeps {s t : State} {m} (h : execAttest m s = .next t) : Keeps s t := by
  refine command_keeps ?_ h
  repeat' with_reducible (first | exact Keeps.refl s | apply State.deliver_keeps | apply Keeps.ite)

theorem execDoneRecordWrite_keeps {s t : State} {m} (h : execDoneRecordWrite m s = .next t) : Keeps s t :=
  need_keeps (State.finish_keeps (hsu := Keeps.refl s) ..) h

theorem execPrefillStepStart_keeps {s t : State} {motif seq} (h : execPrefillStepStart motif seq s = .next t) : Keeps s t := by
  refine need_keeps ?_ h
  repeat' with_reducible (first | exact Keeps.refl s | apply State.startStep_keeps | apply onlyIf_keeps | split)

theorem execGenerationStepStart_keeps {s t : State} {motif seq} (h : execGenerationStepStart motif seq s = .next t) : Keeps s t := by
  refine need_keeps ?_ h
  repeat' with_reducible (first | exact Keeps.refl s | apply State.markSlow_keeps | apply State.startStep_keeps | apply onlyIf_keeps | split)

theorem execCompanionStep_keeps {s t : State} {main seq logits} (h : execCompanionStep main seq logits s = .next t) : Keeps s t := by
  refine need_keeps ?_ h
  repeat' with_reducible (first | exact Keeps.refl s | apply State.farStep_keeps | apply State.endCompanion_keeps | apply State.startCompanion_keeps | split)

theorem execTree_keeps {s t : State} {tag nodes} (h : execTree tag nodes s = .next t) : Keeps s t := by
  refine next_keeps ?_ h
  repeat' with_reducible (first | exact Keeps.refl s | apply State.giveTree_keeps | apply onlyIf_keeps | split)

theorem execRotation_keeps {s t : State} {tag matrix row seeds values} (h : execRotation tag matrix row seeds values s = .next t) : Keeps s t := by
  refine next_keeps ?_ h
  repeat' with_reducible (first | exact Keeps.refl s | apply State.latchFormat_keeps | apply State.noteThrottle_keeps | apply State.workAt_keeps | apply State.setPrecT_keeps | simp only [Keeps.put_iff] | split)

theorem execVectorLatch_keeps {s t : State} {array v} (h : execVectorLatch array v s = .next t) : Keeps s t := by
  refine need_keeps ?_ h
  repeat' with_reducible (first | exact Keeps.refl s | apply State.toTambour_keeps | apply State.latchVector_keeps | apply State.noteThrottle_keeps | simp only [Keeps.put_iff] | split)

theorem execPicotCheckReport_keeps {s t : State} {array} (h : execPicotCheckReport array s = .next t) : Keeps s t := by
  refine need_keeps ?_ h
  repeat' with_reducible (first | exact Keeps.refl s | apply reportClean_keeps | apply reportSuspect_keeps | split)

theorem execInternalVector_keeps {s t : State} {phys bits} (h : execInternalVector phys bits s = .next t) : Keeps s t := by
  refine need_keeps ?_ h
  repeat' with_reducible (first | exact Keeps.refl s | apply State.count_keeps | apply State.setPhys_keeps | apply State.setArray_keeps | apply State.event_keeps | simp only [Keeps.put_iff] | split)

theorem execChainPartial_keeps {s t : State} {key position} (h : execChainPartial key position s = .next t) : Keeps s t := by
  refine next_keeps ?_ h
  dsimp only
  repeat' with_reducible (first | exact Keeps.refl s | apply State.auditSelect_keeps | apply State.setArray_keeps | apply State.putPart_keeps | apply State.auditCopy_keeps | split)

theorem execTambourTile_keeps {s t : State} {array key position v} (h : execTambourTile array key position v s = .next t) : Keeps s t := by
  refine need_keeps ?_ h
  repeat' with_reducible (first | exact Keeps.refl s | apply State.toTambour_keeps | apply State.serveJob_keeps | dsimp only | split)

theorem execChainEndPromote_keeps {s t : State} {key} (h : execChainEndPromote key s = .next t) : Keeps s t := by
  refine next_keeps ?_ h
  repeat' with_reducible (first | exact Keeps.refl s | apply State.workAt_keeps | apply State.setPrecT_keeps | simp only [Keeps.put_iff] | split)

theorem execMatrixOutput_keeps {s t : State} {key} (h : execMatrixOutput key s = .next t) : Keeps s t := by
  refine next_keeps ?_ h
  repeat' with_reducible (first | exact Keeps.refl s | apply State.setPrecT_keeps | simp only [Keeps.put_iff] | split)

theorem execPrecisionWindowEnd_keeps {s t : State} {motif layer} (h : execPrecisionWindowEnd motif layer s = .next t) : Keeps s t := by
  refine need_keeps ?_ h
  repeat' with_reducible (first | exact Keeps.refl s | apply fallbackEvent_keeps | apply State.setPrec_keeps | apply State.ev_keeps | dsimp only | split)

theorem execAct_keeps {s t : State} {tag firstRow rows} (h : execAct tag firstRow rows s = .next t) : Keeps s t := by
  refine next_keeps ?_ h
  repeat' with_reducible (first | exact Keeps.refl s | apply State.countQuant_keeps | apply State.leaveLayer_keeps | apply State.offerRows_keeps | apply onlyIf_keeps | split)

theorem execQuery_keeps {s t : State} {source tag last rows} (h : execQuery source tag last rows s = .next t) : Keeps s t := by
  refine next_keeps ?_ h
  repeat' with_reducible (first | exact Keeps.refl s | assumption | (apply Keeps.foldl; intro _ _ _) | apply State.taken_keeps | apply State.countQuant_keeps | apply State.setStep_keeps | apply State.sendData_keeps | apply State.keepRows_keeps | apply Keeps.ite | split)

theorem execSlot_keeps {s t : State} {source tag slots} (h : execSlot source tag slots s = .next t) : Keeps s t := by
  refine next_keeps ?_ h
  repeat' with_reducible (first | exact Keeps.refl s | apply State.taken_keeps | apply State.countQuant_keeps | apply State.sendSlots_keeps | apply State.takeSlots_keeps | simp only [Keeps.put_iff] | split)

theorem execWorkUnit_keeps {s t : State} {pipe tag group run} (h : execWorkUnit pipe tag group run s = .next t) : Keeps s t := by
  refine need_keeps ?_ h
  repeat' with_reducible (first | exact Keeps.refl s | apply State.startUnit_keeps | apply onlyIf_keeps | split)

theorem execWorkUnitEnd_keeps {s t : State} {pipe} (h : execWorkUnitEnd pipe s = .next t) : Keeps s t := by
  refine need_keeps ?_ h
  repeat' with_reducible (first | exact Keeps.refl s | simp only [Keeps.put_iff] | split)

theorem execModuleMerge_keeps {s t : State} {tag group} (h : execModuleMerge tag group s = .next t) : Keeps s t := by
  refine next_keeps ?_ h
  repeat' with_reducible (first | exact Keeps.refl s | assumption | (apply Keeps.foldl; intro _ _ _) | apply State.countClamps_keeps | apply State.sendData_keeps | apply State.mergeRows_keeps | simp only [Keeps.put_iff] | split)

theorem execPartialRows_keeps {s t : State} {source tag recs} (h : execPartialRows source tag recs s = .next t) : Keeps s t := by
  refine next_keeps ?_ h
  repeat' with_reducible (first | exact Keeps.refl s | apply State.arrive_keeps | apply State.mergeRows_keeps | simp only [Keeps.put_iff] | split)

theorem execMerged_keeps {s t : State} {tag recs} (h : execMerged tag recs s = .next t) : Keeps s t := by
  refine next_keeps ?_ h
  repeat' with_reducible (first | exact Keeps.refl s | apply State.arrive_keeps | apply State.takeMerged_keeps | apply Keeps.ite | split)

theorem execCheck_keeps {s t : State} {tag c} (h : execCheck tag c s = .next t) : Keeps s t := by
  refine next_keeps ?_ h
  repeat' with_reducible (first | exact Keeps.refl s | apply State.arrive_keeps | apply State.setStep_keeps | dsimp only | split)

theorem execCheckSend_keeps {s t : State} {tag} (h : execCheckSend tag s = .next t) : Keeps s t := by
  refine next_keeps ?_ h
  repeat' with_reducible (first | exact Keeps.refl s | apply State.setStep_keeps | apply State.sendData_keeps | dsimp only | split)

theorem execCommitDecision_keeps {s t : State} {tag} (h : execCommitDecision tag s = .next t) : Keeps s t := by
  refine next_keeps ?_ h
  dsimp only
  repeat' with_reducible (first | exact Keeps.refl s | apply State.treeOut_keeps | apply State.sendCommit_keeps | apply State.applyCommit_keeps | split)

theorem execCommit_keeps {s t : State} {tag relay c} (h : execCommit tag relay c s = .next t) : Keeps s t := by
  refine next_keeps ?_ h
  repeat' with_reducible (first | exact Keeps.refl s | apply State.relayCommit_keeps | apply State.applyCommit_keeps | split)

theorem execCompact_keeps {s t : State} {tag slot} (h : execCompact tag slot s = .next t) : Keeps s t := by
  refine next_keeps ?_ h
  repeat' with_reducible (first | exact Keeps.refl s | apply State.writeCopy_keeps | simp only [Keeps.put_iff] | split)

theorem execRecallRaise_keeps {s t : State} {tag cause layer array} (h : execRecallRaise tag cause layer array s = .next t) : Keeps s t := by
  refine next_keeps ?_ h
  repeat' with_reducible (first | exact Keeps.refl s | apply State.setStep_keeps | apply State.raiseRecall_keeps | split)

theorem execRecall_keeps {s t : State} {tag r} (h : execRecall tag r s = .next t) : Keeps s t := by
  refine next_keeps ?_ h
  repeat' with_reducible (first | exact Keeps.refl s | apply State.shortRecall_keeps | apply State.withStep_keeps | apply State.setStep_keeps | apply State.takeRecall_keeps | apply State.learnLoss_keeps | apply State.resend_keeps | dsimp only | split)

theorem execArm_keeps {s t : State} {port knot threshold guard count serves} (h : execArm port knot threshold guard count serves s = .next t) : Keeps s t := by
  refine need_keeps ?_ h
  repeat' with_reducible (first | exact Keeps.refl s | apply State.setKnot_keeps | apply State.reply_keeps | apply Keeps.ite)

theorem execAdd_keeps {s t : State} {port knot delta guard} (h : execAdd port knot delta guard s = .next t) : Keeps s t := by
  refine need_keeps ?_ h
  repeat' with_reducible (first | exact Keeps.refl s | apply State.addKnot_keeps | apply State.reply_keeps)

theorem execFetchAdd_keeps {s t : State} {port knot delta guard} (h : execFetchAdd port knot delta guard s = .next t) : Keeps s t := by
  refine need_keeps ?_ h
  repeat' with_reducible (first | exact Keeps.refl s | apply State.setKnot_keeps | apply State.reply_keeps)

theorem execRearm_keeps {s t : State} {port knot threshold guard count} (h : execRearm port knot threshold guard count s = .next t) : Keeps s t := by
  refine need_keeps ?_ h
  repeat' with_reducible (first | exact Keeps.refl s | apply State.setKnot_keeps | apply State.reply_keeps | apply Keeps.ite)

theorem execFree_keeps {s t : State} {port knot} (h : execFree port knot s = .next t) : Keeps s t := by
  refine need_keeps ?_ h
  repeat' with_reducible (first | exact Keeps.refl s | apply State.putKnot_keeps | apply State.reply_keeps | apply Keeps.ite)

theorem execKnotAdd_keeps {s t : State} {bride knot delta guard} (h : execKnotAdd bride knot delta guard s = .next t) : Keeps s t :=
  need_keeps (State.addKnot_keeps (hsu := Keeps.refl s) ..) h

theorem execHeartbeatSend_keeps {s t : State} (h : execHeartbeatSend s = .next t) : Keeps s t := by
  refine next_keeps ?_ h
  repeat' with_reducible (first | exact Keeps.refl s | apply State.sendAll_keeps | apply State.releaseServed_keeps | apply State.syncWaiting_keeps | apply onlyIf_keeps)

theorem execHeartbeat_keeps {s t : State} {peer time} (h : execHeartbeat peer time s = .next t) : Keeps s t := by
  refine next_keeps ?_ h
  repeat' with_reducible (first | exact Keeps.refl s | apply State.announce_keeps | apply State.sendMirrors_keeps | apply onlyIf_keeps | simp only [Keeps.put_iff] | apply Keeps.ite)

theorem execHeartbeatMissing_keeps {s t : State} {peer} (h : execHeartbeatMissing peer s = .next t) : Keeps s t := by
  refine next_keeps ?_ h
  repeat' with_reducible (first | exact Keeps.refl s | apply State.declareMissing_keeps | split)

theorem execBadType_keeps {s t : State} {bride type source} (h : execBadType bride type source s = .next t) : Keeps s t :=
  need_keeps (onlyIf_keeps _ (Keeps.refl s) (State.ev_keeps (hsu := Keeps.refl s) ..)) h

theorem execMessageForward_keeps {s t : State} {bride msg} (h : execMessageForward bride msg s = .next t) : Keeps s t :=
  need_keeps (onlyIf_keeps _ (Keeps.refl s) (State.send_keeps (hsu := Keeps.refl s) ..)) h

theorem execLoadOrder_keeps {s t : State} {source o} (h : execLoadOrder source o s = .next t) : Keeps s t := by
  refine need_keeps ?_ h
  repeat' with_reducible (first | exact Keeps.refl s | apply State.tellAgain_keeps | apply State.releaseLoad_keeps | apply State.takeOrder_keeps | dsimp only | split)

theorem execShardFetchEnd_keeps {s t : State} {motif} (h : execShardFetchEnd motif s = .next t) : Keeps s t := by
  refine need_keeps ?_ h
  repeat' with_reducible (first | exact Keeps.refl s | apply State.loadFailed_keeps | apply State.acceptShard_keeps | dsimp only | split)

theorem execProgrammingRoundEnd_keeps {s t : State} {motif failed multi} (h : execProgrammingRoundEnd motif failed multi s = .next t) : Keeps s t := by
  refine need_keeps ?_ h
  repeat' with_reducible (first | exact Keeps.refl s | assumption | (apply Keeps.foldl; intro _ _ _) | apply State.failArray_keeps | apply State.verifyArray_keeps | apply State.programArray_keeps | apply State.countTiles_keeps | split)

theorem execLoadReport_keeps {s t : State} {r} (h : execLoadReport r s = .next t) : Keeps s t := by
  refine next_keeps ?_ h
  repeat' with_reducible (first | exact Keeps.refl s | apply State.undoLoad_keeps | apply State.dropPending_keeps | apply State.releaseLoad_keeps | apply State.loadFailed_keeps | apply State.noteMirrored_keeps | apply State.takeProgress_keeps | split)

theorem execLoadComplete_keeps {s t : State} {motif} (h : execLoadComplete motif s = .next t) : Keeps s t := by
  refine need_keeps ?_ h
  repeat' with_reducible (first | exact Keeps.refl s | apply State.setMotif_keeps | apply State.noteDone_keeps | apply State.dropLoad_keeps | apply State.freshLayers_keeps | apply State.okCmd_keeps | apply onlyIf_keeps | split)

theorem execShardCopy_keeps {s t : State} {source motif gen offset data} (h : execShardCopy source motif gen offset data s = .next t) : Keeps s t := by
  refine need_keeps ?_ h
  dsimp only
  repeat' with_reducible (first | exact Keeps.refl s | apply State.learnTables_keeps | apply State.takePiece_keeps | split)

theorem execPageCopy_keeps {s t : State} {source seq motif layer localIndex home data checksum} (h : execPageCopy source seq motif layer localIndex home data checksum s = .next t) : Keeps s t := by
  refine need_keeps ?_ h
  repeat' with_reducible (first | exact Keeps.refl s | apply State.plannedServe_keeps | apply State.takePage_keeps | simp only [Keeps.put_iff] | apply Keeps.ite)

theorem execSwitch_keeps {s t : State} {motif gen} (h : execSwitch motif gen s = .next t) : Keeps s t :=
  need_keeps (onlyIf_keeps _ (Keeps.refl s) (State.switchMotif_keeps (hsu := Keeps.refl s) ..)) h

theorem execOldCopyRelease_keeps {s t : State} {motif} (h : execOldCopyRelease motif s = .next t) : Keeps s t := by
  refine need_keeps ?_ h
  repeat' with_reducible (first | exact Keeps.refl s | apply State.switchMotif_keeps | apply State.releaseOld_keeps | apply State.okCmd_keeps | simp only [Keeps.put_iff] | split)

theorem execHeadSync_keeps {s t : State} {h} (h : execHeadSync h s = .next t) : Keeps s t := by
  refine need_keeps ?_ h
  repeat' with_reducible (first | exact Keeps.refl s | apply State.setBox_keeps | apply State.unsync_keeps | apply State.mirrorBegin_keeps | apply State.mirrorDone_keeps | simp only [Keeps.put_iff] | split)

theorem execRole_keeps {s t : State} {r} (h : execRole r s = .next t) : Keeps s t := by
  refine next_keeps ?_ h
  repeat' with_reducible (first | exact Keeps.refl s | apply State.returnHome_keeps | apply State.vacate_keeps | apply State.plannedServe_keeps | apply State.giveRolesBack_keeps | apply State.learnLost_keeps | apply State.moveRole_keeps | apply State.noteSpare_keeps | apply State.feedTakeover_keeps | apply State.sendFrames_keeps | apply State.endLost_keeps | apply Keeps.ite)

theorem execUnplannedTakeover_keeps {s t : State} {peer} (h : execUnplannedTakeover peer s = .next t) : Keeps s t := by
  refine next_keeps ?_ h
  repeat' with_reducible (first | exact Keeps.refl s | apply State.serveFor_keeps | apply State.recallLost_keeps | apply State.continueCommands_keeps | apply onlyIf_keeps | apply Keeps.ite)

theorem execMirrorRestore_keeps {s t : State} {motif source} (h : execMirrorRestore motif source s = .next t) : Keeps s t := by
  refine need_keeps ?_ h
  repeat' with_reducible (first | exact Keeps.refl s | apply State.setMotif_keeps | apply onlyIf_keeps | dsimp only | split)

theorem execCalServiceWindowEnd_keeps {s t : State} {phys} (h : execCalServiceWindowEnd phys s = .next t) : Keeps s t :=
  need_keeps (onlyIf_keeps _ (Keeps.refl s) (State.endService_keeps (hsu := Keeps.refl s) ..)) h

theorem execWindowTopUp_keeps {s t : State} {phys} (h : execWindowTopUp phys s = .next t) : Keeps s t :=
  need_keeps (onlyIf_keeps _ (Keeps.refl s) (State.setPhys_keeps (hsu := Keeps.refl s) ..)) h

theorem execShadowCommit_keeps {s t : State} {phys} (h : execShadowCommit phys s = .next t) : Keeps s t :=
  need_keeps (onlyIf_keeps _ (Keeps.refl s) (State.commitShadow_keeps (hsu := Keeps.refl s) ..)) h

theorem execWarmupWindowEnd_keeps {s t : State} {phys} (h : execWarmupWindowEnd phys s = .next t) : Keeps s t := by
  refine need_keeps ?_ h
  repeat' with_reducible (first | exact Keeps.refl s | apply State.setPhys_keeps | apply State.converged_keeps | apply State.noConverge_keeps | apply Keeps.ite)

theorem execConfirmWindowEnd_keeps {s t : State} {phys} (h : execConfirmWindowEnd phys s = .next t) : Keeps s t := by
  refine need_keeps ?_ h
  repeat' with_reducible (first | exact Keeps.refl s | apply State.setPhys_keeps | apply State.converged_keeps | apply Keeps.ite)

theorem execFreezeEnd_keeps {s t : State} (h : execFreezeEnd s = .next t) : Keeps s t := by
  refine next_keeps ?_ h
  repeat' with_reducible (first | exact Keeps.refl s | apply State.ev_keeps | apply onlyIf_keeps | simp only [Keeps.put_iff] | split)

theorem execRefresh_keeps {s t : State} {array readings margin} (h : execRefresh array readings margin s = .next t) : Keeps s t := by
  refine need_keeps ?_ h
  repeat' with_reducible (first | exact Keeps.refl s | apply State.takeOut_keeps | apply State.refreshArray_keeps | apply Keeps.ite | split)

theorem execStandaloneMarginRun_keeps {s t : State} {array margin} (h : execStandaloneMarginRun array margin s = .next t) : Keeps s t := by
  refine need_keeps ?_ h
  repeat' with_reducible (first | exact Keeps.refl s | apply State.takeOut_keeps | apply State.marginRun_keeps | apply State.takeHost_keeps | apply State.giveBack_keeps | apply Keeps.ite | split)

theorem execMarginWindow_keeps {s t : State} {island} (h : execMarginWindow island s = .next t) : Keeps s t := by
  refine need_keeps ?_ h
  repeat' with_reducible (first | exact Keeps.refl s | apply State.setIsland_keeps | apply State.handOver_keeps | simp only [Keeps.put_iff] | apply Keeps.ite)

theorem execArrayRetire_keeps {s t : State} {array reason} (h : execArrayRetire array reason s = .next t) : Keeps s t := by
  refine need_keeps ?_ h
  repeat' with_reducible (first | exact Keeps.refl s | apply State.drain_keeps | apply State.retireArray_keeps | apply Keeps.ite)

theorem execSpareProgrammed_keeps {s t : State} {array} (h : execSpareProgrammed array s = .next t) : Keeps s t := by
  refine need_keeps ?_ h
  dsimp only
  repeat' with_reducible (first | exact Keeps.refl s | apply State.takeSpare_keeps | apply State.countTiles_keeps | split)

theorem execIslandRetire_keeps {s t : State} {island reason} (h : execIslandRetire island reason s = .next t) : Keeps s t := by
  refine need_keeps ?_ h
  repeat' with_reducible (first | exact Keeps.refl s | apply State.setIsland_keeps | apply State.handOver_keeps | apply State.ev_keeps | apply Keeps.ite)

theorem execDegraded_keeps {s t : State} {kind} (h : execDegraded kind s = .next t) : Keeps s t := by
  refine next_keeps ?_ h
  repeat' with_reducible (first | exact Keeps.refl s | apply State.ev_keeps | apply State.beginTakeover_keeps | simp only [Keeps.put_iff] | apply Keeps.ite)

theorem execArrayAudit_keeps {s t : State} {key} (h : execArrayAudit key s = .next t) : Keeps s t := by
  refine next_keeps ?_ h
  repeat' with_reducible (first | exact Keeps.refl s | apply State.dropAudit_keeps | apply State.useTambour_keeps | apply State.count_keeps | apply State.auditJudge_keeps | split)

theorem execAuditDropped_keeps {s t : State} {key} (h : execAuditDropped key s = .next t) : Keeps s t := by
  refine next_keeps ?_ h
  repeat' with_reducible (first | exact Keeps.refl s | apply State.dropAudit_keeps | apply State.count_keeps | apply onlyIf_keeps | split)

theorem execDuplicateAudit_keeps {s t : State} {tag island r0 r1 r2} (h : execDuplicateAudit tag island r0 r1 r2 s = .next t) : Keeps s t := by
  refine need_keeps ?_ h
  repeat' with_reducible (first | exact Keeps.refl s | apply State.count_keeps | apply State.dupFault_keeps | simp only [Keeps.put_iff] | split)

theorem execUncorrectable_keeps {s t : State} {kind index addr word reader tag} (h : execUncorrectable kind index addr word reader tag s = .next t) : Keeps s t := by
  refine need_keeps ?_ h
  repeat' with_reducible (first | exact Keeps.refl s | apply State.count_keeps | apply State.evWord_keeps | apply State.setStep_keeps | apply State.raiseRecall_keeps | exact Keeps.putMem (Keeps.refl s) (memWrite_wf _ _ _) | exact Keeps.putMem (Keeps.refl s) (flagWord_wf _ _ _ _ _) | split)

theorem execRebuilt_keeps {s t : State} {stack addr sourceRow data motif array} (h : execRebuilt stack addr sourceRow data motif array s = .next t) : Keeps s t := by
  refine need_keeps ?_ h
  repeat' with_reducible (first | exact Keeps.refl s | apply State.takeOut_keeps | apply State.trySource_keeps | apply State.giveBack_keeps | apply Keeps.ite | split)

theorem execFlit_keeps {s t : State} {bride data corrected uncorrectable} (h : execFlit bride data corrected uncorrectable s = .next t) : Keeps s t := by
  refine need_keeps ?_ h
  repeat' with_reducible (first | exact Keeps.refl s | apply State.setBride_keeps | apply State.idleOut_keeps | apply State.pump_keeps | apply State.hears_keeps | apply State.nakOut_keeps | apply onlyIf_keeps | apply Keeps.ite)

theorem execNak_keeps {s t : State} {bride mask marker expected} (h : execNak bride mask marker expected s = .next t) : Keeps s t := by
  refine need_keeps ?_ h
  repeat' with_reducible (first | exact Keeps.refl s | apply State.replayBride_keeps | apply State.brideTo_keeps | apply onlyIf_keeps | apply Keeps.ite)

theorem execBrideDown_keeps {s t : State} {bride} (h : execBrideDown bride s = .next t) : Keeps s t :=
  need_keeps (onlyIf_keeps _ (Keeps.refl s) (State.brideTo_keeps (hsu := Keeps.refl s) ..)) h

theorem execLaneOut_keeps {s t : State} {bride lane} (h : execLaneOut bride lane s = .next t) : Keeps s t :=
  need_keeps (onlyIf_keeps _ (Keeps.refl s) (State.dropLane_keeps (hsu := Keeps.refl s) ..)) h

theorem execLossOfLock_keeps {s t : State} {bride} (h : execLossOfLock bride s = .next t) : Keeps s t :=
  need_keeps (onlyIf_keeps _ (Keeps.refl s) (State.brideTo_keeps (hsu := Keeps.refl s) ..)) h

theorem execRouteSwitch_keeps {s t : State} {bride} (h : execRouteSwitch bride s = .next t) : Keeps s t := by
  refine need_keeps ?_ h
  repeat' with_reducible (first | exact Keeps.refl s | apply State.setBride_keeps | apply State.reroute_keeps | apply State.sendNotice_keeps | apply State.resendBride_keeps | apply onlyIf_keeps | split)

theorem execLinkNotice_keeps {s t : State} {n} (h : execLinkNotice n s = .next t) : Keeps s t := by
  refine next_keeps ?_ h
  repeat' with_reducible (first | exact Keeps.refl s | apply State.hears_keeps | apply State.reroute_keeps | apply State.resendBride_keeps | apply State.setBride_keeps | apply onlyIf_keeps | simp only [Keeps.put_iff] | apply Keeps.ite)

theorem execLinkNoticeTimeout_keeps {s t : State} {bride} (h : execLinkNoticeTimeout bride s = .next t) : Keeps s t := by
  refine need_keeps ?_ h
  repeat' with_reducible (first | exact Keeps.refl s | assumption | (apply Keeps.foldl; intro _ _ _) | apply State.setBride_keeps | apply State.declareMissing_keeps | apply State.recallDiscarded_keeps | apply onlyIf_keeps | apply Keeps.ite)

theorem execGroupLinks_keeps {s t : State} {group topoVersion joined} (h : execGroupLinks group topoVersion joined s = .next t) : Keeps s t := by
  refine next_keeps ?_ h
  repeat' with_reducible (first | exact Keeps.refl s | apply State.hears_keeps | apply State.reroute_keeps | apply State.sendAll_keeps | apply State.noteFarLoss_keeps | apply onlyIf_keeps | simp only [Keeps.put_iff] | apply Keeps.ite)

theorem execGroupLinksSend_keeps {s t : State} (h : execGroupLinksSend s = .next t) : Keeps s t := by
  refine next_keeps ?_ h
  repeat' with_reducible (first | exact Keeps.refl s | assumption | (apply Keeps.foldl; intro _ _ _) | apply State.send_keeps | apply onlyIf_keeps | split)

theorem execTopoReady_keeps {s t : State} {peer topoVersion} (h : execTopoReady peer topoVersion s = .next t) : Keeps s t := by
  refine next_keeps ?_ h
  repeat' with_reducible (first | exact Keeps.refl s | apply State.hears_keeps | apply onlyIf_keeps | simp only [Keeps.put_iff])

theorem execTraining_keeps {s t : State} {bride rec1 rec2 rtt lanes} (h : execTraining bride rec1 rec2 rtt lanes s = .next t) : Keeps s t := by
  refine need_keeps ?_ h
  repeat' with_reducible (first | exact Keeps.refl s | apply State.trainWith_keeps | apply onlyIf_keeps | split)

theorem execTrainingRetry_keeps {s t : State} {bride locked} (h : execTrainingRetry bride locked s = .next t) : Keeps s t := by
  refine need_keeps ?_ h
  repeat' with_reducible (first | exact Keeps.refl s | apply State.setBride_keeps | apply State.brideTo_keeps | apply onlyIf_keeps)

theorem execBrideClassing_keeps {s t : State} {bride} (h : execBrideClassing bride s = .next t) : Keeps s t :=
  need_keeps (State.classify_keeps (hsu := Keeps.refl s) ..) h

theorem execHold_keeps {s t : State} {bride} (h : execHold bride s = .next t) : Keeps s t := by
  refine need_keeps ?_ h
  repeat' with_reducible (first | exact Keeps.refl s | apply State.setBride_keeps | apply State.ev_keeps | apply onlyIf_keeps)

theorem execReshapeDrainEnd_keeps {s t : State} {bride} (h : execReshapeDrainEnd bride s = .next t) : Keeps s t :=
  need_keeps (onlyIf_keeps _ (Keeps.refl s) (State.brideTo_keeps (hsu := Keeps.refl s) ..)) h

theorem execLightSupplyChange_keeps {s t : State} {input present low} (h : execLightSupplyChange input present low s = .next t) : Keeps s t := by
  refine need_keeps ?_ h
  repeat' with_reducible (first | exact Keeps.refl s | assumption | (apply Keeps.foldl; intro _ _ _) | apply State.ev_keeps | apply State.dimBride_keeps | apply onlyIf_keeps | simp only [Keeps.put_iff] | apply Keeps.ite)

theorem execLightSupplyGood_keeps {s t : State} {input} (h : execLightSupplyGood input s = .next t) : Keeps s t := by
  refine need_keeps ?_ h
  repeat' with_reducible (first | exact Keeps.refl s | assumption | (apply Keeps.foldl; intro _ _ _) | apply State.brideTo_keeps | apply onlyIf_keeps | apply Keeps.ite)

theorem execTimingFlitSend_keeps {s t : State} {bride} (h : execTimingFlitSend bride s = .next t) : Keeps s t :=
  need_keeps (onlyIf_keeps _ (Keeps.refl s) (State.flitOut_keeps (hsu := Keeps.refl s) ..)) h

theorem execTimingFlit_keeps {s t : State} {bride f rx} (h : execTimingFlit bride f rx s = .next t) : Keeps s t := by
  refine need_keeps ?_ h
  repeat' with_reducible (first | exact Keeps.refl s | apply State.setBride_keeps | apply State.pump_keeps | apply State.takeTiming_keeps | apply onlyIf_keeps | apply Keeps.ite)

theorem execPhaseCorrection_keeps {s t : State} (h : execPhaseCorrection s = .next t) : Keeps s t := by
  refine next_keeps ?_ h
  repeat' with_reducible (first | exact Keeps.refl s | apply State.sendOffset_keeps | apply State.pickSource_keeps | apply onlyIf_keeps | simp only [Keeps.put_iff])

theorem execTimeStep_keeps {s t : State} {reference} (h : execTimeStep reference s = .next t) : Keeps s t := by
  refine next_keeps ?_ h
  repeat' with_reducible (first | exact Keeps.refl s | apply State.moved_keeps | apply State.ev_keeps | apply onlyIf_keeps | simp only [Keeps.put_iff])

theorem execSlew_keeps {s t : State} (h : execSlew s = .next t) : Keeps s t := by
  refine next_keeps ?_ h
  repeat' with_reducible (first | exact Keeps.refl s | apply State.ev_keeps | apply onlyIf_keeps | simp only [Keeps.put_iff] | apply Keeps.ite)

theorem execLockStateChange_keeps {s t : State} (h : execLockStateChange s = .next t) : Keeps s t := by
  refine next_keeps ?_ h
  repeat' with_reducible (first | exact Keeps.refl s | apply State.elect_keeps | apply State.pickSource_keeps | apply State.relock_keeps | apply State.drivePins_keeps | apply onlyIf_keeps)

theorem execTimeElectSend_keeps {s t : State} (h : execTimeElectSend s = .next t) : Keeps s t := by
  refine next_keeps ?_ h
  repeat' with_reducible (first | exact Keeps.refl s | assumption | (apply Keeps.foldl; intro _ _ _) | apply State.elect_keeps | apply State.sendAll_keeps | apply State.send_keeps | apply onlyIf_keeps)

theorem execTimeElect_keeps {s t : State} {source scope c} (h : execTimeElect source scope c s = .next t) : Keeps s t := by
  refine next_keeps ?_ h
  repeat' with_reducible (first | exact Keeps.refl s | apply State.hears_keeps | apply State.elect_keeps | apply State.sendAll_keeps | apply onlyIf_keeps | simp only [Keeps.put_iff] | apply Keeps.ite)

theorem execCandidateExpiry_keeps {s t : State} {scope id} (h : execCandidateExpiry scope id s = .next t) : Keeps s t := by
  refine next_keeps ?_ h
  repeat' with_reducible (first | exact Keeps.refl s | apply State.elect_keeps | apply onlyIf_keeps | simp only [Keeps.put_iff] | apply Keeps.ite)

theorem execTimeOffset_keeps {s t : State} {source state stratum gateLink master offset delay} (h : execTimeOffset source state stratum gateLink master offset delay s = .next t) : Keeps s t := by
  refine next_keeps ?_ h
  repeat' with_reducible (first | exact Keeps.refl s | apply State.hears_keeps | apply onlyIf_keeps | simp only [Keeps.put_iff])

theorem execGateLinkChange_keeps {s t : State} (h : execGateLinkChange s = .next t) : Keeps s t := by
  refine next_keeps ?_ h
  repeat' with_reducible (first | exact Keeps.refl s | apply onlyIf_keeps | simp only [Keeps.put_iff])

theorem execPpsInEdge_keeps {s t : State} (h : execPpsInEdge s = .next t) : Keeps s t := by
  refine next_keeps ?_ h
  repeat' with_reducible (first | exact Keeps.refl s | apply onlyIf_keeps | simp only [Keeps.put_iff] | apply Keeps.ite)

theorem execReferenceValidity_keeps {s t : State} {input intervals hz} (h : execReferenceValidity input intervals hz s = .next t) : Keeps s t := by
  refine next_keeps ?_ h
  repeat' with_reducible (first | exact Keeps.refl s | apply State.elect_keeps | apply onlyIf_keeps | simp only [Keeps.put_iff] | apply Keeps.ite)

theorem execPtpAnnounceSend_keeps {s t : State} (h : execPtpAnnounceSend s = .next t) : Keeps s t := by
  refine next_keeps ?_ h
  repeat' with_reducible (first | exact Keeps.refl s | assumption | (apply Keeps.foldl; intro _ _ _) | apply State.toHost_keeps | apply onlyIf_keeps)

theorem execPtpSyncSend_keeps {s t : State} (h : execPtpSyncSend s = .next t) : Keeps s t := by
  refine next_keeps ?_ h
  repeat' with_reducible (first | exact Keeps.refl s | assumption | (apply Keeps.foldl; intro _ _ _) | apply State.toHost_keeps | apply onlyIf_keeps | simp only [Keeps.put_iff])

theorem execDelayReq_keeps {s t : State} {clock sequence} (h : execDelayReq clock sequence s = .next t) : Keeps s t :=
  next_keeps (onlyIf_keeps _ (Keeps.refl s) (State.toHost_keeps (hsu := Keeps.refl s) ..)) h

theorem execAnnounce_keeps {s t : State} {clock} (h : execAnnounce clock s = .next t) : Keeps s t := by
  refine next_keeps ?_ h
  repeat' with_reducible (first | exact Keeps.refl s)

theorem execReq_keeps {s t : State} {transport priv priority mtu} (h : execReq transport priv priority mtu s = .next t) : Keeps s t := by
  refine next_keeps ?_ h
  repeat' with_reducible (first | exact Keeps.refl s | apply State.toHost_keeps | apply State.draw_keeps | simp only [Keeps.put_iff] | apply Keeps.ite)

theorem execRdmaWrite_keeps {s t : State} {qp rkey addr data} (h : execRdmaWrite qp rkey addr data s = .next t) : Keeps s t := by
  refine next_keeps ?_ h
  repeat' with_reducible (first | exact Keeps.refl s | apply windowWrite_keeps | apply State.toHost_keeps | apply State.breakQp_keeps | split)

theorem execRdmaRead_keeps {s t : State} {qp rkey addr len} (h : execRdmaRead qp rkey addr len s = .next t) : Keeps s t := by
  refine next_keeps ?_ h
  repeat' with_reducible (first | exact Keeps.refl s | assumption | (apply Keeps.foldl; intro _ _ _) | apply State.toHost_keeps | apply State.ev_keeps | apply State.breakQp_keeps | split)

theorem execUnsupportedOperation_keeps {s t : State} {qp} (h : execUnsupportedOperation qp s = .next t) : Keeps s t := by
  refine next_keeps ?_ h
  repeat' with_reducible (first | exact Keeps.refl s | apply State.breakQp_keeps | apply State.toHost_keeps | apply Keeps.ite)

theorem execAckTimeout_keeps {s t : State} {qp} (h : execAckTimeout qp s = .next t) : Keeps s t :=
  next_keeps (State.setQp_keeps (hsu := Keeps.refl s) ..) h

theorem execFrameDrop_keeps {s t : State} {reason} (h : execFrameDrop reason s = .next t) : Keeps s t := by
  refine next_keeps ?_ h
  repeat' with_reducible (first | exact Keeps.refl s | simp only [Keeps.put_iff] | apply Keeps.ite)

theorem execArp_keeps {s t : State} {kind addr} (h : execArp kind addr s = .next t) : Keeps s t :=
  next_keeps (onlyIf_keeps _ (Keeps.refl s) (State.toHost_keeps (hsu := Keeps.refl s) ..)) h

theorem execPause_keeps {s t : State} {priority quanta} (h : execPause priority quanta s = .next t) : Keeps s t := by
  refine next_keeps ?_ h
  repeat' with_reducible (first | exact Keeps.refl s | apply onlyIf_keeps | simp only [Keeps.put_iff])

theorem execPauseSend_keeps {s t : State} {priority fill} (h : execPauseSend priority fill s = .next t) : Keeps s t := by
  refine next_keeps ?_ h
  repeat' with_reducible (first | exact Keeps.refl s | apply State.toHost_keeps | simp only [Keeps.put_iff] | apply Keeps.ite)

theorem execCeMark_keeps {s t : State} {qp} (h : execCeMark qp s = .next t) : Keeps s t := by
  refine next_keeps ?_ h
  repeat' with_reducible (first | exact Keeps.refl s | apply State.setQp_keeps | apply State.toHost_keeps | split)

theorem execCongestionNotification_keeps {s t : State} {qp} (h : execCongestionNotification qp s = .next t) : Keeps s t :=
  next_keeps (State.setQp_keeps (hsu := Keeps.refl s) ..) h

theorem execRateRise_keeps {s t : State} {qp} (h : execRateRise qp s = .next t) : Keeps s t :=
  next_keeps (State.setQp_keeps (hsu := Keeps.refl s) ..) h

theorem execLldpSend_keeps {s t : State} (h : execLldpSend s = .next t) : Keeps s t :=
  next_keeps (onlyIf_keeps _ (Keeps.refl s) (State.toHost_keeps (hsu := Keeps.refl s) ..)) h

theorem execLldp_keeps {s t : State} {frame} (h : execLldp frame s = .next t) : Keeps s t := by
  refine next_keeps ?_ h
  repeat' with_reducible (first | exact Keeps.refl s | apply onlyIf_keeps | simp only [Keeps.put_iff])

theorem execHostPortLink_keeps {s t : State} {up} (h : execHostPortLink up s = .next t) : Keeps s t := by
  refine next_keeps ?_ h
  repeat' with_reducible (first | exact Keeps.refl s | apply onlyIf_keeps | simp only [Keeps.put_iff] | apply Keeps.ite)

theorem execSensorReading_keeps {s t : State} {sensor value} (h : execSensorReading sensor value s = .next t) : Keeps s t := by
  refine need_keeps ?_ h
  repeat' with_reducible (first | exact Keeps.refl s | apply State.setSensor_keeps | apply State.judgeSensor_keeps | apply State.ev_keeps | apply State.notice_keeps | apply State.noteLadder_keeps | dsimp only | split)

theorem execThrottleUp_keeps {s t : State} (h : execThrottleUp s = .next t) : Keeps s t := by
  refine next_keeps ?_ h
  repeat' with_reducible (first | exact Keeps.refl s | apply State.ev_keeps | simp only [Keeps.put_iff] | split)

theorem execThrottleDown_keeps {s t : State} (h : execThrottleDown s = .next t) : Keeps s t := by
  refine next_keeps ?_ h
  repeat' with_reducible (first | exact Keeps.refl s | apply State.ev_keeps | simp only [Keeps.put_iff] | split)

theorem execTrip_keeps {s t : State} (h : execTrip s = .next t) : Keeps s t := by
  refine next_keeps ?_ h
  repeat' with_reducible (first | exact Keeps.refl s | apply State.hardwareTrip_keeps | apply State.trip_keeps | split)

theorem execHardwareTrip_keeps {s t : State} {a b} (h : execHardwareTrip a b s = .next t) : Keeps s t :=
  need_keeps (.ite (State.hardwareTrip_keeps (hsu := Keeps.refl s) ..) (Keeps.refl s)) h

theorem execSensorGood_keeps {s t : State} {sensor} (h : execSensorGood sensor s = .next t) : Keeps s t := by
  refine need_keeps ?_ h
  repeat' with_reducible (first | exact Keeps.refl s | apply State.setSensor_keeps | apply State.ev_keeps | dsimp only | split)

theorem execSafeExit_keeps {s t : State} (h : execSafeExit s = .next t) : Keeps s t := by
  refine next_keeps ?_ h
  repeat' with_reducible (first | exact Keeps.refl s | apply State.confirmAll_keeps | apply State.ev_keeps | apply onlyIf_keeps | simp only [Keeps.put_iff])

theorem execGovernorInterval_keeps {s t : State} {mv ma power} (h : execGovernorInterval mv ma power s = .next t) : Keeps s t := by
  refine next_keeps ?_ h
  repeat' with_reducible (first | exact Keeps.refl s | apply State.ev_keeps | simp only [Keeps.put_iff] | apply Keeps.ite)

theorem execInputLow_keeps {s t : State} {mv} (h : execInputLow mv s = .next t) : Keeps s t := by
  refine next_keeps ?_ h
  repeat' with_reducible (first | exact Keeps.refl s | apply State.ev_keeps | apply onlyIf_keeps | simp only [Keeps.put_iff])

theorem execInputRestored_keeps {s t : State} {mv} (h : execInputRestored mv s = .next t) : Keeps s t := by
  refine next_keeps ?_ h
  repeat' with_reducible (first | exact Keeps.refl s | apply State.ev_keeps | apply onlyIf_keeps | simp only [Keeps.put_iff])

theorem execMonitorEntry_keeps {s t : State} {entry samples} (h : execMonitorEntry entry samples s = .next t) : Keeps s t := by
  refine need_keeps ?_ h
  repeat' with_reducible (first | exact Keeps.refl s | apply State.deliverOld_keeps | apply State.setMonEntry_keeps | apply State.deliverResult_keeps | apply onlyIf_keeps | apply Keeps.ite | split)

theorem execLate_keeps {s t : State} {entry} (h : execLate entry s = .next t) : Keeps s t := by
  refine need_keeps ?_ h
  repeat' with_reducible (first | exact Keeps.refl s | apply State.setMonEntry_keeps | apply State.ev_keeps | dsimp only | split)

theorem execFwConfirm_keeps {s t : State} (h : execFwConfirm s = .next t) : Keeps s t := by
  refine next_keeps ?_ h
  repeat' with_reducible (first | exact Keeps.refl s | apply State.recordFailure_keeps | apply State.confirmSlot_keeps | apply State.resetSettings_keeps | apply State.readConfig_keeps | apply State.afterBoot_keeps | apply State.finishActivation_keeps | apply onlyIf_keeps | apply Keeps.ite)

theorem execFwBootFailed_keeps {s t : State} {reason} (h : execFwBootFailed reason s = .next t) : Keeps s t := by
  refine next_keeps ?_ h
  repeat' with_reducible (first | exact Keeps.refl s | apply State.enterRom_keeps | apply onlyIf_keeps | exact Keeps.putFw (Keeps.refl s) rfl rfl | apply Keeps.ite)

theorem execPowerGood_keeps {s t : State} {slotPins holdupL} (h : execPowerGood slotPins holdupL s = .next t) : Keeps s t := by
  refine next_keeps ?_ h
  repeat' with_reducible (first | exact Keeps.refl s | apply State.beginStart_keeps | apply onlyIf_keeps | simp only [Keeps.put_iff])

theorem execPwrGoodFall_keeps {s t : State} (h : execPwrGoodFall s = .next t) : Keeps s t := by
  refine next_keeps ?_ h
  repeat' with_reducible (first | exact Keeps.refl s | apply State.powerLoss_keeps | apply onlyIf_keeps | simp only [Keeps.put_iff])

theorem execInputUndervoltage_keeps {s t : State} {mv} (h : execInputUndervoltage mv s = .next t) : Keeps s t := by
  refine next_keeps ?_ h
  repeat' with_reducible (first | exact Keeps.refl s | apply State.powerLoss_keeps | apply onlyIf_keeps | simp only [Keeps.put_iff])

theorem execHardReset_keeps {s t : State} {lowNs} (h : execHardReset lowNs s = .next t) : Keeps s t := by
  refine next_keeps ?_ h
  repeat' with_reducible (first | exact Keeps.refl s | apply State.stopped_keeps | apply onlyIf_keeps | simp only [Keeps.put_iff])

theorem execResetRelease_keeps {s t : State} {slotPins} (h : execResetRelease slotPins s = .next t) : Keeps s t := by
  refine next_keeps ?_ h
  repeat' with_reducible (first | exact Keeps.refl s | apply State.beginStart_keeps | apply onlyIf_keeps | simp only [Keeps.put_iff])

theorem execRomBoot_keeps {s t : State} (h : execRomBoot s = .next t) : Keeps s t := by
  refine next_keeps ?_ h
  repeat' with_reducible (first | exact Keeps.refl s | apply State.enterRom_keeps | apply onlyIf_keeps | simp only [Keeps.put_iff] | apply Keeps.ite)

theorem execMemoryTraining_keeps {s t : State} {trained} (h : execMemoryTraining trained s = .next t) : Keeps s t := by
  refine next_keeps ?_ h
  repeat' with_reducible (first | exact Keeps.refl s | apply State.drivePins_keeps | apply State.ev_keeps | apply onlyIf_keeps | simp only [Keeps.put_iff] | apply Keeps.ite)

theorem execLinksUp_keeps {s t : State} (h : execLinksUp s = .next t) : Keeps s t := by
  refine next_keeps ?_ h
  repeat' with_reducible (first | exact Keeps.refl s | apply State.startArrays_keeps | apply onlyIf_keeps | simp only [Keeps.put_iff])

theorem execModuleReady_keeps {s t : State} (h : execModuleReady s = .next t) : Keeps s t := by
  refine next_keeps ?_ h
  repeat' with_reducible (first | exact Keeps.refl s | apply onlyIf_keeps | simp only [Keeps.put_iff])

theorem execRdmaResponse_keeps {s t : State} {qp kind owner ok data} (h : execRdmaResponse qp kind owner ok data s = .next t) : Keeps s t := by
  refine next_keeps ?_ h
  repeat' with_reducible (first | exact Keeps.refl s | apply State.setQp_keeps | apply State.cmdAnswered_keeps | apply State.fetchAnswered_keeps | apply State.fetchWaiting_keeps | apply Keeps.ite)

theorem execDisconnect_keeps {s t : State} {qp} (h : execDisconnect qp s = .next t) : Keeps s t := by
  refine next_keeps ?_ h
  repeat' with_reducible (first | exact Keeps.refl s | simp only [Keeps.put_iff])

theorem execDutyWindowEnd_keeps {s t : State} (h : execDutyWindowEnd s = .next t) : Keeps s t := by
  refine next_keeps ?_ h
  repeat' with_reducible (first | exact Keeps.refl s | apply drainWait_keeps | apply onlyIf_keeps | simp only [Keeps.put_iff])

theorem execReshapeMissing_keeps {s t : State} {bride} (h : execReshapeMissing bride s = .next t) : Keeps s t := by
  refine need_keeps ?_ h
  repeat' with_reducible (first | exact Keeps.refl s | apply State.classAs_keeps | apply State.setBride_keeps | apply State.topoSettle_keeps | apply onlyIf_keeps | apply Keeps.ite)

theorem execMarginWindowEnd_keeps {s t : State} {island result} (h : execMarginWindowEnd island result s = .next t) : Keeps s t := by
  refine need_keeps ?_ h
  repeat' with_reducible (first | exact Keeps.refl s | apply State.countMargin_keeps | apply State.setIsland_keeps | apply State.ev_keeps | apply Keeps.ite)

theorem execPpsOutEdge_keeps {s t : State} (h : execPpsOutEdge s = .next t) : Keeps s t := by
  refine next_keeps ?_ h
  repeat' with_reducible (first | exact Keeps.refl s | apply onlyIf_keeps | simp only [Keeps.put_iff])

theorem execSeqFork_keeps {s t : State} {m} (h : execSeqFork m s = .next t) : Keeps s t := by
  refine seqCommand_keeps (State.onPages_keeps m _ (fun _ _ => ?_) (Keeps.refl s)) h
  refine .ite (State.failCmd_keeps _ _ _ (Keeps.refl s)) (.ite (State.failCmd_keeps _ _ _ (Keeps.refl s)) (.ite (State.failCmd_keeps _ _ _ (Keeps.refl s)) ?_))
  split
  · exact State.failCmd_keeps _ _ _ (Keeps.refl s)
  · next hcopy =>
    have hadd := fun q => State.addSeq_keeps q (copyFrames_keeps _ _ _ (Keeps.refl s) hcopy)
    refine State.okCmd_keeps _ _ ?_
    split
    · exact hadd _
    · exact State.addSeq_keeps _ (hadd _)

theorem execReplay_keeps {s t : State} {tag} (h : execReplay tag s = .next t) : Keeps s t := by
  refine next_keeps ?_ h
  split
  · exact Keeps.refl s
  · split
    · exact Keeps.refl s
    · refine .ite (Keeps.refl s) (State.count_keeps _ (State.setStep_keeps _ _ (Keeps.putMem (State.sweepAll_keeps _ _ _ _ _ ?_) id)))
      exact .ite (Keeps.refl s) (State.sendAll_keeps _ _ _ (Keeps.refl s))

theorem execScrubPass_keeps {s t : State} {corrected} (h : execScrubPass corrected s = .next t) : Keeps s t := by
  refine need_keeps (.ite (Keeps.refl s) ?_) h
  exact Keeps.putMem (State.count_keeps _ (Keeps.refl s)) id

theorem execRegionRetired_keeps {s t : State} {stack region} (h : execRegionRetired stack region s = .next t) : Keeps s t := by
  refine need_keeps (.ite (Keeps.refl s) (.ite (.foldl (fun _ _ hu => State.evWord_keeps _ _ _ _ _ hu) _ ?_) (State.ev_keeps _ _ _ _ _ _ ?_))) h
  · exact Keeps.putMem (Keeps.refl s) id
  · exact Keeps.putMem (Keeps.refl s) id

/-- What a command keeps: the canonical form of the memory window, the trust of the selvage and the queue. -/
theorem exec_keeps {c : Instr} {s t : State} (h : exec c s = .next t) : Keeps s t :=
  match c with
  | .hostWrite _ _ _ => execHostWrite_keeps h
  | .mailboxEntryWrite _ _ _ => execMailboxEntryWrite_keeps h
  | .readCountWrite _ _ => execReadCountWrite_keeps h
  | .eventLogReadCountWrite _ => execEventLogReadCountWrite_keeps h
  | .captureReadCountWrite _ => execCaptureReadCountWrite_keeps h
  | .doorbell _ _ => execDoorbell_keeps h
  | .ringScan => execRingScan_keeps h
  | .mailboxConsume _ => execMailboxConsume_keeps h
  | .statusWordUpdate _ => execStatusWordUpdate_keeps h
  | .identify _ => execIdentify_keeps h
  | .configRead _ => execConfigRead_keeps h
  | .configStage _ => execConfigStage_keeps h
  | .configCommit _ => execConfigCommit_keeps h
  | .configRevert _ => execConfigRevert_keeps h
  | .motifLoad _ => execMotifLoad_keeps h
  | .motifLoadReplace _ => execMotifLoadReplace_keeps h
  | .motifSwitch _ => execMotifSwitch_keeps h
  | .motifDrop _ => execMotifDrop_keeps h
  | .motifQuery _ => execMotifQuery_keeps h
  | .seqOpen _ => execSeqOpen_keeps h
  | .seqAppend _ => execSeqAppend_keeps h
  | .seqGenerate _ => execSeqGenerate_keeps h
  | .cancel _ => execCancel_keeps h
  | .seqFork _ => execSeqFork_keeps h
  | .seqClose _ => execSeqClose_keeps h
  | .pagesBind _ => execPagesBind_keeps h
  | .calFreeze _ => execCalFreeze_keeps h
  | .calThaw _ => execCalThaw_keeps h
  | .calCommit _ => execCalCommit_keeps h
  | .healthRead _ => execHealthRead_keeps h
  | .monitorProgram _ => execMonitorProgram_keeps h
  | .timeRead _ => execTimeRead_keeps h
  | .takeover _ => execTakeover_keeps h
  | .handback _ => execHandback_keeps h
  | .fwStage _ => execFwStage_keeps h
  | .fwActivate _ => execFwActivate_keeps h
  | .fwRevert _ => execFwRevert_keeps h
  | .ownerLockSet _ => execOwnerLockSet_keeps h
  | .ownerLockClear _ => execOwnerLockClear_keeps h
  | .attest _ => execAttest_keeps h
  | .doneRecordWrite _ => execDoneRecordWrite_keeps h
  | .prefillStepStart _ _ => execPrefillStepStart_keeps h
  | .generationStepStart _ _ => execGenerationStepStart_keeps h
  | .companionStep _ _ _ => execCompanionStep_keeps h
  | .tree _ _ => execTree_keeps h
  | .rotation _ _ _ _ _ => execRotation_keeps h
  | .vectorLatch _ _ => execVectorLatch_keeps h
  | .picotCheckReport _ => execPicotCheckReport_keeps h
  | .internalVector phys bits => execInternalVector_keeps (phys := phys) (bits := bits) h
  | .chainPartial _ _ => execChainPartial_keeps h
  | .tambourTile _ _ _ _ => execTambourTile_keeps h
  | .chainEndPromote _ => execChainEndPromote_keeps h
  | .matrixOutput _ => execMatrixOutput_keeps h
  | .precisionWindowEnd _ _ => execPrecisionWindowEnd_keeps h
  | .act _ _ _ => execAct_keeps h
  | .query _ _ _ _ => execQuery_keeps h
  | .slot _ _ _ => execSlot_keeps h
  | .workUnit _ _ _ _ => execWorkUnit_keeps h
  | .workUnitEnd _ => execWorkUnitEnd_keeps h
  | .moduleMerge _ _ => execModuleMerge_keeps h
  | .partialRows source _ _ => execPartialRows_keeps (source := source) h
  | .merged _ _ => execMerged_keeps h
  | .check _ _ => execCheck_keeps h
  | .checkSend _ => execCheckSend_keeps h
  | .commitDecision _ => execCommitDecision_keeps h
  | .commit _ _ _ => execCommit_keeps h
  | .compact _ _ => execCompact_keeps h
  | .recallRaise _ _ _ _ => execRecallRaise_keeps h
  | .recall _ _ => execRecall_keeps h
  | .replay _ => execReplay_keeps h
  | .arm _ _ _ _ _ _ => execArm_keeps h
  | .add port _ _ _ => execAdd_keeps (port := port) h
  | .fetchAdd _ _ _ _ => execFetchAdd_keeps h
  | .rearm _ _ _ _ _ => execRearm_keeps h
  | .free _ _ => execFree_keeps h
  | .knotAdd bride _ _ _ => execKnotAdd_keeps (bride := bride) h
  | .heartbeatSend => execHeartbeatSend_keeps h
  | .heartbeat _ _ => execHeartbeat_keeps h
  | .heartbeatMissing _ => execHeartbeatMissing_keeps h
  | .badType _ _ _ => execBadType_keeps h
  | .messageForward _ _ => execMessageForward_keeps h
  | .loadOrder _ _ => execLoadOrder_keeps h
  | .shardFetchEnd _ => execShardFetchEnd_keeps h
  | .programmingRoundEnd _ _ _ => execProgrammingRoundEnd_keeps h
  | .loadReport _ => execLoadReport_keeps h
  | .loadComplete _ => execLoadComplete_keeps h
  | .shardCopy _ _ _ _ _ => execShardCopy_keeps h
  | .pageCopy _ _ _ _ _ _ _ _ => execPageCopy_keeps h
  | .switch _ _ => execSwitch_keeps h
  | .oldCopyRelease _ => execOldCopyRelease_keeps h
  | .headSync _ => execHeadSync_keeps h
  | .role _ => execRole_keeps h
  | .unplannedTakeover _ => execUnplannedTakeover_keeps h
  | .mirrorRestore _ _ => execMirrorRestore_keeps h
  | .calServiceWindowEnd _ => execCalServiceWindowEnd_keeps h
  | .windowTopUp _ => execWindowTopUp_keeps h
  | .shadowCommit _ => execShadowCommit_keeps h
  | .warmupWindowEnd _ => execWarmupWindowEnd_keeps h
  | .confirmWindowEnd _ => execConfirmWindowEnd_keeps h
  | .freezeEnd => execFreezeEnd_keeps h
  | .refresh _ _ _ => execRefresh_keeps h
  | .standaloneMarginRun _ _ => execStandaloneMarginRun_keeps h
  | .marginWindow _ => execMarginWindow_keeps h
  | .arrayRetire _ _ => execArrayRetire_keeps h
  | .spareProgrammed _ => execSpareProgrammed_keeps h
  | .islandRetire _ _ => execIslandRetire_keeps h
  | .degraded _ => execDegraded_keeps h
  | .arrayAudit _ => execArrayAudit_keeps h
  | .auditDropped _ => execAuditDropped_keeps h
  | .duplicateAudit _ _ _ _ _ => execDuplicateAudit_keeps h
  | .scrubPass _ => execScrubPass_keeps h
  | .uncorrectable _ _ _ _ _ _ => execUncorrectable_keeps h
  | .regionRetired _ _ => execRegionRetired_keeps h
  | .rebuilt _ _ _ _ _ _ => execRebuilt_keeps h
  | .flit _ _ _ _ => execFlit_keeps h
  | .nak _ _ _ _ => execNak_keeps h
  | .brideDown _ => execBrideDown_keeps h
  | .laneOut _ _ => execLaneOut_keeps h
  | .lossOfLock _ => execLossOfLock_keeps h
  | .routeSwitch _ => execRouteSwitch_keeps h
  | .linkNotice _ => execLinkNotice_keeps h
  | .linkNoticeTimeout _ => execLinkNoticeTimeout_keeps h
  | .groupLinks _ _ _ => execGroupLinks_keeps h
  | .groupLinksSend => execGroupLinksSend_keeps h
  | .topoReady _ _ => execTopoReady_keeps h
  | .training _ _ _ _ _ => execTraining_keeps h
  | .trainingRetry _ _ => execTrainingRetry_keeps h
  | .brideClassing _ => execBrideClassing_keeps h
  | .hold _ => execHold_keeps h
  | .reshapeDrainEnd _ => execReshapeDrainEnd_keeps h
  | .lightSupplyChange _ _ _ => execLightSupplyChange_keeps h
  | .lightSupplyGood _ => execLightSupplyGood_keeps h
  | .timingFlitSend _ => execTimingFlitSend_keeps h
  | .timingFlit _ _ _ => execTimingFlit_keeps h
  | .phaseCorrection => execPhaseCorrection_keeps h
  | .timeStep _ => execTimeStep_keeps h
  | .slew => execSlew_keeps h
  | .lockStateChange => execLockStateChange_keeps h
  | .timeElectSend => execTimeElectSend_keeps h
  | .timeElect _ _ _ => execTimeElect_keeps h
  | .candidateExpiry _ _ => execCandidateExpiry_keeps h
  | .timeOffset _ _ _ _ _ _ _ => execTimeOffset_keeps h
  | .gateLinkChange => execGateLinkChange_keeps h
  | .ppsInEdge => execPpsInEdge_keeps h
  | .referenceValidity _ _ _ => execReferenceValidity_keeps h
  | .ptpAnnounceSend => execPtpAnnounceSend_keeps h
  | .ptpSyncSend => execPtpSyncSend_keeps h
  | .delayReq _ _ => execDelayReq_keeps h
  | .announce clock => execAnnounce_keeps (clock := clock) h
  | .req _ _ _ _ => execReq_keeps h
  | .rdmaWrite _ _ _ _ => execRdmaWrite_keeps h
  | .rdmaRead _ _ _ _ => execRdmaRead_keeps h
  | .unsupportedOperation _ => execUnsupportedOperation_keeps h
  | .ackTimeout _ => execAckTimeout_keeps h
  | .frameDrop _ => execFrameDrop_keeps h
  | .arp _ _ => execArp_keeps h
  | .pause _ _ => execPause_keeps h
  | .pauseSend _ _ => execPauseSend_keeps h
  | .ceMark _ => execCeMark_keeps h
  | .congestionNotification _ => execCongestionNotification_keeps h
  | .rateRise _ => execRateRise_keeps h
  | .lldpSend => execLldpSend_keeps h
  | .lldp _ => execLldp_keeps h
  | .hostPortLink _ => execHostPortLink_keeps h
  | .sensorReading _ _ => execSensorReading_keeps h
  | .throttleUp => execThrottleUp_keeps h
  | .throttleDown => execThrottleDown_keeps h
  | .trip => execTrip_keeps h
  | .hardwareTrip _ _ => execHardwareTrip_keeps h
  | .sensorGood _ => execSensorGood_keeps h
  | .safeExit => execSafeExit_keeps h
  | .governorInterval _ _ _ => execGovernorInterval_keeps h
  | .inputLow _ => execInputLow_keeps h
  | .inputRestored _ => execInputRestored_keeps h
  | .monitorEntry _ _ => execMonitorEntry_keeps h
  | .late _ => execLate_keeps h
  | .fwConfirm => execFwConfirm_keeps h
  | .fwBootFailed _ => execFwBootFailed_keeps h
  | .powerGood _ _ => execPowerGood_keeps h
  | .pwrGoodFall => execPwrGoodFall_keeps h
  | .inputUndervoltage _ => execInputUndervoltage_keeps h
  | .hardReset _ => execHardReset_keeps h
  | .resetRelease _ => execResetRelease_keeps h
  | .romBoot => execRomBoot_keeps h
  | .memoryTraining _ => execMemoryTraining_keeps h
  | .linksUp => execLinksUp_keeps h
  | .moduleReady => execModuleReady_keeps h
  | .rdmaResponse _ _ _ _ _ => execRdmaResponse_keeps h
  | .disconnect _ => execDisconnect_keeps h
  | .dutyWindowEnd => execDutyWindowEnd_keeps h
  | .reshapeMissing _ => execReshapeMissing_keeps h
  | .marginWindowEnd _ _ => execMarginWindowEnd_keeps h
  | .ppsOutEdge => execPpsOutEdge_keeps h

/-- A step is the idle tick or the front command on the shortened queue; neither takes the memory window out of its canonical form. -/
theorem step_keeps_memCanonical {s t : State} (hs : s.memCanonical) (h : step s = .next t) : t.memCanonical := by
  unfold step at h
  split at h
  · cases h
    exact (idle_keeps (Keeps.refl s)).mem hs
  · exact (exec_keeps h).mem hs

/-- Settles O6: each command and the idle tick keep the memory window canonical, and the step is one of them. -/
theorem memoryStaysCanonical : Obligations.MemoryStaysCanonical := by
  unfold Obligations.MemoryStaysCanonical
  intro s t hs h
  exact step_keeps_memCanonical hs h

end Sys2Proof.Machine

namespace Sys2Proof.Machine

/- The theorems of this part are elaborated one after another: side by side they need more memory than the check has left beside the tests above. -/
set_option Elab.async false

/-! ### What changes of brides, routes and the election leave alone (R317, R322, R351, R447) -/

/-- A state that differs from `s` in the fabric, the log and the time unit alone, with the same module time. -/
structure State.LinksChanged (s t : State) : Prop where
  frame : t = { s with fabric := t.fabric, log := t.log, time := t.time }
  clock : t.time.t16 = s.time.t16

namespace State.LinksChanged

theorem refl (s : State) : s.LinksChanged s := ⟨rfl, rfl⟩

theorem trans {s t u : State} (h : s.LinksChanged t) (k : t.LinksChanged u) : s.LinksChanged u :=
  ⟨k.frame.trans (by rw [h.frame]), k.clock.trans h.clock⟩

theorem of_fabric (s : State) (fabric : Fabric) : s.LinksChanged { s with fabric := fabric } := ⟨rfl, rfl⟩

theorem ite {s t u : State} {c : Prop} [Decidable c] (ht : s.LinksChanged t) (hu : s.LinksChanged u) : s.LinksChanged (if c then t else u) := by
  split
  · exact ht
  · exact hu

theorem foldl {α : Type} {f : State → α → State} (hf : ∀ (u : State) x, u.LinksChanged (f u x)) (l : List α) (s : State) : s.LinksChanged (l.foldl f s) := by
  induction l generalizing s with
  | nil => exact refl s
  | cons x l ih => exact (hf s x).trans (ih _)

theorem ev (s : State) (cls code op kind index : Nat) (detail : Bytes) : s.LinksChanged (s.ev cls code op kind index detail) :=
  ⟨by rw [State.ev_frame], by rw [State.ev_time]⟩

theorem sendAll (s : State) (dests : List Nat) (tag : Option StepTag) (body : MsgBody) : s.LinksChanged (s.sendAll dests tag body) := by
  rw [State.sendAll_frame]
  exact of_fabric ..

theorem setBride (s : State) (b : Nat) (x : Bride) : s.LinksChanged (s.setBride b x) := of_fabric ..

theorem brideTo (s : State) (b st : Nat) : s.LinksChanged (s.brideTo b st) := by
  unfold State.brideTo
  refine ite (refl s) (ite (setBride ..) ?_)
  exact ((setBride ..).trans (of_fabric ..)).trans (sendAll ..)

theorem classAs (s : State) (b code : Nat) : s.LinksChanged (s.classAs b code) := by
  unfold State.classAs
  exact ite (setBride ..) (ite (setBride ..) ((setBride ..).trans (ev ..)))

theorem classLength (s : State) (b : Nat) : s.LinksChanged (s.classLength b) := by
  unfold State.classLength
  exact ite ((setBride ..).trans (ev ..)) (setBride ..)

theorem classify (s : State) (b : Nat) : s.LinksChanged (s.classify b) := by
  unfold State.classify onlyIf
  exact ite ((classAs ..).trans (classLength ..)) (ite (classAs ..) (refl s))

theorem retrain (s : State) (b : Nat) : s.LinksChanged (s.retrain b) := by
  unfold State.retrain
  exact ite (brideTo ..) (ite (brideTo ..) (refl s))

theorem retrainAll (s : State) (old : MachineCfg) : s.LinksChanged (s.retrainAll old) :=
  foldl (fun u b => by split <;> [exact retrain ..; exact refl u]) ..

theorem replan (s : State) : s.LinksChanged s.replan :=
  foldl (fun u b => by split <;> [exact brideTo ..; exact classify ..]) ..

theorem topoSettle (s : State) : s.LinksChanged s.topoSettle := by
  unfold State.topoSettle
  exact ite ((of_fabric ..).trans (sendAll ..)) (refl s)

theorem reshape (s : State) (old : MachineCfg) : s.LinksChanged (s.reshape old) := by
  unfold State.reshape
  refine ite (refl s) (trans (trans ?_ (of_fabric ..)) (topoSettle ..))
  refine foldl (fun u b => ?_) ..
  exact ite (refl u) (ite ((setBride ..).trans (brideTo ..)) (setBride ..))

theorem elect (s : State) : s.LinksChanged s.elect := by
  unfold State.elect
  exact ite ⟨rfl, rfl⟩ ⟨rfl, rfl⟩

theorem moveGroup (s : State) (id : Nat) : s.LinksChanged (s.moveGroup id) := by
  unfold State.moveGroup
  exact ite (refl s) (of_fabric ..)

/-- A configuration that takes effect changes itself, the links and the election (R447). -/
theorem applyCfg (s : State) (c : MachineCfg) : ({ s with cfg := { s.cfg with cur := c, read := true } } : State).LinksChanged (s.applyCfg c) := by
  unfold State.applyCfg
  exact trans (trans (trans (trans (trans (moveGroup ..) (retrainAll ..)) (replan ..)) (reshape ..)) (of_fabric ..)) (elect ..)

end State.LinksChanged

/-! ### Confirmation of a booted slot (R431, R432, R434, R438) -/

/-- What confirmation does before the configuration is read: the firmware's slots, the log, the mailboxes and the configuration slots may change. -/
structure State.Confirming (s t : State) : Prop where
  frame : t = { s with boxes := t.boxes, log := t.log, fw := t.fw, cfg := t.cfg }
  activation : t.fw.activation = s.fw.activation
  read : t.cfg.read = s.cfg.read

namespace State.Confirming

theorem trans {s t u : State} (h : s.Confirming t) (k : t.Confirming u) : s.Confirming u :=
  ⟨k.frame.trans (by rw [h.frame]), k.activation.trans h.activation, k.read.trans h.read⟩

theorem refl (s : State) : s.Confirming s := ⟨rfl, rfl, rfl⟩

theorem ev {s u : State} (code : Nat) (detail : Bytes) (h : s.Confirming u) : s.Confirming (u.evUpdate code detail) :=
  h.trans ⟨by rw [State.evUpdate, State.ev_frame], by rw [State.evUpdate_fw], by rw [State.evUpdate_cfg]⟩

theorem ite {s t u : State} {c : Prop} [Decidable c] (ht : s.Confirming t) (hu : s.Confirming u) : s.Confirming (if c then t else u) := by
  split
  · exact ht
  · exact hu

theorem foldl {α : Type} {f : State → α → State} (hf : ∀ (u : State) x, u.Confirming (f u x)) (l : List α) (s : State) : s.Confirming (l.foldl f s) := by
  induction l generalizing s with
  | nil => exact refl s
  | cons x l ih => exact (hf s x).trans (ih _)

theorem of_fw {s : State} {fw : Firmware} (h : fw.activation = s.fw.activation) : s.Confirming { s with fw := fw } := ⟨rfl, h, rfl⟩

end State.Confirming

@[simp] theorem Firmware.putSlot_activation (f : Firmware) (i : Nat) (x : FwSlot) : (f.putSlot i x).activation = f.activation := by
  unfold Firmware.putSlot
  split <;> rfl

theorem Firmware.confirmed_activation (f : Firmware) : f.confirmed.activation = f.activation := by simp [Firmware.confirmed]

theorem State.confirming_recordFailure (s : State) : s.Confirming s.recordFailure :=
  .ev _ _ (.of_fw (Firmware.putSlot_activation ..))

theorem State.confirming_confirmSlot (s : State) : s.Confirming s.confirmSlot := by
  have hfw : s.Confirming { s with fw := s.fw.confirmed } := .of_fw (Firmware.confirmed_activation ..)
  unfold State.confirmSlot
  refine .ite (.ev _ _ ?_) (.ev _ _ ?_) <;> refine .ite ?_ (.ev _ _ ?_) <;> exact .ite hfw (.ev _ _ hfw)

theorem State.confirming_recordReset (s : State) (x : CfgSlot) : s.Confirming (s.recordReset x) := by
  unfold State.recordReset
  exact .ite (.refl s) (.ev _ _ (.refl s))

theorem State.confirming_resetVersion (s : State) (m : Nat) : s.Confirming (s.resetVersion m) := by
  unfold State.resetVersion
  split
  · exact .refl s
  · exact .ite (.refl s) (.ev _ _ ⟨rfl, rfl, rfl⟩)

theorem State.confirming_resetSettings (s : State) : s.Confirming s.resetSettings := by
  have hreset := (State.confirming_recordReset s s.cfg.slotA).trans (State.confirming_recordReset _ s.cfg.slotB)
  unfold State.resetSettings
  refine .trans ?_ (.foldl State.confirming_resetVersion _ _)
  exact hreset.trans ⟨rfl, rfl, rfl⟩

/-- The configuration in force has been read after confirmation; nothing else of the state but its links and its election has changed. -/
theorem State.readConfig_spec (s : State) :
    s.readConfig.cfg.read = true ∧ s.readConfig = { s with cfg := s.readConfig.cfg, fabric := s.readConfig.fabric, log := s.readConfig.log, time := s.readConfig.time } ∧
      s.readConfig.now = s.now := by
  unfold State.readConfig
  dsimp only
  split
  · rename_i hread
    exact ⟨hread.1, rfl, rfl⟩
  · obtain ⟨hframe, hclock⟩ := State.LinksChanged.applyCfg s s.cfg.current.config
    refine ⟨by rw [hframe], ?_, ?_⟩
    · exact hframe.trans (by rw [hframe])
    · rw [State.now, hclock]
      rfl

/-- What the first firmware of a boot leaves as it was until start-up goes on; the configuration has then been read. -/
theorem State.confirmed_spec {s u : State} (h : s.Confirming u) :
    u.resetSettings.readConfig.start = s.start ∧ u.resetSettings.readConfig.now = s.now ∧ u.resetSettings.readConfig.cfg.read = true ∧
      u.resetSettings.readConfig.fw.activation = s.fw.activation ∧ u.resetSettings.readConfig.mem = s.mem ∧
      u.resetSettings.readConfig.motifs = s.motifs := by
  have hreset := h.trans (State.confirming_resetSettings u)
  generalize u.resetSettings = v at *
  obtain ⟨hread, hframe, hnow⟩ := State.readConfig_spec v
  generalize v.readConfig = w at *
  have hw : w.start = s.start ∧ w.mem = s.mem ∧ w.motifs = s.motifs := by
    rw [hframe, hreset.frame]
    exact ⟨rfl, rfl, rfl⟩
  have hv : v.now = s.now := by
    rw [hreset.frame]
    rfl
  have hfw : w.fw = v.fw := by rw [hframe]
  exact ⟨hw.1, hnow.trans hv, hread, by rw [hfw, hreset.activation], hw.2⟩

theorem State.complete_cfg_read (s : State) (m status detail progress result : Nat) : (s.complete m status detail progress result).cfg.read = s.cfg.read := by
  unfold State.complete State.finish
  dsimp only
  split
  · rfl
  · split
    · rfl
    · split
      · split <;> simp
      · split <;> simp

/-- No activation is left, and the steps are no longer held (R431). -/
def State.activationEnded (s : State) : State :=
  { s with
    fw := { s.fw with activation := none, holdSteps := false }
    time := { s.time with withdrawn := s.time.withdrawn && s.take.vacatedTo.isSome } }

theorem State.finishActivation_of_some {s : State} {a : Activation} (failed : Bool) (h : s.fw.activation = some a) :
    s.finishActivation failed = s.activationEnded.complete a.mailbox (if failed then stBadSignature else stOk) 0 0 s.fw.runningSlot.version := by
  unfold State.finishActivation
  rw [h]
  cases failed <;> rfl

theorem State.finishActivation_of_none {s : State} (failed : Bool) (h : s.fw.activation = none) : s.finishActivation failed = s := by
  unfold State.finishActivation
  rw [h]

/-- What the end of an activation leaves as it is, and what it changes of the firmware (R431, R434). -/
theorem State.finishActivation_spec (s : State) (failed : Bool) :
    (s.finishActivation failed).start = s.start ∧ (s.finishActivation failed).fw.activation = none ∧
      (s.finishActivation failed).cfg.read = s.cfg.read ∧ (s.finishActivation failed).mem = s.mem ∧ (s.finishActivation failed).motifs = s.motifs ∧
      ∀ a, s.fw.activation = some a → (s.finishActivation failed).fw.holdSteps = false := by
  cases h : s.fw.activation with
  | none =>
    rw [State.finishActivation_of_none failed h]
    exact ⟨rfl, h, rfl, rfl, rfl, nofun⟩
  | some a =>
    rw [State.finishActivation_of_some failed h]
    simp only [State.complete_start, State.complete_fw, State.complete_cfg_read, State.complete_mem, State.complete_motifs]
    exact ⟨rfl, rfl, rfl, rfl, rfl, fun _ _ => rfl⟩

/-- What confirmation comes to before the settings are read: a failed boot is recorded, a new slot is confirmed (R431, R434). -/
def State.slotJudged (s : State) (failed : Bool) : State :=
  if failed then s.recordFailure else if s.fw.boot ≠ s.fw.running then s.confirmSlot else s

theorem State.confirming_slotJudged (s : State) (failed : Bool) : s.Confirming (s.slotJudged failed) :=
  .ite s.confirming_recordFailure (.ite s.confirming_confirmSlot (.refl s))

theorem exec_fwConfirm {s : State} (hpower : s.start.powerGood = true) (htrip : s.start.hwTrip = false) (hstage : s.start.stage = 2)
    (htime : s.now ≤ s.start.stageStart + 5000000000) : ∃ failed,
      exec .fwConfirm s = .next ((s.slotJudged failed).resetSettings.readConfig.afterBoot.finishActivation failed) := by
  refine ⟨decide (s.fw.failReason ≠ 0 ∧ s.fw.boot = s.fw.running), congrArg Host.Outcome.next (if_pos ?_)⟩
  rw [hpower, htrip, decide_eq_true ⟨hstage, htime⟩]
  rfl

/-- A confirmed boot goes on with start-up where the activation left it, or trains the memory (R431, R470). -/
theorem State.confirmedBoot_spec {s u : State} (h : s.Confirming u) (failed : Bool) :
    let t := u.resetSettings.readConfig.afterBoot.finishActivation failed
    t.start.stageStart = s.now ∧ t.start.powerGood = s.start.powerGood ∧ t.fw.activation = none ∧ t.cfg.read = true ∧
      t.start.stage = (s.fw.activation.elim 3 Activation.stageBefore) ∧
      (∀ a, s.fw.activation = some a → t.fw.holdSteps = false) ∧ t.mem = s.mem ∧ t.motifs = s.motifs := by
  obtain ⟨hstart, hnow, hread, hactivation, hmem, hmotifs⟩ := State.confirmed_spec h
  generalize u.resetSettings.readConfig = v at *
  obtain ⟨kstart, kactivation, kread, kmem, kmotifs, khold⟩ := v.afterBoot.finishActivation_spec failed
  have hboot : v.afterBoot.start = { v.start with stage := s.fw.activation.elim 3 Activation.stageBefore, stageStart := v.now } := by
    rw [← hactivation]
    unfold State.afterBoot
    cases v.fw.activation <;> rfl
  dsimp only
  rw [kstart, hboot, hstart, hnow]
  exact ⟨rfl, rfl, kactivation, kread.trans hread, rfl, fun a ha => khold a (hactivation.trans ha), kmem.trans hmem, kmotifs.trans hmotifs⟩

/-! ### A boot that fails (R434) -/

/-- The ROM code alone runs: a state that differs from this one in its brides. -/
def State.romAlone (s : State) : State :=
  { s with start := { s.start with rom := true, stage := 1 }, fw := { s.fw with holdSteps := false } }

theorem State.brides_darkened_frame (l : List Nat) (s : State) :
    ∃ fabric, l.foldl (fun u b => u.setBride b ((u.bride b).become 0 u.now)) s = { s with fabric := fabric } := by
  induction l generalizing s with
  | nil => exact ⟨_, rfl⟩
  | cons b l ih => exact ih (s.setBride b _)

theorem State.enterRom_frame (s : State) : ∃ fabric, s.enterRom = { s.romAlone with fabric := fabric } :=
  brides_darkened_frame _ _

theorem exec_fwBootFailed {s : State} {reason : Nat} (hpower : s.start.powerGood = true) (hrom : s.start.rom = false) (hreason : reason ∈ [1, 2, 3, 4, 5])
    (hstage : s.start.stage = 2) (hlate : reason = 3 → s.start.stageStart + 5000000000 < s.now) : exec (.fwBootFailed reason) s = .next
      (if 0 < s.fw.pending then
        { s with
          fw := { s.fw with pending := s.fw.pending - 1, failReason := reason, boot := if s.fw.pending - 1 = 0 then s.fw.running else s.fw.boot }
          start := { s.start with stage := 1, stageStart := s.now } }
      else if reason = 3 then { s with start := { s.start with stage := 1, stageStart := s.now } }
      else s.enterRom) := by
  refine congrArg Host.Outcome.next (if_pos ?_)
  have hdue : (reason = 3 ∧ s.start.stage = 2 ∧ s.start.stageStart + 5000000000 < s.now) ∨
      (1 ≤ reason ∧ reason ≤ 5 ∧ reason ≠ 3 ∧ (s.start.stage = 1 ∨ s.start.stage = 2)) := by
    by_cases h3 : reason = 3
    · exact .inl ⟨h3, hstage, hlate h3⟩
    · simp at hreason
      omega
  simpa [hpower, hrom] using hdue

/-- Settles O58: the rows of the monitor by the equations of their commands, the confirmation step by step, a failed boot by its three outcomes. -/
theorem monitorAndBootRowsComplete : Obligations.MonitorAndBootRowsComplete := by
  unfold Obligations.MonitorAndBootRowsComplete
  refine ⟨?entry, ?late, ?program, ?confirm, ?failed⟩
  case entry =>
    intro i samples s hi hpower hold hends hturn hlen
    generalize hr : monResult (samples.map (monCode (s.monEntry i).channel)) = r
    obtain ⟨hframe, hentry⟩ := State.delivered_frame s i r ((s.bandEntry i).isOutside r)
    obtain ⟨-, -, hspec⟩ :=
      MonEntry.deliver_spec (s.monEntry i) r ((s.bandEntry i).isOutside r) ((s.monEntry i).records ((s.bandEntry i).isOutside r)) s.now
    refine ⟨_, exec_monitorEntry_delivers hr hi hpower hold hends hturn hlen, ?_⟩
    rw [hentry, if_pos rfl]
    exact ⟨hspec.1, hspec.2.1, hspec.2.2, hframe⟩
  case late =>
    intro i u s hi hu hperiod hdue
    refine ⟨_, exec_late_due hi hu hperiod hdue, ?_⟩
    rw [State.lated_monEntry, if_pos rfl]
    refine ⟨rfl, rfl, hu, fun hfresh => ?_, ?_⟩
    · rw [State.ev, State.event_of_fresh hfresh]
      rfl
    · rw [State.ev_frame]
      rfl
  case program =>
    intro m c s h hcur
    refine ⟨fun hxfer hgood => ?_, exec_monitorProgram_waits h hcur⟩
    obtain ⟨⟨-, -, hdone, -, hstatus, -⟩, hmonitor, -⟩ := State.programmed_completes h (s.monitor.program (monEntries c.data) s.now)
    refine ⟨_, exec_monitorProgram_accepted h hcur hxfer hgood, hstatus, hdone, ?_, ?_⟩
    · rw [hmonitor]
    · rw [hmonitor, Monitor.program]
  case confirm =>
    intro s hpower htrip hstage htime
    obtain ⟨failed, hexec⟩ := exec_fwConfirm hpower htrip hstage htime
    obtain ⟨hstart, hgood, hrest⟩ := State.confirmedBoot_spec (s.confirming_slotJudged failed) failed
    refine ⟨_, hexec, hstart, hgood.trans hpower, hrest.1, hrest.2.1, hrest.2.2.1.trans ?_, hrest.2.2.2⟩
    cases s.fw.activation <;> rfl
  case failed =>
    intro reason s hpower hrom hreason hstage hlate
    rw [exec_fwBootFailed hpower hrom hreason hstage hlate]
    refine ⟨_, rfl, ?_⟩
    split
    · next hpending => exact ⟨rfl, rfl, rfl, by simp [hrom]; omega, rfl⟩
    · next hpending =>
      have hzero : s.fw.pending = 0 := by omega
      split
      · next h3 => exact ⟨rfl, by simp [hzero], rfl, by simp [hrom, h3], rfl⟩
      · next h3 =>
        obtain ⟨fabric, hframe⟩ := s.enterRom_frame
        rw [hframe]
        exact ⟨rfl, by simp [State.romAlone, hzero], rfl, by simp [State.romAlone, hzero, h3], rfl⟩

end Sys2Proof.Machine

namespace Sys2Proof.Machine

/- The theorems of this part are elaborated one after another: side by side they need more memory than the check has left beside the tests above. -/
set_option Elab.async false

/-! ### Loads in progress (R274) -/

theorem State.loadOf_spec {s : State} {motif : Nat} {l : LoadState} (h : s.loadOf motif = some l) :
    l.motif = motif ∧ l.proper = true ∧ l ∈ s.motifs.loads := by
  have hp := List.find?_some h
  simp only [Bool.and_eq_true, decide_eq_true_eq] at hp
  exact ⟨hp.1, hp.2, List.mem_of_find?_eq_some h⟩

theorem State.setLoad_loadOf (s : State) {l : LoadState} (h : l.proper = true) : (s.setLoad l).loadOf l.motif = some l :=
  List.find?_cons_of_pos (by simp [h])

theorem State.dropLoad_loadOf (s : State) {l : LoadState} (h : l.proper = true) : (s.dropLoad l).loadOf l.motif = none := by
  refine List.find?_eq_none.2 fun x hx hfound => ?_
  have hkept := (List.mem_filter.1 hx).2
  simp only [Bool.and_eq_true, decide_eq_true_eq] at hfound
  simp [hfound.1, hfound.2, h] at hkept

theorem State.loadOf_congr {s t : State} (h : t.motifs.loads = s.motifs.loads) (motif : Nat) : t.loadOf motif = s.loadOf motif := by
  rw [State.loadOf, h]
  rfl

theorem State.setLoad_frame (s : State) (l : LoadState) : s.setLoad l = { s with motifs := { s.motifs with loads := (s.setLoad l).motifs.loads } } := rfl

/-- Loads of which none waits for room ask for nothing. -/
theorem State.fetchWaiting_of_none {s : State} (h : ∀ l ∈ s.motifs.loads, l.waits = none) : s.fetchWaiting = s := by
  have hfold : ∀ (loads : List LoadState) (u : State), (∀ l ∈ loads, l.waits = none) →
      loads.foldl (fun u l => match l.waits, u.loadOf l.motif with | some w, some l' => u.fetch l' w.1 w.2 | _, _ => u) u = u := by
    intro loads
    induction loads with
    | nil => exact fun _ _ => rfl
    | cons l loads ih =>
      intro u hnone
      rw [List.foldl_cons, hnone l List.mem_cons_self]
      exact ih u fun x hx => hnone x (List.mem_cons_of_mem _ hx)
  exact hfold _ s h

theorem exec_of_none_waiting {i : Instr} {s t : State} (h : exec i s = .next t.fetchWaiting) (hnone : ∀ l ∈ t.motifs.loads, l.waits = none) :
    exec i s = .next t :=
  h.trans (congrArg _ (State.fetchWaiting_of_none hnone))

theorem State.setLoad_waits {s : State} (h : ∀ x ∈ s.motifs.loads, x.waits = none) {l : LoadState} (hl : l.waits = none) :
    ∀ x ∈ (s.setLoad l).motifs.loads, x.waits = none := by
  intro x hx
  rcases List.mem_cons.1 hx with rfl | hold
  · exact hl
  · exact h x (List.mem_filter.1 hold).1

/-! ### LOAD_ORDER (R274, R277) -/

theorem State.forgetLoad_of_none {s : State} {motif : Nat} (h : s.doneLoad motif = none) : s.forgetLoad motif = s := by
  have hall : s.motifs.doneLoads.filter (fun l => l.motif ≠ motif) = s.motifs.doneLoads :=
    List.filter_eq_self.2 fun l hl => by simpa using List.find?_eq_none.1 h l hl
  rw [State.forgetLoad, hall]

/-- The load that an order begins on a module. -/
def State.ordered (s : State) (source : Nat) (o : LoadOrder) : LoadState :=
  { LoadState.begin o.motif o.replace (s.motif o.motif) with source := source, order := some o }

/-- A new load either has no room or reads the region's header. -/
theorem State.takeOrder_of_new {s : State} {l : LoadState} (o : LoadOrder) (hreplace : l.replace = false) (hdone : s.doneLoad l.motif = none)
    (hprick : l.prick = none) (hphase : l.phase = 0) :
    s.takeOrder l o = if s.shortOfRoom { l with order := some o } o.entry then
      (s.setLoad { l with order := some o }).loadFailed { l with order := some o } stNoRoom s.machineId else s.fetch { l with order := some o } 0 64 := by
  simp only [State.takeOrder, hreplace, hprick, hphase, Bool.false_and, Bool.false_eq_true, if_false, State.forgetLoad_of_none hdone, Option.isSome_none]

theorem exec_loadOrder_elsewhere {s : State} {source : Nat} {o : LoadOrder} (ho : o.motif < 16) (h : s.holder o.entry.machineId ≠ s.machineId) :
    exec (.loadOrder source o) s = .next s := by
  show execLoadOrder source o s = _
  rw [execLoadOrder, decide_eq_true ho, if_pos h]
  rfl

section Order
variable {s : State} {source : Nat} {o : LoadOrder} (ho : o.motif < 16) (hhere : s.holder o.entry.machineId = s.machineId) (hnone : s.loadOf o.motif = none)
  (hdone : s.doneLoad o.motif = none) (hkeep : o.replace = false)
include ho hhere hnone hdone hkeep

theorem exec_loadOrder_takes :
    exec (.loadOrder source o) s = .next (if s.shortOfRoom (s.ordered source o) o.entry then
      (s.setLoad (s.ordered source o)).loadFailed (s.ordered source o) stNoRoom s.machineId else s.fetch (s.ordered source o) 0 64) := by
  show execLoadOrder source o s = _
  rw [execLoadOrder, decide_eq_true ho, if_neg (not_not_intro hhere), hdone]
  simp only [Option.filter_none, hnone, Option.isSome_none, Bool.false_eq_true, if_false]
  rw [State.takeOrder_of_new o hkeep hdone rfl rfl]
  rfl

end Order

/-- A load whose first read goes out over the load queue pair (R274, R341). -/
theorem State.fetch_of_room {s : State} {l : LoadState} {o : LoadOrder} {qp off len : Nat} (hqp : s.loadQp = some qp) (horder : l.order = some o) (hlen : len ≠ 0)
    (hroom : s.readRoom qp = true) :
    s.fetch l off len = (s.setLoad { l with want := len, via := qp, waits := none }).toHost (.readRequest qp 1 l.motif (o.regionAddr + off) o.rkey len) := by
  simp only [State.fetch, hqp, horder, if_neg hlen, if_pos hroom]

/-- A load that ends on this module changes the arrays and the motifs alone (R277). -/
theorem State.releaseLoad_frame (s : State) {l : LoadState} (hreplace : l.replace = false) :
    s.releaseLoad l = { s with arrays := (s.releaseLoad l).arrays, motifs := (s.releaseLoad l).motifs } := by
  rw [State.releaseLoad, hreplace]
  dsimp only
  split
  · next h => nomatch h
  · split
    · rfl
    · rw [State.freeArrays_frame]
      rfl

/-- The load is gone, and its motif's entry is as it was before (R277). -/
theorem State.releaseLoad_motifs (s : State) {l : LoadState} (hreplace : l.replace = false) :
    (s.releaseLoad l).motifs =
      { s.motifs with loads := (s.dropLoad l).motifs.loads, table := Tab.put MotifEntry.init s.motifs.table l.motif l.prior } := by
  rw [State.releaseLoad, hreplace]
  dsimp only
  split
  · next h => nomatch h
  · split
    · rfl
    · rw [State.freeArrays_frame]
      rfl

theorem State.releaseLoad_arrays (s : State) {l : LoadState} (hreplace : l.replace = false) (hshard : l.shard = none) :
    (s.releaseLoad l).arrays = s.arrays := by
  rw [State.releaseLoad, hreplace, hshard]
  dsimp only
  split
  · next h => nomatch h
  · split <;> rfl

theorem State.releaseLoad_loadOf (s : State) {l : LoadState} (hreplace : l.replace = false) (hproper : l.proper = true) :
    (s.releaseLoad l).loadOf l.motif = none :=
  (State.loadOf_congr (s := s.dropLoad l) (by rw [State.releaseLoad_motifs s hreplace]) _).trans (State.dropLoad_loadOf s hproper)

theorem State.releaseLoad_motif (s : State) {l : LoadState} (hreplace : l.replace = false) : (s.releaseLoad l).motif l.motif = l.prior := by
  rw [State.motif, State.releaseLoad_motifs s hreplace]
  exact Tab.get_put_same ..

/-- What messages change, after a change of the motifs alone. -/
theorem State.frame_of_motifs {s u t : State} (hu : u = { s with motifs := u.motifs }) (ht : t = { u with fabric := t.fabric }) :
    t = { s with motifs := t.motifs, fabric := t.fabric } := by
  have hmotifs : t.motifs = u.motifs := by rw [ht]
  rw [hmotifs]
  exact ht.trans (by rw [hu])

/-- A load that fails on a module other than the head is reported to its source (R277). -/
theorem State.loadFailed_reported {s : State} {l : LoadState} (hreplace : l.replace = false) (hproper : l.proper = true) (hmailbox : l.mailbox = none)
    (hshard : l.shard = none) (status detail : Nat) :
    let t := s.loadFailed l status detail
    t.loadOf l.motif = none ∧ t.motif l.motif = l.prior ∧
      t.fabric.out = s.msg l.source none (.loadReport (l.report s.machineId status detail)) :: s.fabric.out ∧
      t = { s with motifs := t.motifs, fabric := t.fabric } := by
  have hframe : s.releaseLoad l = { s with motifs := (s.releaseLoad l).motifs } := by
    rw [← State.releaseLoad_arrays s hreplace hshard]
    exact State.releaseLoad_frame s hreplace
  have hloads := State.releaseLoad_loadOf s hreplace hproper
  have hprior := State.releaseLoad_motif s hreplace
  have hfailed : s.loadFailed l status detail =
      (s.releaseLoad l).send ((s.releaseLoad l).msg l.source none (.loadReport (l.report s.machineId status detail))) := by
    simp only [State.loadFailed, hmailbox]
  dsimp only
  rw [hfailed]
  generalize s.releaseLoad l = u at *
  have hmsg : ∀ body, u.msg l.source none body = s.msg l.source none body := fun body => by
    rw [hframe]
    rfl
  rw [hmsg]
  refine ⟨(State.loadOf_congr (by rw [State.send_frame]) _).trans hloads, ?_, ?_, State.frame_of_motifs hframe (State.send_frame ..)⟩
  · rw [State.send_frame]
    exact hprior
  · rw [State.send_out, hframe]

/-- A mailbox after a completion is an old one or has no command. -/
theorem State.mem_complete_boxes {s : State} {m : Nat} (status detail progress result : Nat) (hfree : (s.box m).records - (s.box m).readCount < 16383)
    (hbreak : s.cfg.breakQps = false) {b : Nat × Mailbox} (hb : b ∈ (s.complete m status detail progress result).boxes.box) :
    b.2.cur = none ∨ b ∈ s.boxes.box := by
  have hput : (s.complete m status detail progress result).boxes =
      (s.setBox m (finishBox m s.now (s.box m) { status := status, detail := detail % 2 ^ 32, progress := progress, result := result })).boxes := by
    rw [State.complete_eq _ _ _ _ hfree hbreak]
    split
    · exact State.sendSync_boxes ..
    · rfl
  rw [hput] at hb
  refine (Tab.mem_put hb).imp_left fun hnew => ?_
  rw [hnew]
  rfl

theorem State.opensFail_of_none {s : State} (motif : Nat) (h : ∀ b ∈ s.boxes.box, activeCmd b.2 opSeqOpen = false) : s.opensFail motif = s := by
  unfold State.opensFail
  split
  · rfl
  · rw [List.filter_eq_nil_iff.2 fun b hb => by simp [h b hb]]
    rfl

/-- A load that fails completes the head's command with the generation in force as its result, and its motif's entry is as it was (R77, R277). -/
theorem State.loadFailed_completes {s : State} {l : LoadState} {m : Nat} {e : Bytes} (hreplace : l.replace = false) (hproper : l.proper = true)
    (hmailbox : l.mailbox = some m) (h : Ready s m 0x20 e) (he : entryMotif e = l.motif) (hopens : ∀ b ∈ s.boxes.box, activeCmd b.2 opSeqOpen = false)
    (status detail : Nat) :
    let t := s.loadFailed l status detail
    Completes s t m status (detail % 2 ^ 32) (s.box m).progress (if l.prior.state = 2 ∨ l.prior.state = 3 then l.prior.gen.toNat else 0) ∧
      t.loadOf l.motif = none ∧ t.motif l.motif = l.prior := by
  have hloads := State.releaseLoad_loadOf s hreplace hproper
  have hprior := State.releaseLoad_motif s hreplace
  obtain ⟨others, hfailed⟩ : ∃ others, s.loadFailed l status detail =
      (((s.releaseLoad l).sendAll others none (.loadReport (l.report s.machineId status detail))).failCmd m status detail).opensFail l.motif := by
    simp only [State.loadFailed, hmailbox]
    exact ⟨_, rfl⟩
  have hframe := State.releaseLoad_frame s hreplace
  have hsent := State.sendAll_frame (s.releaseLoad l) others none (.loadReport (l.report s.machineId status detail))
  dsimp only
  rw [hfailed]
  generalize s.releaseLoad l = u at *
  generalize u.sendAll _ _ _ = v at *
  have hboxes : v.boxes = s.boxes := by rw [hsent, hframe]
  have hbox : v.box m = s.box m := by
    rw [State.box, hboxes]
    rfl
  have hready : Ready v m 0x20 e := by
    unfold Ready
    rw [hbox, hsent, hframe]
    exact h
  have hmotif : v.motif l.motif = l.prior := by
    rw [hsent]
    exact hprior
  have hresult : v.resultOf e = if l.prior.state = 2 ∨ l.prior.state = 3 then l.prior.gen.toNat else 0 := by
    simp [State.resultOf, h.entryOp_eq, opSeqAppend, opSeqGenerate, opMotifLoad, he, hmotif]
  obtain ⟨hcompletes, -⟩ := hready.failCmd status detail rfl hresult
  rw [State.opensFail_of_none]
  · refine ⟨hbox ▸ hcompletes.of_boxes (by rw [hsent, hframe]; rfl) hboxes, ?_, ?_⟩
    · exact (State.loadOf_congr (s := u) (by rw [State.failCmd_motifs, hsent]) _).trans hloads
    · rw [State.motif, State.failCmd_motifs]
      exact hmotif
  · intro b hb
    rcases State.mem_complete_boxes _ _ _ _ hready.free hready.breakQps hb with hnone | hold
    · rw [activeCmd, hnone]
    · exact hopens b (hboxes ▸ hold)

/-! ### What a transfer answers (R63, R344) -/

/-- A change of the mailboxes and messages after one of the port alone. -/
theorem State.frame_of_port {s u t : State} (hu : u = { s with port := u.port }) (ht : t = { u with boxes := t.boxes, fabric := t.fabric }) :
    t = { s with boxes := t.boxes, fabric := t.fabric, port := t.port } := by
  have hport : t.port = u.port := by rw [ht]
  rw [hport]
  exact ht.trans (by rw [hu])

/-- A queue pair whose transfer was answered counts its retries from 0 again. -/
def State.answered (s : State) (qp : Nat) : State := s.setQp qp fun q => { q with retries := 0 }

theorem exec_rdmaResponse_good {s : State} {qp : Nat} (kind owner : Nat) (data : Bytes) (hqp : s.qpOk qp = true) :
    exec (.rdmaResponse qp kind owner true data) s = .next
      (if kind = 0 then (s.answered qp).cmdAnswered owner qp true data else (s.answered qp).fetchAnswered owner qp true data).fetchWaiting := by
  show execRdmaResponse qp kind owner true data s = _
  rw [execRdmaResponse, hqp]
  rfl

theorem exec_rdmaResponse_bad {s : State} {qp : Nat} (owner : Nat) (data : Bytes) :
    exec (.rdmaResponse qp 0 owner false data) s = .next (s.cmdAnswered owner qp false data).fetchWaiting := rfl

section Answer
variable {s : State} {owner qp : Nat} {data : Bytes} {c : Cmd} (hcur : (s.box owner).cur = some c) (hvia : c.via = qp)
include hcur hvia

theorem State.cmdAnswered_read (hxfer : c.xfer = .reading) (hlen : data.length = c.want) :
    s.cmdAnswered owner qp true data = s.setCmd owner fun c => { c with xfer := .readDone, data := data } := by
  rw [State.cmdAnswered, hcur]
  simp only [hvia, hxfer, hlen, ne_eq, not_true_eq_false, if_false, Bool.not_true, Bool.false_eq_true]

theorem State.cmdAnswered_unread (hxfer : c.xfer = .reading) :
    s.cmdAnswered owner qp false data = s.setCmd owner fun c => { c with xfer := .readFailed } := by
  rw [State.cmdAnswered, hcur]
  simp only [hvia, hxfer, ne_eq, not_true_eq_false, if_false, Bool.not_false, if_true]

theorem State.cmdAnswered_written (hxfer : c.xfer = .writing) (hwait : (s.box owner).doneWait = none) (ok : Bool) :
    s.cmdAnswered owner qp ok data = if ok then s.okCmd owner 0 else s.failCmd owner stBufFail 0 := by
  rw [State.cmdAnswered, hcur]
  simp only [hvia, hxfer, hwait, ne_eq, not_true_eq_false, if_false, Option.isSome_none, Bool.false_eq_true]

end Answer

/-- The shard's bytes have come, and the load goes on from them (R274). -/
theorem State.fetchAnswered_shard {s : State} {motif qp : Nat} {l : LoadState} {data : Bytes} (hl : s.loadOf motif = some l) (hvia : l.via = qp)
    (hwant : l.want ≠ 0) (hdone : l.fetchDone = false) (hphase : l.phase = 2) (hlen : data.length = l.want) :
    s.fetchAnswered motif qp true data = s.setLoad { l with fetched := data, fetchDone := true, want := 0 } := by
  have hopen : ¬ (l.via ≠ qp ∨ l.want = 0 ∨ l.fetchDone = true) := by simp [hvia, hwant, hdone]
  rw [State.fetchAnswered, hl]
  simp only [if_neg hopen, Bool.not_true, Bool.false_eq_true, if_false, hlen, ne_eq, not_true_eq_false, State.fetched, hphase]
  rfl

/-! ### LOAD_REPORT (R77, R277, R288) -/

section Report
variable {s : State} {r : LoadReport} {l : LoadState} {p : Pricking} {m : Nat} (hl : s.loadOf r.motif = some l) (hmailbox : l.mailbox = some m)
  (hprick : l.prick = some p) (hparty : ∃ x ∈ p.shards, s.holder x.machineId = r.machine)
include hl hmailbox hprick hparty

/-- What the head does with the report of a module of the placement. -/
theorem exec_loadReport_of_party :
    exec (.loadReport r) s = .next (if r.status ≠ stOk then s.loadFailed l r.status r.detail
      else if decide (r.programmed = 0) && (p.groups.filterMap s.spareOf).contains r.machine then s.noteMirrored r.motif r.machine
      else s.takeProgress l m r) := by
  obtain ⟨x, hx, hholder⟩ := hparty
  have hin : (s.loadParties p).contains r.machine = true := by
    refine List.contains_iff_mem.2 (List.mem_dedup.2 (List.mem_append_left _ (List.mem_map.2 ⟨x, hx, hholder⟩)))
  have hany : (p.shards.any fun e => s.holder e.machineId = r.machine) = true := List.any_eq_true.2 ⟨x, hx, decide_eq_true hholder⟩
  show execLoadReport r s = _
  rw [execLoadReport, hl]
  simp only [hmailbox, hprick, hin, hany, Bool.not_true, Bool.false_eq_true, if_false, if_true]

theorem exec_loadReport_fails (hstatus : r.status ≠ stOk) : exec (.loadReport r) s = .next (s.loadFailed l r.status r.detail) := by
  rw [exec_loadReport_of_party hl hmailbox hprick hparty, if_pos hstatus]

theorem exec_loadReport_mirrors (hstatus : r.status = stOk) (hspare : r.programmed = 0 ∧ r.machine ∈ p.groups.filterMap s.spareOf) :
    exec (.loadReport r) s = .next (s.setLoad { l with mirrored := Tab.put 0 l.mirrored r.machine (Tab.get 0 l.mirrored r.machine + 1) }) := by
  rw [exec_loadReport_of_party hl hmailbox hprick hparty, if_neg (not_not_intro hstatus), if_pos (by simpa using hspare), State.noteMirrored, hl]

theorem exec_loadReport_progresses (hstatus : r.status = stOk) (hspare : ¬ (r.programmed = 0 ∧ r.machine ∈ p.groups.filterMap s.spareOf)) :
    exec (.loadReport r) s = .next (s.takeProgress l m r) := by
  rw [exec_loadReport_of_party hl hmailbox hprick hparty, if_neg (not_not_intro hstatus), if_neg (by simpa using hspare)]

end Report

/-- The LOAD record of a report, where a slot is free (R77). -/
theorem State.loadRecord_spec (s : State) (m : Nat) (r : LoadReport) :
    ((s.box m).records - (s.box m).readCount < 16383 → ((s.loadRecord m r).box m).records = (s.box m).records + 1 ∧
      Tab.get (zeros 64) ((s.loadRecord m r).box m).results (1 + (s.box m).records % 16383) = recordBytes m (s.box m) 3 s.now
        [(0x18, 4, r.machine), (0x1C, 4, r.programmed), (0x20, 4, r.shardArrays), (0x24, 4, r.reprogrammed), (0x28, 4, r.remapped)]) ∧
      (∀ k, k ≠ m → (s.loadRecord m r).box k = s.box k) ∧ s.loadRecord m r = { s with boxes := (s.loadRecord m r).boxes } := by
  unfold State.loadRecord
  split
  · next hfull =>
    exact ⟨fun hfree => absurd hfull (by simp only [freeSlots, Config.resultSlots]; omega), fun _ _ => rfl, rfl⟩
  · refine ⟨fun _ => ?_, fun k hk => by rw [State.setBox_box, if_neg hk], rfl⟩
    rw [State.setBox_box, if_pos rfl]
    refine ⟨rfl, ?_⟩
    simp only [putRecord, Config.resultSlots, Tab.get_put_same]

/-- A report of progress is a LOAD record and the progress of the command (R77). -/
theorem State.takeProgress_spec (s : State) (l : LoadState) (m : Nat) (r : LoadReport) :
    let t := s.takeProgress l m r
    (t.box m).progress = ((Tab.put 0 l.progress r.machine r.programmed).map (·.2)).sum ∧
      ((s.box m).records - (s.box m).readCount < 16383 → (t.box m).records = (s.box m).records + 1 ∧
        Tab.get (zeros 64) (t.box m).results (1 + (s.box m).records % 16383) = recordBytes m (s.box m) 3 s.now
          [(0x18, 4, r.machine), (0x1C, 4, r.programmed), (0x20, 4, r.shardArrays), (0x24, 4, r.reprogrammed), (0x28, 4, r.remapped)]) ∧
      (∀ k, k ≠ m → t.box k = s.box k) ∧ t = { s with boxes := t.boxes, motifs := { s.motifs with loads := t.motifs.loads } } := by
  obtain ⟨l', ht⟩ : ∃ l', s.takeProgress l m r = ((s.setLoad l').loadRecord m r).setProgress m ((Tab.put 0 l.progress r.machine r.programmed).map (·.2)).sum :=
    ⟨_, rfl⟩
  obtain ⟨hrecord, hother, hframe⟩ := State.loadRecord_spec (s.setLoad l') m r
  rw [ht]
  dsimp only
  generalize (s.setLoad l').loadRecord m r = u at *
  have hbox : ∀ n k, (u.setProgress m n).box k = if k = m then touchBox { u.box m with progress := n } u.now else u.box k :=
    fun n k => State.setBox_box ..
  refine ⟨by rw [hbox, if_pos rfl]; rfl, fun hfree => ?_, fun k hk => ?_, ?_⟩
  · rw [hbox, if_pos rfl]
    exact hrecord hfree
  · rw [hbox, if_neg hk]
    exact hother k hk
  · have hset : ∀ n, u.setProgress m n = { u with boxes := (u.setProgress m n).boxes } := fun n => rfl
    have hmotifs : u.motifs = { s.motifs with loads := u.motifs.loads } := by
      rw [hframe]
      rfl
    refine (hset _).trans ?_
    rw [State.setProgress_motifs, ← hmotifs, hframe]
    rfl

/-- Settles O32: a module takes an order or reports that it has no room; a transfer's answer goes to its command or its load; the head takes a report
of progress, of a group mirror's copy or of a failure. -/
theorem loadOrdersTransfersAndReports : Obligations.LoadOrdersTransfersAndReports := by
  unfold Obligations.LoadOrdersTransfersAndReports
  refine ⟨?order, ?command, ?fetch, ?report⟩
  case order =>
    intro source o s ho
    refine ⟨exec_loadOrder_elsewhere ho, fun qp hhere hnone hdone hkeep hroom hqp hread => ?_, fun hhere hnone hdone hkeep hroom => ?_⟩
    · refine ⟨_, (exec_loadOrder_takes (source := source) ho hhere hnone hdone hkeep).trans
        (congrArg _ ((if_neg (by rw [State.ordered, hroom]; nofun)).trans (State.fetch_of_room hqp rfl (by decide) hread))), rfl, ?_, rfl⟩
      exact State.setLoad_loadOf s (l := { s.ordered source o with want := 64, via := qp, waits := none }) rfl
    · have hexec := (exec_loadOrder_takes (source := source) ho hhere hnone hdone hkeep).trans (congrArg _ (if_pos (by rw [State.ordered, hroom])))
      exact ⟨_, hexec, State.loadFailed_reported (l := s.ordered source o) hkeep rfl rfl rfl stNoRoom s.machineId⟩
  case command =>
    intro qp owner data c s hcur hvia hqp hwaits
    refine ⟨fun hxfer => ⟨fun hlen => ?_, ?_⟩, fun hxfer h => ?_⟩
    · have hexec := exec_rdmaResponse_good 0 owner data hqp
      rw [if_pos rfl, State.cmdAnswered_read (s := s.answered qp) hcur hvia hxfer hlen] at hexec
      refine ⟨_, exec_of_none_waiting hexec hwaits, ?_, fun k hk => ?_, rfl, rfl⟩
      · rw [State.setCmd_box, if_pos rfl]
        exact congrArg (Option.map _) hcur
      · rw [State.setCmd_box, if_neg hk]
        rfl
    · have hexec := exec_rdmaResponse_bad (s := s) (qp := qp) owner data
      rw [State.cmdAnswered_unread hcur hvia hxfer] at hexec
      refine ⟨_, exec_of_none_waiting hexec hwaits, ?_, fun k hk => ?_, rfl⟩
      · rw [State.setCmd_box, if_pos rfl]
        exact congrArg (Option.map _) hcur
      · rw [State.setCmd_box, if_neg hk]
    obtain ⟨-, -, -, -, hwait, -⟩ := id h
    refine ⟨?_, ?_⟩
    · have hready : Ready (s.answered qp) owner (entryOp c.entry) c.entry := h
      obtain ⟨hcompletes, hframe⟩ := hready.complete 0 0 (s.box owner).target 0 rfl
      have hexec := exec_rdmaResponse_good 0 owner data hqp
      rw [if_pos rfl, State.cmdAnswered_written (s := s.answered qp) hcur hvia hxfer hwait, if_pos rfl] at hexec
      refine ⟨_, exec_of_none_waiting hexec (by rw [State.okCmd_motifs]; exact hwaits), hcompletes.of_boxes rfl rfl, congrArg State.port hframe, ?_⟩
      exact State.frame_of_port rfl hframe
    · obtain ⟨hcompletes, hframe⟩ := h.failCmd stBufFail 0 rfl rfl
      have hexec := exec_rdmaResponse_bad (s := s) (qp := qp) owner data
      rw [State.cmdAnswered_written hcur hvia hxfer hwait, if_neg nofun] at hexec
      exact ⟨_, exec_of_none_waiting hexec (by rw [State.failCmd_motifs]; exact hwaits), hcompletes, hframe⟩
  case fetch =>
    intro qp kind motif data l s hkind hl hwant hdone hvia hqp hwaits hphase hlen
    have hexec := exec_rdmaResponse_good kind motif data hqp
    obtain ⟨hmotif, hproper, hmem⟩ := State.loadOf_spec hl
    rw [if_neg hkind, State.fetchAnswered_shard (s := s.answered qp) hl hvia hwant hdone hphase hlen] at hexec
    refine ⟨_, exec_of_none_waiting hexec (State.setLoad_waits hwaits (hwaits l hmem)), ?_, rfl, rfl⟩
    rw [← hmotif]
    exact State.setLoad_loadOf _ (l := { l with fetched := data, fetchDone := true, want := 0 }) hproper
  case report =>
    intro r l p m s hl hmailbox hprick hparty
    obtain ⟨hmotif, hproper, -⟩ := State.loadOf_spec hl
    refine ⟨fun hstatus hspare => ?_, fun hstatus hspare => ?_, fun e hstatus h he hreplace hopens => ?_⟩
    · refine ⟨_, exec_loadReport_mirrors hl hmailbox hprick hparty hstatus hspare, ?_, rfl⟩
      rw [← hmotif]
      exact State.setLoad_loadOf s hproper
    · exact ⟨_, exec_loadReport_progresses hl hmailbox hprick hparty hstatus hspare, State.takeProgress_spec s l m r⟩
    · refine ⟨_, exec_loadReport_fails hl hmailbox hprick hparty hstatus, ?_⟩
      rw [← hmotif]
      exact State.loadFailed_completes hreplace hproper hmailbox h (he.trans hmotif.symm) hopens _ _

end Sys2Proof.Machine

namespace Sys2Proof.Machine

/- The theorems of this part are elaborated one after another: side by side they need more memory than the check has left beside the tests above. -/
set_option Elab.async false

/-! ### A lost module's ROLE ends the steps it leaves without pages (R207, R269, R293) -/

/-- A motif headed here of one layer, whose only page home is module 5 of another group. -/
def farPricking : Pricking :=
  { vocabDigest := 7, vocabSize := 256, width := 1024, head := 0xFFFF, tail := 0xFFFF, kvI8 := false, frameKib := 64, shards := [], digest := []
    layers := [{ layer := 0, headDim := 128, pairing := 0, gainTap := 4, retry := false, w3 := false, fallback := true, baseFormat := 2, k := 1, owner := 5,
                 qHeads := 1, kvHeads := 1, returnWindows := 2, fbWindow := 16, ovrLimit := 1, nsatLimit := 1, zeroedLimit := 1, attnMode := 0, window := 0,
                 lambda := 0, spread := [5], headSeed := 0 }] }

/-- The step in flight of the sequence that has pages there. -/
def farStep : StepTag := { step := 1, seq := 0, motif := 0, gen := 1, layer := 0, lineage := 0, companion := none }

/-- The head of the motif, with a sequence of two tokens, its step in flight, and a flagged word of that step's staging. -/
def farState : State :=
  { State.reset.setMotif 0 { MotifEntry.init with state := 2, gen := 1, prick := some farPricking } with
    seqs := { State.reset.seqs with open_ := [{ Seq.start 0 0 0 false none none { temp := 0, topK := 0, topP := 0 } with tokens := [3, 4] }] }
    steps := { State.reset.steps with live := [State.reset.freshStep farStep] }
    mem := { State.reset.mem with flaggedStaging := [(0, 0, some farStep)] } }

/-- The ROLE that tells the loss of module 5. -/
def farRole : RoleMsg := { machine := 5, holder := 6, firstLayer := 0, lastLayer := 0, reason := roleReason 1 }

/-- What a ROLE that tells a loss does on a module that is no spare (R261, R293, R299). -/
theorem exec_role_of_lost {s : State} {r : RoleMsg} (hother : r.machine ≠ s.machineId) (hspare : s.role ≠ 1) (hreason : r.reason = roleReason 1)
    (hmoves : s.holder r.machine ≠ r.holder) (haway : r.holder ≠ r.machine) :
    exec (.role r) s = .next ((((((s.learnLost r.machine).moveRole r.machine r.holder true).noteSpare r.machine r.holder).feedTakeover r.machine r.holder
      fun _ => false).sendFrames r.holder (lostPages r.machine)).endLost) := by
  have hlost : ((s.fabric.missing.contains r.machine || decide (r.reason = roleReason 1)) &&
      decide (s.holder r.machine ≠ r.holder ∧ r.holder ≠ r.machine)) = true := by
    rw [decide_eq_true hreason, decide_eq_true ⟨hmoves, haway⟩, Bool.or_true]
    rfl
  show execRole r s = _
  rw [execRole, if_neg hother, if_neg fun h => hspare h.1, if_neg fun h => hspare h.1]
  simp only [hlost, if_true]

/-- The step has no pages left, so it ends, and what was staged for it is dropped, its flag among it. -/
theorem farState_flag_dropped :
    (((((farState.learnLost 5).moveRole 5 6 true).noteSpare 5 6).feedTakeover 5 6 fun _ => false).sendFrames 6 (lostPages 5)).endLost.mem.flaggedStaging = [] := by
  decide

/-- Refutes O36: a ROLE that tells the loss of the only home of a sequence's pages ends the step in flight on its head, and ending it drops the flag of that
step's staging, which is part of the memory that the statement says stays as it is. -/
theorem not_rolesMoveAndReturn : ¬ Obligations.RolesMoveAndReturn := by
  unfold Obligations.RolesMoveAndReturn
  rintro ⟨-, hroles, -⟩
  obtain ⟨-, -, hlost⟩ := hroles farRole farState
  obtain ⟨t, hexec, -, hmem⟩ := hlost (by decide) (by decide) (by decide) (by decide) (.inr rfl) (by decide)
  rw [exec_role_of_lost (by decide) (by decide) rfl (by decide) (by decide)] at hexec
  have hkept : t.mem.flaggedStaging = [(0, 0, some farStep)] := by
    rw [hmem]
    rfl
  cases hexec
  exact absurd (farState_flag_dropped.symm.trans hkept) nofun

end Sys2Proof.Machine

namespace Sys2Proof.Machine

/- The theorems of this part are elaborated one after another: side by side they need more memory than the check has left beside the tests above. -/
set_option Elab.async false

/-! ### The converter's code (R91, R154) -/

theorem tapEdge_succ (taps : Tab Nat) (k : Nat) : tapEdge taps (k + 1) = tapEdge taps k + (48 + Tab.get 16 taps k) := by
  simp [tapEdge, List.range_succ]

theorem tapEdge_mono (taps : Tab Nat) : Monotone (tapEdge taps) :=
  monotone_nat_of_le_succ fun k => by rw [tapEdge_succ]; omega

theorem tapEdge_nominal (k : Nat) : tapEdge [] k = 64 * k := by
  induction k with
  | zero => rfl
  | succ k ih => rw [tapEdge_succ, ih]; simp [Tab.get]; omega

/-- The fine steps whose edges lie at or below a charge are the first `f`, as the edges rise. -/
theorem fineStep_eq {taps : Tab Nat} {u r f : Nat} (hf : f < 16) (hlow : tapEdge taps f * u ≤ 64 * r)
    (hhigh : f = 15 ∨ 64 * r < tapEdge taps (f + 1) * u) : fineStep taps u r = f := by
  have hedge : ∀ k < 15, tapEdge taps (k + 1) * u ≤ 64 * r ↔ k < f := by
    intro k hk
    constructor
    · intro h
      by_contra hkf
      have := Nat.mul_le_mul_right u (tapEdge_mono taps (show f + 1 ≤ k + 1 by omega))
      omega
    · intro h
      exact (Nat.mul_le_mul_right u (tapEdge_mono taps (show k + 1 ≤ f by omega))).trans hlow
  rw [fineStep, List.filter_congr (q := fun k => decide (k < f)) fun k hk => decide_eq_decide.mpr (hedge k (List.mem_range.mp hk)),
    ← List.countP_eq_length_filter]
  interval_cases f <;> rfl

/-- Within its range a converter gives the group of 16 codes in which the charge lies, and the fine step in it. -/
theorem quantise_of_group {u : Nat} (hu : 0 < u) {y : Int} (taps : Tab Nat) {group r f : Nat} (hg : group < 16) (hr : r < 32 * u) (hf : f < 16)
    (hy : 2 * y = -257 * (u : Int) + 32 * (u : Int) * group + r) (hlow : tapEdge taps f * (2 * u) ≤ 64 * r)
    (hhigh : f = 15 ∨ 64 * r < tapEdge taps (f + 1) * (2 * u)) : quantise taps u y = (16 * (group : Int) + f - 128, false) := by
  have hspan : 32 * (u : Int) * group ≤ 32 * (u : Int) * 15 := mul_le_mul_of_nonneg_left (by omega) (by omega)
  have hspan0 : 0 ≤ 32 * (u : Int) * group := by positivity
  have hx : (2 * y + 257 * (u : Int)).toNat = r + 32 * u * group := by
    have : 2 * y + 257 * (u : Int) = ((r + 32 * u * group : Nat) : Int) := by push_cast; omega
    rw [this, Int.toNat_natCast]
  rw [quantise, if_neg (by omega), if_neg (by omega)]
  simp only [hx, Nat.add_mul_div_left _ _ (show 0 < 32 * u by omega), Nat.div_eq_of_lt hr, Nat.add_mul_mod_self_left, Nat.mod_eq_of_lt hr,
    fineStep_eq hf hlow hhigh]
  push_cast
  simp

/-- Settles O21, by the group of 16 codes and the fine step in which a charge lies; the nominal edges are one least significant bit apart. -/
theorem converterCodes : Obligations.ConverterCodes := by
  unfold Obligations.ConverterCodes
  intro u y hu
  refine ⟨fun taps => ⟨fun h => if_pos h, fun h => ?_⟩, fun k hk hk' hlow hhigh => ?_, ?_⟩
  · rw [quantise, if_neg (by omega), if_pos h]
  · obtain ⟨n, hn⟩ : ∃ n : Nat, k = n - 128 := ⟨(k + 128).toNat, by omega⟩
    obtain ⟨d, hd⟩ : ∃ d : Nat, 2 * y = (2 * k - 1) * (u : Int) + d := ⟨(2 * y - (2 * k - 1) * (u : Int)).toNat, by omega⟩
    have hdu : d < 2 * u := by
      have : (2 * k + 1) * (u : Int) = (2 * k - 1) * (u : Int) + 2 * u := by ring
      omega
    have hsplit : (n : Int) = 16 * (n / 16 : Nat) + (n % 16 : Nat) := by omega
    have hfine : n % 16 * (2 * u) ≤ 15 * (2 * u) := Nat.mul_le_mul_right _ (by omega)
    have h := quantise_of_group hu (y := y) [] (group := n / 16) (r := n % 16 * (2 * u) + d) (f := n % 16) (by omega) (by omega) (by omega)
      (by rw [hd, hn, hsplit]; push_cast; ring) (by rw [tapEdge_nominal, mul_assoc]; omega)
      (.inr (by rw [tapEdge_nominal, mul_assoc, add_mul]; omega))
    rw [h, hn]
    congr 1
    omega
  · exact fun taps group r f hg hr hf hy hlow hhigh => quantise_of_group hu taps hg hr hf hy hlow hhigh

end Sys2Proof.Machine

namespace Sys2Proof.Machine

/- The theorems of this part are elaborated one after another: side by side they need more memory than the check has left beside the tests above. -/
set_option Elab.async false

/-! ### Objects that the module has, and arrays after a write -/

theorem need_of {ok : Bool} (h : ok = true) (f : Fault) (t : State) : need ok f t = .next t := if_pos h

theorem need_array {a : Nat} (h : a < 32768) (f : Fault) (t : State) : need (decide (a < Config.arrays)) f t = .next t := need_of (decide_eq_true h) f t

theorem State.setPhys_same (s : State) (p : Nat) (v : PhysArray) : (s.setPhys p v).phys p = v := (State.setPhys_phys ..).trans (if_pos rfl)

theorem State.setPhys_other (s : State) {p q : Nat} (v : PhysArray) (hq : q ≠ p) : (s.setPhys p v).phys q = s.phys q :=
  (State.setPhys_phys ..).trans (if_neg hq)

theorem State.setArray_same (s : State) (a : Nat) (v : ArrayState) : (s.setArray a v).array a = v := (State.setArray_array ..).trans (if_pos rfl)

theorem State.setArray_other (s : State) {a b : Nat} (v : ArrayState) (hb : b ≠ a) : (s.setArray a v).array b = s.array b :=
  (State.setArray_array ..).trans (if_neg hb)

/-! ### Retirement of arrays and islands, and degraded service (R115, R117, R118, R384 to R386) -/

/-- A record of a class that is never suppressed is written whatever was written before (R390). -/
theorem State.event_of_neverSuppressed {s : State} {e : Event} (h : neverSuppressed e.cls = true) : s.event e = { s with log := putEvent s e } := by
  rw [State.event, h]
  rfl

theorem State.ev_of_neverSuppressed {cls : Nat} (h : neverSuppressed cls = true) (s : State) (code op kind index : Nat) (detail : Bytes) :
    s.ev cls code op kind index detail =
      { s with log := putEvent s { cls := cls, code := code, op := op, kind := kind, index := index, tag := none, epoch := 0, detail := detail } } :=
  State.event_of_neverSuppressed h

theorem State.physOf_of_workOf {s : State} {a p : Nat} (h : s.workOf a = some p) : s.physOf a = p := by
  unfold State.workOf at h
  split at h
  · cases h
  · exact Option.some.inj h

theorem State.workOf_of_retired {s : State} {a : Nat} (h : s.physOf a ∈ s.arrays.retired) : s.workOf a = none :=
  if_pos (List.contains_iff_mem.2 h)

/-- What the retirement of an index's physical array leaves of the state (R117, R118). -/
theorem State.retireArray_spec {s : State} {a p : Nat} (reason : Nat) (h : s.workOf a = some p) :
    let t := s.retireArray a reason
    t = { s with arrays := t.arrays, log := t.log } ∧ t.arrays.retired = p :: s.arrays.retired ∧ t.arrays.remap = s.arrays.remap ∧
      t.array a = { s.array a with
        service := .out, spare := s.chooseSpare p, onTambour := (s.chooseSpare p).isNone, due := none, retire := none, refreshing := false, hostSet := none,
        dueSuspect := false, dueFault := false, outForService := false } ∧
      (∀ b, b ≠ a → t.array b = s.array b) ∧ t.log.written = s.log.written + 1 := by
  rw [State.retireArray, h]
  dsimp only
  rw [State.event_of_neverSuppressed rfl]
  refine ⟨rfl, rfl, rfl, ?_, fun b hb => ?_, rfl⟩
  · rw [State.setArray_same]
    rfl
  · rw [State.setArray_other _ _ hb]
    rfl

theorem exec_arrayRetire {a reason : Nat} {s : State} (ha : a < 32768) :
    exec (.arrayRetire a reason) s = .next (if (s.array a).retire ≠ some reason then s
      else if (s.drain a).2 then (s.drain a).1.retireArray a reason else (s.drain a).1) :=
  need_of (decide_eq_true ha) _ _

theorem State.drain_of_drained {s : State} {a : Nat} (h : (s.array a).outs = []) : s.drain a = (s, true) := if_pos h

theorem State.drain_of_serving {s : State} {a : Nat} (h : (s.array a).outs ≠ []) (hs : (s.array a).service = .serving) :
    s.drain a = (s.setArray a { s.array a with service := .draining }, false) :=
  (if_neg h).trans (if_pos hs)

theorem exec_islandRetire {i reason : Nat} {s : State} (hi : i < 252) :
    exec (.islandRetire i reason) s = .next (if (s.island i).retire ≠ some reason ∨ (s.island i).state = 2 then s
      else
        let u := (s.setIsland i { s.island i with state := 2, retire := none, forced := false }).handOver i
        u.ev 15 2 0 (islandKind i).1 (islandKind i).2 (leBytes 1 reason ++ leBytes 1 (u.islandsLeft (islandKind i).1))) :=
  need_of (decide_eq_true hi) _ _

/-- The work that an island hands to its peers is that of its own pipeline. -/
theorem State.handOver_eq (s : State) (i : Nat) :
    ∃ pipes, s.handOver i = { s with attn := { s.attn with pipes := pipes } } ∧ ∀ e, e ∈ pipes ↔ e ∈ s.attn.pipes ∧ e.1 + 192 ≠ i := by
  unfold State.handOver
  split
  · exact ⟨_, rfl, fun e => by simp⟩
  · next h => exact ⟨s.attn.pipes, rfl, fun e => (and_iff_left (by omega)).symm⟩

/-- A kind of unit that becomes degraded where no takeover can start (R386). -/
theorem exec_degraded {kind : Nat} {s : State} (hleft : (s.degradedLeft kind).1 = true) (hfirst : kind ∉ s.islands.degraded)
    (hstay : s.spareReady = false ∨ s.role ≠ 0) :
    exec (.degraded kind) s = .next (({ s with islands := { s.islands with degraded := kind :: s.islands.degraded } } : State).ev 15 3 0 kModule 0
      (leBytes 1 kind ++ leBytes 2 (s.degradedLeft kind).2 ++ leBytes 1 0)) := by
  have hstart : (s.spareReady && decide (s.role = 0) && s.take.vacatedTo.isNone && s.take.mailbox.isNone) = false := by
    rcases hstay with h | h <;> simp [h]
  show execDegraded kind s = _
  simp [execDegraded, hleft, hfirst, hstart, b2n]

/-- Settles O41: every unit that meets a condition is taken from service, and its record is of a class that is never suppressed. -/
theorem retirementOfUnits : Obligations.RetirementOfUnits := by
  unfold Obligations.RetirementOfUnits
  refine ⟨fun a p reason s ha => ⟨fun h => ?_, fun h houts hserving => ?_, fun h houts hwork => ?_⟩,
    fun i reason s hi => ⟨fun h => ?_, fun h hstate => ?_⟩,
    fun kind s => ⟨fun h => ?_, fun hleft hfirst hstay => ?_⟩⟩
  · rw [exec_arrayRetire ha, if_pos h]
  · rw [exec_arrayRetire ha, if_neg (not_not.2 h), State.drain_of_serving houts hserving]
    exact ⟨_, rfl, State.setArray_same .., fun b hb => State.setArray_other _ _ hb, rfl⟩
  · rw [exec_arrayRetire ha, if_neg (not_not.2 h), State.drain_of_drained houts]
    obtain ⟨hframe, hretired, hremap, hself, hothers, hlog⟩ := State.retireArray_spec reason hwork
    have hphys : ∀ b, (s.retireArray a reason).physOf b = s.physOf b := fun b => by rw [State.physOf, hremap]; rfl
    have hp := (hphys a).trans (State.physOf_of_workOf hwork)
    refine ⟨_, rfl, State.workOf_of_retired ?_, hp, hretired, ?_, ?_, ?_, ?_, fun b hb => ⟨hothers b hb, hphys b⟩, hlog, hframe⟩
    · exact hp ▸ hretired ▸ List.mem_cons_self
    all_goals exact hself ▸ rfl
  · rw [exec_islandRetire hi, if_pos h]
  · rw [exec_islandRetire hi, if_neg (by simp [h, hstate]), State.ev_of_neverSuppressed rfl]
    obtain ⟨pipes, hhanded, hpipes⟩ := (s.setIsland i { s.island i with state := 2, retire := none, forced := false }).handOver_eq i
    dsimp only
    rw [hhanded]
    exact ⟨_, rfl, (State.setIsland_island ..).trans (if_pos rfl), fun k hk => (State.setIsland_island ..).trans (if_neg hk), rfl, hpipes, rfl⟩
  · show execDegraded kind s = _
    rcases h with h | h <;> simp [execDegraded, h]
  · rw [exec_degraded hleft hfirst hstay, State.ev_of_neverSuppressed rfl]
    exact ⟨_, rfl, rfl, rfl, rfl⟩

/-! ### Vectors latched by an array (R96, R108, R112, R175) -/

theorem State.commitShadow_frame (s : State) (ph : Nat) : s.commitShadow ph =
    { s with arrays := { s.arrays with addr := (s.commitShadow ph).arrays.addr, phys := (s.commitShadow ph).arrays.phys } } := by
  unfold State.commitShadow
  dsimp only
  split
  · rfl
  · split
    · rfl
    · split <;> rfl

/-- A set that comes into force leaves the outputs of every array. -/
theorem State.commitShadow_outs (s : State) (ph a : Nat) : ((s.commitShadow ph).array a).outs = (s.array a).outs := by
  unfold State.commitShadow
  dsimp only
  split
  · rfl
  · split
    · rfl
    · split
      · rw [State.setArray_array]
        split
        · next h => rw [h]; rfl
        · rfl
      · rfl

theorem State.commitShadow_phys_other (s : State) {ph q : Nat} (hq : q ≠ ph) : (s.commitShadow ph).phys q = s.phys q := by
  have hset : ∀ x, (s.setPhys ph x).phys q = s.phys q := fun x => State.setPhys_other _ _ hq
  unfold State.commitShadow
  dsimp only
  split
  · rfl
  · split
    · rfl
    · split <;> exact hset _

theorem State.commitShadow_of_none {s : State} {ph : Nat} (h : (s.phys ph).shadow = none) : s.commitShadow ph = s := by
  rw [State.commitShadow]
  dsimp only
  rw [h]

/-- A READY set that no freeze holds back is committed (R175, R182). -/
theorem State.commitShadow_phys {s : State} {ph : Nat} {c : CoefSet} (h : (s.phys ph).shadow = some c)
    (hfree : (s.phys ph).shadowHost = true ∨ s.arrays.freezeUntil = none) :
    (s.commitShadow ph).phys ph = (s.phys ph).commit c (gainOf s ph) s.now := by
  have hset : ∀ x, (s.setPhys ph x).phys ph = x := fun x => State.setPhys_same ..
  have hgo : (decide ((s.phys ph).calState = 3) && !(s.phys ph).shadowHost && s.arrays.freezeUntil.isSome) = false := by
    rcases hfree with h | h <;> simp [h]
  rw [State.commitShadow]
  dsimp only
  rw [h]
  simp only [hgo, Bool.false_eq_true, if_false]
  split <;> exact hset _

theorem State.atLatch_eq (s : State) (array p : Nat) (v : LiveVector) :
    s.atLatch array p v = s.commitShadow p ∧ latchedOf (s.array array) v.tag = 0 ∧ s.batchOver array = true ∨
      s.atLatch array p v = s ∧ ¬ (latchedOf (s.array array) v.tag = 0 ∧ s.batchOver array = true) := by
  by_cases hfirst : latchedOf (s.array array) v.tag = 0 ∧ s.batchOver array = true
  · exact .inl ⟨if_pos (by simpa using hfirst), hfirst⟩
  · exact .inr ⟨if_neg (by simpa using hfirst), hfirst⟩

theorem State.atLatch_frame (s : State) (array p : Nat) (v : LiveVector) : s.atLatch array p v =
    { s with arrays := { s.arrays with addr := (s.atLatch array p v).arrays.addr, phys := (s.atLatch array p v).arrays.phys } } := by
  rcases s.atLatch_eq array p v with ⟨h, -⟩ | ⟨h, -⟩ <;> rw [h]
  exact s.commitShadow_frame p

theorem State.atLatch_outs (s : State) (array p : Nat) (v : LiveVector) (a : Nat) : ((s.atLatch array p v).array a).outs = (s.array a).outs := by
  rcases s.atLatch_eq array p v with ⟨h, -⟩ | ⟨h, -⟩ <;> rw [h]
  exact s.commitShadow_outs p a

theorem State.atLatch_phys_other (s : State) (array : Nat) {p q : Nat} (v : LiveVector) (hq : q ≠ p) : (s.atLatch array p v).phys q = s.phys q := by
  rcases s.atLatch_eq array p v with ⟨h, -⟩ | ⟨h, -⟩ <;> rw [h]
  exact s.commitShadow_phys_other hq

/-- Without a READY set, or within a batch, nothing comes into force (R175). -/
theorem State.atLatch_same {s : State} {array p : Nat} {v : LiveVector}
    (h : (s.phys p).shadow = none ∨ ¬ (latchedOf (s.array array) v.tag = 0 ∧ s.batchOver array = true)) : s.atLatch array p v = s := by
  rcases s.atLatch_eq array p v with ⟨hcommit, hfirst⟩ | ⟨hsame, -⟩
  · exact hcommit.trans (State.commitShadow_of_none (h.resolve_right (not_not.2 hfirst)))
  · exact hsame

theorem State.atLatch_phys {s : State} {array p : Nat} {v : LiveVector} {c : CoefSet} (h : (s.phys p).shadow = some c)
    (hfirst : latchedOf (s.array array) v.tag = 0 ∧ s.batchOver array = true) (hfree : (s.phys p).shadowHost = true ∨ s.arrays.freezeUntil = none) :
    (s.atLatch array p v).phys p = (s.phys p).commit c (gainOf s p) s.now := by
  rcases s.atLatch_eq array p v with ⟨hcommit, -⟩ | ⟨-, hnot⟩
  · rw [hcommit, State.commitShadow_phys h hfree]
  · exact absurd hfirst hnot

/-- The output that a latched vector gives. -/
def State.latchOut (s : State) (array p : Nat) (v : LiveVector) : ArrayOut :=
  (s.atLatch array p v).evalVector p v ((s.atLatch array p v).tauOf v.tag)

theorem State.evalVector_of_zero (s : State) (p : Nat) {v : LiveVector} (tau : Nat) (h : zeroVector v = true) :
    s.evalVector p v tau = zeroOut v (s.phys p).epoch := if_pos h

theorem State.evalVector_of_nonzero (s : State) (p : Nat) {v : LiveVector} (tau : Nat) (h : zeroVector v = false) :
    s.evalVector p v tau = outOf v tau (s.phys p).epoch (evalPlanes s p v.elems v.bits s.draws) := if_neg (by simp [h])

theorem State.evalVector_vec (s : State) (p : Nat) (v : LiveVector) (tau : Nat) : (s.evalVector p v tau).vec = v := by
  unfold State.evalVector
  split <;> rfl

theorem State.evalVector_epoch (s : State) (p : Nat) (v : LiveVector) (tau : Nat) : (s.evalVector p v tau).epoch = (s.phys p).epoch := by
  unfold State.evalVector
  split <;> rfl

/-- Latching a vector adds its output behind the others and counts its evaluation; beside that only a set comes into force. -/
theorem State.latchVector_spec (s : State) (array p : Nat) (v : LiveVector) :
    let t := s.latchVector array p v
    let o := s.latchOut array p v
    (t.array array).outs = (s.array array).outs ++ [o] ∧ (∀ a, a ≠ array → t.array a = (s.atLatch array p v).array a) ∧
      (∀ q, t.phys q = (s.atLatch array p v).phys q) ∧ t.arrays.dutyUsed = s.arrays.dutyUsed + evalCycles o ∧
      t.arrays.macs = s.arrays.macs + macsOf o ∧ t = { s with arrays := t.arrays, counters := t.counters, draws := t.draws } := by
  have hframe := s.atLatch_frame array p v
  have houts := s.atLatch_outs array p v array
  unfold State.latchVector State.latchOut
  dsimp only
  generalize s.atLatch array p v = u at hframe houts ⊢
  generalize u.evalVector p v (u.tauOf v.tag) = o
  refine ⟨?_, fun a ha => State.setArray_other _ _ ha, fun q => rfl, ?_, ?_, ?_⟩
  · rw [← houts]
    exact congrArg ArrayState.outs (State.setArray_same ..)
  all_goals rw [hframe]; rfl

/-- What an array that serves a vector's tile makes of the vector (R96, R112). -/
theorem exec_vectorLatch {array p : Nat} {v : LiveVector} {s : State} (ha : array < 32768) (hp : s.workOf array = some p) (hok : s.latchOk array v = true) :
    exec (.vectorLatch array v) s = .next (if s.arrays.dutyWait = [] ∧ s.dutyFits array p v then s.latchVector array p v
      else ({ s with arrays := { s.arrays with dutyWait := s.arrays.dutyWait ++ [(array, v)] } } : State).noteThrottle v.tag true) := by
  show execVectorLatch array v s = _
  rw [execVectorLatch, need_array ha, hp]
  simp only [hok, Bool.not_true, Bool.false_eq_true, if_false]

/-! ### The duty window and the picot checks (R106, R112) -/

theorem exec_dutyWindowEnd_of_over {s : State} (hnone : s.arrays.dutyWait = []) (hover : s.arrays.dutyStart + 10000 ≤ s.now) :
    exec .dutyWindowEnd s = .next { s with arrays := { s.arrays with
      dutyUsed := 0, dutyStart := s.now, freeUsed := 0, dutyWait := []
      share := if s.start.stage < 6 then 40 else min s.thermal.shareGov (ladderShare s.level) } } := by
  show execDutyWindowEnd s = _
  have hdone : s.dutyOver = true := decide_eq_true (.inl hover)
  rw [execDutyWindowEnd, onlyIf, if_pos hdone, hnone]
  rfl

theorem exec_dutyWindowEnd_of_running {s : State} (hstart : s.arrays.dutyStart ≤ s.now) (hend : s.now < s.arrays.dutyStart + 10000) :
    exec .dutyWindowEnd s = .next s := by
  show execDutyWindowEnd s = _
  rw [execDutyWindowEnd, onlyIf, if_neg (by rw [State.dutyOver]; simp; omega)]

section Report
variable {array : Nat} {o : ArrayOut} {s : State} (ha : array < 32768) (ho : unreported (s.array array) = some o)
include ha ho

theorem exec_picotCheckReport_clean (hclean : o.fail = none) : exec (.picotCheckReport array) s = .next (reportClean s array o) := by
  show execPicotCheckReport array s = _
  rw [execPicotCheckReport, need_array ha, ho]
  simp only [hclean]

theorem exec_picotCheckReport_suspect {f : Nat × Nat × Int × Nat} (hfail : o.fail = some f) :
    exec (.picotCheckReport array) s = .next (reportSuspect s array o f) := by
  show execPicotCheckReport array s = _
  rw [execPicotCheckReport, need_array ha, ho]
  simp only [hfail]

end Report

theorem suspectRules_suspects (a : ArrayState) (seq step now : Nat) : (suspectRules a seq step now).suspects = min (a.suspects + 1) 65535 :=
  (apply_ite ArrayState.suspects _ _ _).trans (ite_self _)

theorem suspectRules_outs (a : ArrayState) (seq step now : Nat) : (suspectRules a seq step now).outs = a.outs :=
  (apply_ite ArrayState.outs _ _ _).trans (ite_self _)

/-- A clean report leaves everything but its array's outputs and its physical array's statistics (R106, R166). -/
theorem reportClean_spec {s : State} {array p : Nat} (o : ArrayOut) (hp : s.physOf array = p) :
    let t := reportClean s array o
    t.array array = reportFirst (s.array array) ∧ t.phys p = { s.phys p with stats := (s.phys p).stats.addOut o } ∧
      (∀ a, a ≠ array → t.array a = s.array a) ∧ (∀ q, q ≠ p → t.phys q = s.phys q) ∧ t = { s with arrays := t.arrays } := by
  subst hp
  exact ⟨State.setArray_same .., State.setPhys_same ..,
    fun a ha => State.setArray_other _ _ ha, fun q hq => State.setPhys_other _ _ hq, rfl⟩

/-- A suspect report of a step that is over recalls nothing (R106, R266). -/
theorem reportSuspect_spec {s : State} (array : Nat) {o : ArrayOut} (f : Nat × Nat × Int × Nat) {r : StepRec} (hr : s.stepOf o.vec.tag = some r)
    (hended : r.ended = true) :
    let t := reportSuspect s array o f
    t.array array = suspectRules (reportFirst (s.array array)) o.vec.tag.seq o.vec.tag.step s.now ∧
      t.counters = { s.counters with suspects := min (s.counters.suspects + 1) (2 ^ 64 - 1) } ∧
      (∀ a, a ≠ array → t.array a = s.array a) ∧ t = { s with arrays := t.arrays, counters := t.counters, log := t.log } := by
  unfold reportSuspect
  dsimp only
  have hstep : ∀ u : State, u.steps.live = s.steps.live → u.stepOf o.vec.tag = some r := fun u h => (State.stepOf_congr h _).trans hr
  rw [State.event_frame, hstep _ (by exact rfl)]
  simp only [hended, if_true]
  exact ⟨State.setArray_same .., rfl, fun a ha => State.setArray_other _ _ ha, rfl⟩

/-! ### Internal vectors (R168 to R170) -/

theorem Stats.foldl_vectors {α : Type} (f : Stats → α → Stats) (hf : ∀ st x, (f st x).vectors = st.vectors) (l : List α) (st : Stats) :
    (l.foldl f st).vectors = st.vectors := by
  induction l generalizing st with
  | nil => rfl
  | cons x l ih => exact (ih _).trans (hf st x)

theorem Stats.addPlane_vectors (st : Stats) (codes : List (Option Int)) (ones : Nat) : (st.addPlane codes ones).vectors = st.vectors := by
  refine (Stats.foldl_vectors _ (fun u x => ?_) _ _).trans (Stats.foldl_vectors _ (fun u x => ?_) _ _)
  · dsimp only
    split <;> rfl
  · split <;> rfl

theorem Stats.addOut_vectors (st : Stats) (o : ArrayOut) : (st.addOut o).vectors = st.vectors := by
  rw [Stats.addOut]
  exact Stats.foldl_vectors _ (fun _ _ => Stats.addPlane_vectors ..) _ _

/-- An evaluation takes at most 6 array-cycles per plane, with every plane retried (R97, R98). -/
theorem State.evalVector_cycles_le (s : State) (p : Nat) (v : LiveVector) (tau : Nat) : evalCycles (s.evalVector p v tau) ≤ 6 * v.bits := by
  cases h : zeroVector v with
  | true => exact (congrArg evalCycles (s.evalVector_of_zero p tau h)).trans_le (Nat.zero_le _)
  | false =>
    have hretries : (s.evalVector p v tau).retries ≤ v.bits := by
      rw [State.evalVector_of_nonzero _ _ _ h]
      exact (List.length_filter_le ..).trans_eq (by simp [evalPlanes])
    rw [State.evalVector_of_nonzero _ _ _ h] at hretries ⊢
    show 4 * v.bits + 2 * _ ≤ _
    omega

/-- An array in warm-up whose turn it is runs an internal vector: what becomes of it and of the module (R168, R169). -/
theorem exec_internalVector {phys a : Nat} {s : State} (hphys : phys < 33280) (ha : s.indexOf phys = some a) (hcal : (s.phys phys).calState = 1)
    (hsafe : s.start.safe = false) (hwarm : s.mayWarm a = true) (hturn : s.warmTurn phys = true) (hroom : s.arrays.dutyUsed + 48 ≤ dutyLimit s)
    (hquiet : ∀ w ∈ s.arrays.dutyWait, w.1 ≠ a) :
    ∃ t, exec (.internalVector phys 8) s = .next t ∧ (t.phys phys).vectors = (s.phys phys).vectors + 1 ∧
      (t.phys phys).stats.vectors = (s.phys phys).stats.vectors + 1 ∧ t.draws = s.draws + 1 ∧ (t.phys phys).coef = (s.phys phys).coef ∧
      (∀ q, q ≠ phys → t.phys q = s.phys q) ∧ (t.array a).outs = (s.array a).outs ∧
      t = { s with arrays := t.arrays, counters := t.counters, log := t.log, draws := t.draws } := by
  have hoffered : (s.arrays.dutyWait.any fun w => decide (w.1 = a)) = false :=
    List.any_eq_false.2 fun w hw => by simpa using hquiet w hw
  have hinternal : ∀ free, s.internalTurn phys 8 free = true := fun free => by
    simp [State.internalTurn, internalFits, State.warming, ha, hcal, hoffered, hwarm, hturn]
  have hduty : ∀ v tau, v.bits = 8 → dutyRoom s (s.evalVector phys v tau) = true := fun v tau hv =>
    decide_eq_true (by have := s.evalVector_cycles_le phys v tau; omega)
  have hneed : ∀ t, need (decide (phys < Config.physArrays)) .noSuchArray t = .next t := need_of (decide_eq_true hphys) _
  show ∃ t, execInternalVector phys 8 s = _ ∧ _
  rw [execInternalVector, hneed]
  dsimp only
  rw [hduty _ _ rfl]
  generalize s.evalVector _ _ _ = o
  simp only [ha, hsafe, hinternal, hcal, Bool.not_true, Bool.or_false, Bool.and_false, Bool.false_and, Bool.false_eq_true, if_false,
    show decide (1 = 3) = false from rfl]
  cases o.fail with
  | none =>
    exact ⟨_, rfl, (congrArg PhysArray.vectors (State.setPhys_same ..) :),
      (congrArg (·.stats.vectors) (State.setPhys_same ..)).trans (Stats.addOut_vectors ..), rfl, (congrArg PhysArray.coef (State.setPhys_same ..) :), fun q hq => State.setPhys_other _ _ hq, rfl, rfl⟩
  | some f =>
    dsimp only
    rw [State.event_frame]
    exact ⟨_, rfl, (congrArg PhysArray.vectors (State.setPhys_same ..) :), (congrArg (·.stats.vectors) (State.setPhys_same ..) :), rfl,
      (congrArg PhysArray.coef (State.setPhys_same ..) :), fun q hq => State.setPhys_other _ _ hq,
      (congrArg ArrayState.outs (State.setArray_same ..)).trans (suspectRules_outs ..), rfl⟩

/-- Settles O22: what an array makes of a vector, of the duty window's end, of its next report and of an internal vector, each by the lemma on its command. -/
theorem vectorsAreLatchedAndChecked : Obligations.VectorsAreLatchedAndChecked := by
  unfold Obligations.VectorsAreLatchedAndChecked
  refine ⟨fun array p v s ha hp hok => ⟨fun hnone hfits => ?_, fun hwait => ?_⟩,
    fun s => ⟨exec_dutyWindowEnd_of_over, exec_dutyWindowEnd_of_running⟩,
    fun array p o s ha hp ho => ⟨fun hclean => ?_, fun f r hfail hr hended => ?_⟩,
    fun phys a s hphys ha hcal hsafe hwarm hturn hroom hquiet => exec_internalVector hphys ha hcal hsafe hwarm hturn hroom hquiet⟩
  · rw [exec_vectorLatch ha hp hok, if_pos ⟨hnone, hfits⟩]
    obtain ⟨houts, hothers, hphys, hduty, hmacs, hframe⟩ := s.latchVector_spec array p v
    refine ⟨_, _, rfl, houts, State.evalVector_vec .., ?_, fun hzero => ?_, fun hnonzero => ?_, fun hsame => ?_, fun c hc hfirst hfree => ?_,
      fun q hq => (hphys q).trans (s.atLatch_phys_other array v hq), hframe⟩
    · exact (State.evalVector_epoch ..).trans (congrArg PhysArray.epoch (hphys p).symm)
    · have ho : s.latchOut array p v = zeroOut v _ := State.evalVector_of_zero _ _ _ hzero
      rw [ho] at hduty hmacs ⊢
      exact ⟨rfl, rfl, rfl, rfl, hduty, hmacs⟩
    · have ho : s.latchOut array p v = outOf v _ _ _ := State.evalVector_of_nonzero _ _ _ hnonzero
      rw [ho] at hduty hmacs ⊢
      exact ⟨rfl, rfl, rfl, hduty, hmacs⟩
    · rw [State.atLatch_same hsame] at hothers hphys
      exact ⟨hphys p, hothers⟩
    · rw [hphys, State.atLatch_phys hc hfirst hfree]
      exact ⟨rfl, rfl, rfl⟩
  · have hfull : ¬ (s.arrays.dutyWait = [] ∧ s.dutyFits array p v = true) := fun ⟨hnone, hfits⟩ =>
      hwait.elim (absurd hnone) fun h => by simp [h] at hfits
    rw [exec_vectorLatch ha hp hok, if_neg hfull]
    exact ⟨_, rfl, rfl, rfl⟩
  · rw [exec_picotCheckReport_clean ha ho hclean]
    obtain ⟨harray, hphys, hothers, hrest, hframe⟩ := reportClean_spec (s := s) (array := array) o hp
    exact ⟨_, rfl, harray, congrArg PhysArray.stats hphys, hphys.trans (by rw [hphys]), hothers, hrest, hframe⟩
  · rw [exec_picotCheckReport_suspect ha ho hfail]
    obtain ⟨harray, hcounters, hothers, hframe⟩ := reportSuspect_spec array f hr hended
    exact ⟨_, rfl, (congrArg ArrayState.suspects harray).trans (suspectRules_suspects ..),
      (congrArg ArrayState.outs harray).trans (suspectRules_outs ..), hcounters, hothers, hframe⟩

end Sys2Proof.Machine

namespace Sys2Proof.Machine

/- The theorems of this part are elaborated one after another: side by side they need more memory than the check has left beside the tests above. -/
set_option Elab.async false

/-! ### Reports of a load (R67, R77, R274) -/

/-- A state that differs from `s` in the mailboxes, the loads in progress and the fabric alone. -/
def State.LoadsChanged (s t : State) : Prop :=
  t = { s with boxes := t.boxes, motifs := { s.motifs with loads := t.motifs.loads }, fabric := t.fabric }

namespace State.LoadsChanged

theorem trans {s t u : State} (h : s.LoadsChanged t) (k : t.LoadsChanged u) : s.LoadsChanged u := Eq.trans k (by rw [h])

theorem of_fabric {s t : State} (h : t = { s with fabric := t.fabric }) : s.LoadsChanged t := by
  rw [h]
  exact rfl

theorem setLoad (s : State) (l : LoadState) : s.LoadsChanged (s.setLoad l) := rfl

theorem dropLoad (s : State) (l : LoadState) : s.LoadsChanged (s.dropLoad l) := rfl

variable {s t : State} (h : s.LoadsChanged t)
include h

theorem arrays : t.arrays = s.arrays := by rw [h]

theorem mem : t.mem = s.mem := by rw [h]

theorem array (a : Nat) : t.array a = s.array a := by rw [h]; rfl

theorem phys (p : Nat) : t.phys p = s.phys p := by rw [h]; rfl

theorem physOf (a : Nat) : t.physOf a = s.physOf a := by rw [h]; rfl

theorem workOf (a : Nat) : t.workOf a = s.workOf a := by rw [h]; rfl

theorem motif (m : Nat) : t.motif m = s.motif m := by rw [h]; rfl

end State.LoadsChanged

/-- Whether `y` is the load `x` but for the head's account of the reports that it has had. -/
def LoadState.SameBut (x y : LoadState) : Prop := ∃ progress doneBy, y = { x with progress := progress, doneBy := doneBy }

/-- A report of progress leaves the load that it is of in progress (R274). -/
theorem State.takeProgress_loads {s : State} {motif : Nat} {l : LoadState} (h : s.loadOf motif = some l) (m : Nat) (r : LoadReport) :
    s.LoadsChanged (s.takeProgress l m r) ∧ ∃ l', (s.takeProgress l m r).loadOf motif = some l' ∧ l.SameBut l' := by
  obtain ⟨hmotif, hproper, -⟩ := State.loadOf_spec h
  obtain ⟨-, -, -, hframe⟩ := s.takeProgress_spec l m r
  obtain ⟨progress, doneBy, hloads⟩ : ∃ progress doneBy,
      (s.takeProgress l m r).motifs.loads = (s.setLoad { l with progress := progress, doneBy := doneBy }).motifs.loads := by
    rw [State.takeProgress]
    dsimp only
    rw [State.setProgress_motifs, State.loadRecord_motifs]
    exact ⟨_, _, rfl⟩
  refine ⟨?_, _, ?_, progress, doneBy, rfl⟩
  · rw [State.LoadsChanged, hframe]
  · exact (State.loadOf_congr hloads _).trans (hmotif ▸ State.setLoad_loadOf s (l := { l with progress := progress, doneBy := doneBy }) hproper)

theorem State.reportLoad_frame (s : State) (l : LoadState) (n : Nat) : s.LoadsChanged (s.reportLoad l n) := by
  unfold State.reportLoad
  dsimp only
  split
  · next hcur => exact (State.takeProgress_loads hcur _ _).1
  · exact rfl
  · exact .of_fabric (State.send_frame ..)

theorem State.reportLoad_loadOf {s : State} {l cur : LoadState} (n : Nat) (h : s.loadOf l.motif = some cur) :
    ∃ l', (s.reportLoad l n).loadOf l.motif = some l' ∧ cur.SameBut l' := by
  unfold State.reportLoad
  dsimp only
  split
  · next hcur =>
    rw [h] at hcur
    cases hcur
    exact (State.takeProgress_loads h _ _).2
  · next hnone => exact absurd (h.symm.trans hnone) nofun
  · exact ⟨cur, (State.loadOf_congr (by simp) _).trans h, cur.progress, cur.doneBy, rfl⟩

theorem State.reportLoads_frame (l : LoadState) (counts : List Nat) (s : State) : s.LoadsChanged (counts.foldl (fun u c => u.reportLoad l c) s) := by
  induction counts generalizing s with
  | nil => exact rfl
  | cons c counts ih => exact (s.reportLoad_frame l c).trans (ih _)

theorem State.reportLoads_loadOf {l cur : LoadState} (counts : List Nat) {s : State} (h : s.loadOf l.motif = some cur) :
    ∃ l', (counts.foldl (fun u c => u.reportLoad l c) s).loadOf l.motif = some l' ∧ cur.SameBut l' := by
  induction counts generalizing s cur with
  | nil => exact ⟨cur, h, cur.progress, cur.doneBy, rfl⟩
  | cons c counts ih =>
    obtain ⟨x, hx, p, d, rfl⟩ := State.reportLoad_loadOf c h
    obtain ⟨y, hy, p', d', rfl⟩ := ih hx
    exact ⟨_, hy, p', d', rfl⟩

theorem State.countTiles_frame (s : State) (l : LoadState) (n : Nat) : s.LoadsChanged (s.countTiles l n) := by
  unfold State.countTiles
  dsimp only
  split
  · split
    · exact .dropLoad ..
    · exact .setLoad ..
  · exact (State.LoadsChanged.setLoad ..).trans (State.reportLoads_frame ..)

/-- The tiles counted of a load proper stay in its account, whatever is reported of them (R274). -/
theorem State.countTiles_loadOf (s : State) {l : LoadState} (n : Nat) (hproper : l.proper = true) :
    ∃ l', (s.countTiles l n).loadOf l.motif = some l' ∧ LoadState.SameBut { l with programmed := min l.tiles (l.programmed + n) } l' := by
  have hset := s.setLoad_loadOf (l := { l with programmed := min l.tiles (l.programmed + n) }) hproper
  rw [State.countTiles, hproper]
  exact State.reportLoads_loadOf (l := { l with programmed := min l.tiles (l.programmed + n) }) _ hset

/-! ### A shard accepted or turned away (R273, R274, R276, R279, R288) -/

/-- One array taken OUT to be programmed. -/
def State.outArray (s : State) (a : Nat) : State := (s.setArray a { s.array a with service := .out, due := none }).takeHost a

theorem State.outArrays_eq (s : State) (l : List Nat) : s.outArrays l = l.foldl State.outArray s := rfl

theorem State.outArray_frame (s : State) (a : Nat) : s.outArray a = { s with arrays := (s.outArray a).arrays } := by
  rw [State.outArray, State.takeHost_frame]
  rfl

theorem State.outArray_service (s : State) (a b : Nat) : ((s.outArray a).array b).service = if b = a then .out else (s.array b).service := by
  rw [State.outArray, State.takeHost_service, State.setArray_array]
  split <;> rfl

theorem State.outArrays_frame (s : State) (l : List Nat) : s.outArrays l = { s with arrays := (s.outArrays l).arrays } := by
  rw [State.outArrays_eq]
  induction l generalizing s with
  | nil => rfl
  | cons a l ih =>
    rw [List.foldl_cons]
    exact (ih _).trans (by rw [State.outArray_frame])

theorem State.outArrays_service {l : List Nat} {s : State} {a : Nat} (h : a ∈ l ∨ (s.array a).service = .out) :
    ((s.outArrays l).array a).service = .out := by
  rw [State.outArrays_eq]
  induction l generalizing s with
  | nil => exact h.resolve_left List.not_mem_nil
  | cons b l ih =>
    refine ih ?_
    rw [State.outArray_service]
    by_cases hab : a = b
    · exact .inr (if_pos hab)
    · rw [if_neg hab]
      exact h.imp_left fun hmem => (List.mem_cons.1 hmem).resolve_left hab

theorem State.copyToSpare_frame (s : State) (motif gen : Nat) (data : Bytes) :
    s.copyToSpare motif gen data = { s with fabric := (s.copyToSpare motif gen data).fabric } := by
  unfold State.copyToSpare
  split
  · split
    · rfl
    · exact State.foldl_send_frame _ _ _
  · rfl

/-- The entry of a motif whose shard is accepted (R276). -/
def MotifEntry.mirrored (x : MotifEntry) (e : ShardEntry) (sh : Shard) : MotifEntry :=
  { x with mirror := some sh, mirrorState := 2, shardDigest := e.digest, tiles := e.tiles }

/-- Beside the motif's entry and the arrays, a shard that is accepted changes only the account of its load and what is sent (R274). -/
theorem State.acceptShard_loads (s : State) {l : LoadState} (e : ShardEntry) (sh : Shard) (inArrays : Bool) (hreplace : l.replace = false) :
    ((s.setMotif l.motif ((s.motif l.motif).mirrored e sh)).outArrays ((shardArrays sh).mergeSort fun a b => decide (a ≤ b))).LoadsChanged
      (s.acceptShard l e sh inArrays) := by
  unfold State.acceptShard
  simp only [hreplace, Bool.false_eq_true, if_false]
  split
  · exact ((State.LoadsChanged.setLoad ..).trans (.of_fabric (State.copyToSpare_frame ..))).trans (State.reportLoad_frame ..)
  · exact (State.LoadsChanged.setLoad ..).trans (.of_fabric (State.copyToSpare_frame ..))

/-- A shard that is accepted is the motif's mirror, and its arrays are OUT (R274, R275). -/
theorem State.acceptShard_spec (s : State) {l : LoadState} (e : ShardEntry) (sh : Shard) (inArrays : Bool) (hreplace : l.replace = false) :
    let t := s.acceptShard l e sh inArrays
    t.motif l.motif = (s.motif l.motif).mirrored e sh ∧ (∀ a ∈ shardArrays sh, (t.array a).service = .out) ∧ t.mem = s.mem := by
  have hloads := s.acceptShard_loads e sh inArrays hreplace
  refine ⟨?_, fun a ha => ?_, ?_⟩
  · rw [hloads.motif, State.outArrays_frame]
    exact (State.setMotif_motif ..).trans (if_pos rfl)
  · rw [hloads.array]
    exact State.outArrays_service (.inl (List.mem_mergeSort.2 ha))
  · rw [hloads.mem, State.outArrays_frame]
    rfl

section Fetched
variable {s : State} {motif : Nat} {l : LoadState} {o : LoadOrder} {p : Pricking} (hm : motif < 16) (hl : s.loadOf motif = some l)
  (horder : l.order = some o) (hprick : l.prick = some p) (hdone : l.fetchDone = true) (hshard : l.shard = none)
include hm hl horder hprick hdone hshard

theorem exec_shardFetchEnd_of_wrong (hdigest : shake256 32 l.fetched ≠ o.entry.digest) :
    exec (.shardFetchEnd motif) s = .next (s.loadFailed l stDigest s.machineId) := by
  show execShardFetchEnd motif s = _
  rw [execShardFetchEnd, need_of (decide_eq_true hm), hl]
  simp only [horder, hprick, hdone, hshard, Bool.not_true, Option.isSome_none, Bool.or_false, Bool.false_eq_true, if_false, if_pos hdigest]

/-- A right shard whose tiles name arrays that are free is accepted on them (R283, R288). -/
theorem exec_shardFetchEnd_of_right (hdigest : shake256 32 l.fetched = o.entry.digest) (htiles : tilesBad p l.fetched o.entry.tiles = none)
    (hstale : l.stale = false) (hreplace : l.replace = false)
    (hfree : ∀ x ∈ (readShard l.fetched o.entry.tiles).tiles, s.unowned x.named = true) :
    exec (.shardFetchEnd motif) s = .next (s.acceptShard l o.entry (readShard l.fetched o.entry.tiles) true) := by
  have hall : ((readShard l.fetched o.entry.tiles).tiles.all fun x => s.unowned x.named) = true := List.all_eq_true.2 hfree
  show execShardFetchEnd motif s = _
  rw [execShardFetchEnd, need_of (decide_eq_true hm), hl]
  simp only [horder, hprick, hdone, hshard, Bool.not_true, Option.isSome_none, Bool.or_false, Bool.false_eq_true, if_false, if_neg (not_not_intro hdigest),
    htiles, hstale, hreplace, hall, if_true]

end Fetched

/-! ### Programming (R117, R158, R275) -/

/-- What programming makes of a physical array (R173, R275). -/
theorem State.program_phys (s : State) (p : Nat) (h : Option Held) :
    ((s.program p h).phys p).cells = h ∧ ((s.program p h).phys p).calState = 2 ∧ ((s.program p h).phys p).programmed = s.now := by
  rw [State.program, State.setPhys_same]
  exact ⟨rfl, rfl, rfl⟩

/-- An array of a round that verified holds its tile and begins confirmation (R275). -/
theorem State.programArray_spec {s : State} {a p : Nat} (hp : s.workOf a = some p) :
    let t := s.programArray a
    t.array a = (s.array a).programmed ∧ (t.phys p).cells = s.tileFor a ∧ (t.phys p).calState = 2 ∧ (t.phys p).programmed = s.now := by
  rw [State.programArray, hp]
  dsimp only
  exact ⟨State.setArray_same .., State.program_phys ..⟩

theorem State.programArray_mem (s : State) (a : Nat) : (s.programArray a).mem = s.mem := by
  unfold State.programArray
  split <;> rfl

theorem State.takeHost_mem (s : State) (a : Nat) : (s.takeHost a).mem = s.mem := by
  rw [State.takeHost_frame]

theorem State.giveBack_mem (s : State) (a : Nat) : (s.giveBack a).mem = s.mem := by
  unfold State.giveBack
  split
  · rfl
  · simp only [apply_ite State.mem, State.takeHost_mem, State.setArray_mem, ite_self]

theorem State.verifyArray_mem (s : State) (a : Nat) (rewritten : Bool) : (s.verifyArray a rewritten).mem = s.mem := by
  unfold State.verifyArray
  split
  · rfl
  · exact State.giveBack_mem ..

theorem State.retireArray_mem (s : State) (a reason : Nat) : (s.retireArray a reason).mem = s.mem := by
  cases hp : s.workOf a with
  | none =>
    rw [State.retireArray, hp]
  | some p =>
    rw [(State.retireArray_spec reason hp).1]

theorem State.failArray_mem (s : State) (a row : Nat) : (s.failArray a row).mem = s.mem := by
  rw [State.failArray, State.retireArray_mem, State.event_mem]

/-- An array of a round whose cells did not verify is retired (R117, R275). -/
theorem State.failArray_spec {s : State} {a p : Nat} (row : Nat) (hp : s.workOf a = some p) :
    let t := s.failArray a row
    t.workOf a = none ∧ t.physOf a = p ∧ p ∈ t.arrays.retired ∧ (t.array a).service = .out ∧ (t.array a).spare = s.chooseSpare p := by
  obtain ⟨log, hlog⟩ : ∃ log, s.failArray a row = ({ s with log := log } : State).retireArray a 6 := ⟨_, by rw [State.failArray, State.event_frame]⟩
  obtain ⟨-, hretired, hremap, hself, -⟩ := State.retireArray_spec (s := { s with log := log }) 6 hp
  rw [hlog]
  have hphys : (({ s with log := log } : State).retireArray a 6).physOf a = p := by
    rw [State.physOf, hremap]
    exact State.physOf_of_workOf hp
  have hin : p ∈ (({ s with log := log } : State).retireArray a 6).arrays.retired := by
    rw [hretired]
    exact List.mem_cons_self
  exact ⟨State.workOf_of_retired (hphys.symm ▸ hin), hphys, hin, congrArg ArrayState.service hself, congrArg ArrayState.spare hself⟩

/-- What a round makes of one of its arrays (R275, R286). -/
def State.roundArray (l : LoadState) (failed : List FailedArray) (multi : List Nat) (s : State) (a : Nat) : State :=
  match failedRow failed a with
  | some row => s.failArray a row
  | none => if l.stale && s.holdsTile a then s.verifyArray a (multi.contains a) else s.programArray a

theorem State.roundArray_mem (l : LoadState) (failed : List FailedArray) (multi : List Nat) (s : State) (a : Nat) :
    (s.roundArray l failed multi a).mem = s.mem := by
  unfold State.roundArray
  split
  · exact State.failArray_mem ..
  · split
    · exact State.verifyArray_mem ..
    · exact State.programArray_mem ..

/-- The account of a load after a round: the arrays left to program, those with rows rewritten and those that a spare replaces (R275). -/
def LoadState.afterRound (l : LoadState) (failed : List FailedArray) (multi : List Nat) (t : State) : LoadState :=
  { l with
    toProgram := l.toProgram.drop 4096
    reprogrammed := l.reprogrammed + ((l.toProgram.take 4096).filter multi.contains).length
    remapped := l.remapped + ((l.toProgram.take 4096).filter fun a => (failedRow failed a).isSome && (t.array a).spare.isSome).length }

/-- The arrays after a round, before its tiles are counted (R275). -/
def State.roundEnd (s : State) (l : LoadState) (failed : List FailedArray) (multi : List Nat) : State :=
  (l.toProgram.take 4096).foldl (fun u a => u.roundArray l failed multi a) s

theorem State.roundEnd_mem (s : State) (l : LoadState) (failed : List FailedArray) (multi : List Nat) : (s.roundEnd l failed multi).mem = s.mem :=
  foldl_keeps State.mem _ (State.roundArray_mem l failed multi) _ s

theorem State.roundEnd_of_single {l : LoadState} {a : Nat} (h : l.toProgram = [a]) (s : State) (failed : List FailedArray) (multi : List Nat) :
    s.roundEnd l failed multi = s.roundArray l failed multi a := by
  rw [State.roundEnd, h]
  rfl

/-- The tiles of a round that serve or go to the tambour for good; those that wait for a spare are not counted yet (R275). -/
def State.roundTiles (t : State) (l : LoadState) : Nat :=
  (l.toProgram.take 4096).length - ((l.toProgram.take 4096).filter fun a => (t.array a).spare.isSome).length

theorem State.roundTiles_of_single {l : LoadState} {a : Nat} (h : l.toProgram = [a]) (t : State) :
    t.roundTiles l = if (t.array a).spare.isSome then 0 else 1 := by
  rw [State.roundTiles, h]
  cases hspare : (t.array a).spare.isSome <;> simp [hspare]

/-- A round's arrays verify or are retired, its tiles are counted, and the load goes on with the arrays left (R274, R275). -/
theorem exec_programmingRoundEnd {s : State} {motif : Nat} {l : LoadState} (failed : List FailedArray) (multi : List Nat) (hm : motif < 16)
    (hl : s.loadOf motif = some l) (hround : s.motifs.loads.find? (fun x => decide (x.motif = motif ∧ x.toProgram ≠ [])) = some l) :
    ∃ t l', exec (.programmingRoundEnd motif failed multi) s = .next t ∧ (s.roundEnd l failed multi).LoadsChanged t ∧ t.loadOf motif = some l' ∧
      l'.toProgram = l.toProgram.drop 4096 ∧ l'.programmed = min l.tiles (l.programmed + (s.roundEnd l failed multi).roundTiles l) := by
  obtain ⟨rfl, hproper, -⟩ := State.loadOf_spec hl
  have hexec : exec (.programmingRoundEnd l.motif failed multi) s = .next ((s.roundEnd l failed multi).countTiles
      (l.afterRound failed multi (s.roundEnd l failed multi)) ((s.roundEnd l failed multi).roundTiles l)) := by
    show execProgrammingRoundEnd l.motif failed multi s = _
    rw [execProgrammingRoundEnd, need_of (decide_eq_true hm), hround]
    rfl
  generalize s.roundEnd l failed multi = u at *
  obtain ⟨l', hl', progress, doneBy, rfl⟩ := u.countTiles_loadOf (l := l.afterRound failed multi u) (u.roundTiles l) hproper
  exact ⟨_, _, hexec, State.countTiles_frame .., hl', rfl, rfl⟩

/-- An array of a round that verified (R275). -/
theorem State.roundArray_of_verified {s : State} {l : LoadState} {a : Nat} {failed : List FailedArray} (h : failedRow failed a = none)
    (hstale : l.stale = false) (multi : List Nat) : s.roundArray l failed multi a = s.programArray a := by
  rw [State.roundArray, h, hstale]
  rfl

/-- An array of a round that did not (R275). -/
theorem State.roundArray_of_failed {s : State} (l : LoadState) {a row : Nat} {failed : List FailedArray} (h : failedRow failed a = some row)
    (multi : List Nat) : s.roundArray l failed multi a = s.failArray a row := by
  rw [State.roundArray, h]

/-- A spare that takes an index over holds its tile and begins confirmation (R117, R275). -/
theorem State.takeSpare_spec (s : State) (a p : Nat) :
    let t := s.takeSpare a p
    t.physOf a = p ∧ (t.phys p).calState = 2 ∧ (t.phys p).cells = s.tileFor a ∧ (t.array a).spare = none ∧ (t.array a).service = .out ∧ t.mem = s.mem := by
  have harray : (s.takeSpare a p).array a = (s.array a).programmed := State.setArray_same ..
  obtain ⟨hcells, hcal, -⟩ := State.program_phys { s with arrays := { s.arrays with remap := Tab.put (homePhys a) s.arrays.remap a p } } p (s.tileFor a)
  exact ⟨Tab.get_put_same .., hcal, hcells, congrArg ArrayState.spare harray, congrArg ArrayState.service harray, rfl⟩

theorem exec_spareProgrammed {s : State} {a p : Nat} (ha : a < 32768) (hspare : (s.array a).spare = some p) (hmirror : s.awaitsMirror a = false) :
    ∃ t, exec (.spareProgrammed a) s = .next t ∧ (s.takeSpare a p).LoadsChanged t := by
  show ∃ t, execSpareProgrammed a s = _ ∧ _
  rw [execSpareProgrammed, need_array ha, hspare]
  simp only [hmirror, Bool.false_eq_true, if_false]
  refine ⟨_, rfl, ?_⟩
  split
  · exact State.countTiles_frame ..
  · exact rfl

/-! ### A load that is complete (R276, R278, R288) -/

/-- The state of a module once a load that replaces nothing is complete on it, before the head's command or the module's own account of it (R276). -/
def State.loaded (s : State) (l : LoadState) : State :=
  let e := loadedEntry l (s.motif l.motif) s.now
  ((s.dropLoad l).setMotif l.motif e).freshLayers l.motif (some e.gen.toNat)

theorem exec_loadComplete {s : State} {motif : Nat} {l : LoadState} (hm : motif < 16) (hl : s.loadOf motif = some l) (hwhole : s.loadWhole l = true)
    (hreplace : l.replace = false) :
    exec (.loadComplete motif) s = .next (l.mailbox.elim ((s.loaded l).noteDone l) fun m => (s.loaded l).okCmd m ((s.motif motif).gen + 1).toNat) := by
  obtain ⟨rfl, -⟩ := State.loadOf_spec hl
  show execLoadComplete l.motif s = _
  rw [execLoadComplete, need_of (decide_eq_true hm), hl]
  simp only [hwhole, Bool.not_true, Bool.false_eq_true, if_false, State.loaded, loadedEntry, hreplace]
  cases l.mailbox <;> rfl

/-- A load that is complete makes the motif resident with its next generation (R276). -/
theorem State.loaded_spec {s : State} {l : LoadState} (hproper : l.proper = true) (hreplace : l.replace = false) :
    let t := s.loaded l
    t.motif l.motif = { s.motif l.motif with state := 2, gen := (s.motif l.motif).gen + 1, loadTime := s.now } ∧ t.loadOf l.motif = none ∧
      (∀ k, k ≠ l.motif → t.motif k = s.motif k) ∧ t = { s with motifs := t.motifs } := by
  refine ⟨?_, (State.loadOf_congr rfl _).trans (State.dropLoad_loadOf s hproper), fun k hk => (State.setMotif_motif ..).trans (if_neg hk), rfl⟩
  refine (State.setMotif_motif ..).trans ((if_pos rfl).trans ?_)
  rw [loadedEntry, hreplace]
  rfl

/-- A module that keeps its own account of a completed load changes the motifs alone. -/
theorem State.noteDone_spec (s : State) (l : LoadState) :
    (∀ k, (s.noteDone l).motif k = s.motif k) ∧ (∀ k, (s.noteDone l).loadOf k = s.loadOf k) ∧ s.noteDone l = { s with motifs := (s.noteDone l).motifs } :=
  ⟨fun _ => rfl, fun k => State.loadOf_congr (s := s) (t := s.noteDone l) rfl k, rfl⟩

/-- What completes after a change of the motifs alone. -/
theorem State.okCmd_after_motifs {s u : State} {m op : Nat} {e : Bytes} (h : Ready s m op e) (hu : u = { s with motifs := u.motifs }) (result : Nat) :
    let t := u.okCmd m result
    (∀ k, t.motif k = u.motif k) ∧ (∀ k, t.loadOf k = u.loadOf k) ∧ Completes s t m 0 0 (s.box m).target result ∧
      t = { s with motifs := t.motifs, boxes := t.boxes, fabric := t.fabric } := by
  have hboxes : u.boxes = s.boxes := by rw [hu]
  have hbox : u.box m = s.box m := by rw [hu]; rfl
  have hchanges : u.okCmd m result = { u with boxes := (u.okCmd m result).boxes, fabric := (u.okCmd m result).fabric } :=
    State.complete_changes (s := u) 0 0 (u.box m).target result (by rw [hbox]; exact h.free) (by rw [hu]; exact h.breakQps)
  refine ⟨fun k => ?_, State.loadOf_congr (by rw [State.okCmd_motifs]), h.okCmd_of_boxes result hboxes (by rw [hu]) (by rw [hu]; rfl), ?_⟩
  · rw [State.motif, State.okCmd_motifs]
    rfl
  · rw [State.okCmd_motifs]
    exact hchanges.trans (by rw [hu])

section Complete
variable {s : State} {motif : Nat} {l : LoadState} (hm : motif < 16) (hl : s.loadOf motif = some l) (hwhole : s.loadWhole l = true)
  (hreplace : l.replace = false)
include hm hl hwhole hreplace

theorem exec_loadComplete_elsewhere (hmailbox : l.mailbox = none) :
    ∃ t, exec (.loadComplete motif) s = .next t ∧
      t.motif motif = { s.motif motif with state := 2, gen := (s.motif motif).gen + 1, loadTime := s.now } ∧ t.loadOf motif = none ∧
      (∀ k, k ≠ motif → t.motif k = s.motif k) ∧ t = { s with motifs := t.motifs } := by
  have hexec := exec_loadComplete hm hl hwhole hreplace
  obtain ⟨rfl, hproper, -⟩ := State.loadOf_spec hl
  obtain ⟨hentry, hgone, hothers, hframe⟩ := State.loaded_spec (s := s) hproper hreplace
  rw [hmailbox, Option.elim_none] at hexec
  generalize s.loaded l = u at *
  obtain ⟨hmotif, hload, hnoted⟩ := u.noteDone_spec l
  exact ⟨_, hexec, (hmotif _).trans hentry, (hload _).trans hgone, fun k hk => (hmotif k).trans (hothers k hk), hnoted.trans (by rw [hframe])⟩

theorem exec_loadComplete_head {m : Nat} {e : Bytes} (hmailbox : l.mailbox = some m) (h : Ready s m 0x20 e) :
    ∃ t, exec (.loadComplete motif) s = .next t ∧
      t.motif motif = { s.motif motif with state := 2, gen := (s.motif motif).gen + 1, loadTime := s.now } ∧ t.loadOf motif = none ∧
      Completes s t m 0 0 (s.box m).target ((s.motif motif).gen + 1).toNat ∧ t = { s with motifs := t.motifs, boxes := t.boxes, fabric := t.fabric } := by
  have hexec := exec_loadComplete hm hl hwhole hreplace
  obtain ⟨rfl, hproper, -⟩ := State.loadOf_spec hl
  obtain ⟨hentry, hgone, -, hframe⟩ := State.loaded_spec (s := s) hproper hreplace
  rw [hmailbox, Option.elim_some] at hexec
  generalize s.loaded l = u at *
  obtain ⟨hmotif, hload, hdone⟩ := State.okCmd_after_motifs h hframe ((s.motif l.motif).gen + 1).toNat
  exact ⟨_, hexec, (hmotif _).trans hentry, (hload _).trans hgone, hdone⟩

end Complete

/-- Settles O33: a shard's digest and tiles decide whether it is accepted; its arrays are programmed or retired round by round, a spare takes its
index over, and the load that is complete makes the motif resident. -/
theorem shardsAreVerifiedProgrammedAndCompleted : Obligations.ShardsAreVerifiedProgrammedAndCompleted := by
  unfold Obligations.ShardsAreVerifiedProgrammedAndCompleted
  refine ⟨fun motif l s hm hl => ⟨?fetched, ?round, ?complete⟩, ?spare⟩
  case fetched =>
    intro o p horder hprick hdone hshard hreplace
    obtain ⟨rfl, hproper, -⟩ := State.loadOf_spec hl
    refine ⟨fun hdigest hmailbox => ?_, fun hdigest htiles hstale hfree => ?_⟩
    · obtain ⟨hgone, hprior, hreport, -⟩ := State.loadFailed_reported (s := s) hreplace hproper hmailbox hshard stDigest s.machineId
      exact ⟨_, exec_shardFetchEnd_of_wrong hm hl horder hprick hdone hshard hdigest, hgone, hprior, hreport⟩
    · obtain ⟨hentry, hout, hmem⟩ := s.acceptShard_spec o.entry (readShard l.fetched o.entry.tiles) true hreplace
      refine ⟨_, exec_shardFetchEnd_of_right hm hl horder hprick hdone hshard hdigest htiles hstale hreplace hfree, ?_, ?_, ?_, ?_, hout, hmem⟩
      all_goals rw [hentry]; rfl
  case round =>
    intro failed multi hround
    obtain ⟨t, l', hexec, hloads, hl', hleft, hcount⟩ := exec_programmingRoundEnd failed multi hm hl hround
    refine ⟨⟨t, l', hexec, hl', hleft, hloads.mem.trans (State.roundEnd_mem ..)⟩,
      fun a p htodo hwork hstale => ⟨t, l', hexec, hl', fun hrow => ?_, fun hrow => ?_⟩⟩
    · obtain ⟨harray, hcells, hcal, htime⟩ := State.programArray_spec hwork
      rw [State.roundEnd_of_single htodo, State.roundArray_of_verified hrow hstale] at hloads hcount
      rw [State.roundTiles_of_single htodo, harray] at hcount
      rw [hloads.array, hloads.phys, harray]
      exact ⟨rfl, hcells, hcal, htime, hcount⟩
    · obtain ⟨row, hrow⟩ := Option.isSome_iff_exists.1 hrow
      obtain ⟨hnone, hphys, hretired, hout, hspare⟩ := State.failArray_spec row hwork
      rw [State.roundEnd_of_single htodo, State.roundArray_of_failed l hrow] at hloads hcount
      rw [State.roundTiles_of_single htodo, hspare] at hcount
      rw [hloads.workOf, hloads.physOf, hloads.arrays, hloads.array]
      exact ⟨hnone, hphys, hretired, hout, hspare, hcount⟩
  case complete =>
    exact fun hwhole hreplace => ⟨exec_loadComplete_elsewhere hm hl hwhole hreplace, fun m e => exec_loadComplete_head hm hl hwhole hreplace⟩
  case spare =>
    intro a p s ha hspare hmirror
    obtain ⟨t, hexec, hloads⟩ := exec_spareProgrammed ha hspare hmirror
    obtain ⟨hphys, hcal, hcells, htaken, hservice, hmem⟩ := s.takeSpare_spec a p
    refine ⟨t, hexec, (hloads.physOf a).trans hphys, ?_, ?_, ?_, ?_, hloads.mem.trans hmem⟩
    · rw [hloads.phys, hcal]
    · rw [hloads.phys, hcells]
    · rw [hloads.array, htaken]
    · rw [hloads.array, hservice]

end Sys2Proof.Machine

namespace Sys2Proof.Machine

/-! ### Slots of a page (R201 to R203) -/

/-- Runs of bytes written one after another, each with its address. -/
def writeAll (m : Memory) (ws : List (Nat × Bytes)) : Memory := ws.foldl (fun m w => memWrite m w.1 w.2) m

/-- The runs of bytes of a slot's KV head: key and value elements, then their scales. -/
def headWrites (b h frame t : Nat) (e : Nat × Bytes × Bytes × Bytes × Bytes) : List (Nat × Bytes) :=
  [(frame + keyOff b e.1 t, e.2.1), (frame + valueOff b e.1 t, e.2.2.1), (frame + keyScaleOff b h e.1 t, e.2.2.2.1), (frame + valueScaleOff b h e.1 t, e.2.2.2.2)]

/-- The runs of bytes of a slot, head after head. -/
def slotWrites (b h frame t : Nat) (d : SlotData) : List (Nat × Bytes) := (d.heads.mapIdx fun g x => (g, x)).flatMap (headWrites b h frame t)

/-- Two runs of bytes with no address in common. -/
def runsApart (v w : Nat × Bytes) : Prop := v.1 + v.2.length ≤ w.1 ∨ w.1 + w.2.length ≤ v.1

theorem writeSlot_eq_writeAll (m : Memory) (b h frame t : Nat) (d : SlotData) : writeSlot m b h frame t d = writeAll m (slotWrites b h frame t d) := by
  rw [writeAll, slotWrites, List.foldl_flatMap]
  rfl

theorem memByte_writeAll_of_outside {ws : List (Nat × Bytes)} {a : Nat} (h : ∀ w ∈ ws, a < w.1 ∨ w.1 + w.2.length ≤ a) (m : Memory) :
    memByte (writeAll m ws) a = memByte m a := by
  induction ws generalizing m with
  | nil => rfl
  | cons w ws ih =>
    have hw := h w (List.mem_cons_self ..)
    exact (ih (fun x hx => h x (List.mem_cons_of_mem _ hx)) _).trans ((memByte_memWrite ..).trans (if_neg (by omega)))

theorem memRead_memWrite_same (m : Memory) (a : Nat) (data : Bytes) : memRead (memWrite m a data) a data.length = data := by
  refine List.ext_getElem (by simp [memRead]) fun i _ hi => ?_
  simp [memRead, memByte_memWrite, hi]

theorem memRead_writeAll_of_apart {ws : List (Nat × Bytes)} {v : Nat × Bytes} (h : ∀ w ∈ ws, runsApart v w) (m : Memory) :
    memRead (writeAll m ws) v.1 v.2.length = memRead m v.1 v.2.length := by
  refine List.map_congr_left fun i hi => memByte_writeAll_of_outside (fun w hw => ?_) m
  have hvw := h w hw
  rw [List.mem_range] at hi
  rw [runsApart] at hvw
  omega

/-- A run of bytes reads back once all are written, where no two share an address. -/
theorem memRead_writeAll {ws : List (Nat × Bytes)} (h : ws.Pairwise runsApart) {v : Nat × Bytes} (hv : v ∈ ws) (m : Memory) :
    memRead (writeAll m ws) v.1 v.2.length = v.2 := by
  induction ws generalizing m with
  | nil => cases hv
  | cons w ws ih =>
    obtain ⟨hfirst, hrest⟩ := List.pairwise_cons.1 h
    rcases List.mem_cons.1 hv with rfl | hv
    · exact (memRead_writeAll_of_apart hfirst _).trans (memRead_memWrite_same ..)
    · exact ih hrest hv _

/-- Where a slot's element run lies: run 2g is the keys of head g, run 2g + 1 its values (R201, R202). -/
def elementRun (b frame t n : Nat) : Nat := frame + 256 * b * n + headBytes b * t

/-- Where a slot's scale run lies: run 2g is the key scales of head g, run 2g + 1 its value scales (R201, R202). -/
def scaleRun (b h frame t n : Nat) : Nat := frame + headArea b * h + 8 * h * t + 4 * n

theorem headWrites_eq (b h frame t g : Nat) (x : Bytes × Bytes × Bytes × Bytes) : headWrites b h frame t (g, x) =
    [(elementRun b frame t (2 * g), x.1), (elementRun b frame t (2 * g + 1), x.2.1),
      (scaleRun b h frame t (2 * g), x.2.2.1), (scaleRun b h frame t (2 * g + 1), x.2.2.2)] := by
  have hhalf : 512 * b / 2 = 256 * b := by omega
  simp only [headWrites, elementRun, scaleRun, keyOff, valueOff, valueScaleOff, keyScaleOff, headArea, hhalf]
  ring_nf

section Runs
variable (b frame : Nat) {h t n k : Nat}

theorem elementRun_le_area (ht : t < 16) (n : Nat) : elementRun b frame t n + headBytes b ≤ frame + 256 * b * (n + 1) := by
  have hslot : headBytes b * (t + 1) ≤ headBytes b * 16 := Nat.mul_le_mul_left _ ht
  rw [elementRun, Nat.mul_succ]
  rw [Nat.mul_succ] at hslot
  simp only [headBytes] at hslot ⊢
  omega

theorem elementRun_lt (ht : t < 16) (hnk : n < k) : elementRun b frame t n + headBytes b ≤ elementRun b frame t k := by
  have harea : 256 * b * (n + 1) ≤ 256 * b * k := Nat.mul_le_mul_left _ hnk
  exact (elementRun_le_area b frame ht n).trans (by rw [elementRun]; omega)

theorem elementRun_scaleRun (ht : t < 16) (hn : n < 2 * h) (k : Nat) : elementRun b frame t n + headBytes b ≤ scaleRun b h frame t k := by
  have harea : 256 * b * (n + 1) ≤ 256 * b * (2 * h) := Nat.mul_le_mul_left _ hn
  have hall : 256 * b * (2 * h) = headArea b * h := by rw [headArea]; ring
  exact (elementRun_le_area b frame ht n).trans (by rw [scaleRun]; omega)

theorem scaleRun_lt (h t : Nat) (hnk : n < k) : scaleRun b h frame t n + 4 ≤ scaleRun b h frame t k := by
  rw [scaleRun, scaleRun]
  omega

end Runs

theorem mem_slotWrites {b h frame t : Nat} {d : SlotData} {g : Nat} (hg : g < d.heads.length) {w : Nat × Bytes}
    (hw : w ∈ headWrites b h frame t (g, d.heads[g])) : w ∈ slotWrites b h frame t d :=
  List.mem_flatMap.2 ⟨_, List.mem_mapIdx.2 ⟨g, hg, rfl⟩, hw⟩

section Fits
variable {b h t : Nat} {d : SlotData} (hfits : slotFits b h d = true)
include hfits

theorem slotFits_length : d.heads.length = h := by
  rw [slotFits, Bool.and_eq_true] at hfits
  exact of_decide_eq_true hfits.1

/-- The lengths of the runs of a head. -/
theorem slotFits_head {x : Bytes × Bytes × Bytes × Bytes} (hx : x ∈ d.heads) :
    x.1.length = headBytes b ∧ x.2.1.length = headBytes b ∧ x.2.2.1.length = 4 ∧ x.2.2.2.length = 4 := by
  rw [slotFits, Bool.and_eq_true, List.all_eq_true] at hfits
  exact of_decide_eq_true (hfits.2 x hx)

/-- The runs of one head share no address: its keys lie before its values, all elements before the scales. -/
theorem headWrites_apart (ht : t < 16) (frame : Nat) {g : Nat} (hg : g < d.heads.length) : (headWrites b h frame t (g, d.heads[g])).Pairwise runsApart := by
  obtain ⟨hkey, hvalue, hkeyScale, -⟩ := slotFits_head hfits (List.getElem_mem hg)
  have hlast : 2 * g + 1 < 2 * h := by have := slotFits_length hfits; omega
  simp only [headWrites_eq, List.pairwise_cons, List.mem_cons, List.not_mem_nil, or_false, forall_eq_or_imp, forall_eq, runsApart, hkey, hvalue, hkeyScale,
    IsEmpty.forall_iff, implies_true, List.Pairwise.nil, and_true]
  exact ⟨⟨.inl (elementRun_lt b frame ht (by omega)), .inl (elementRun_scaleRun b frame ht (by omega) _),
      .inl (elementRun_scaleRun b frame ht (by omega) _)⟩,
    ⟨.inl (elementRun_scaleRun b frame ht hlast _), .inl (elementRun_scaleRun b frame ht hlast _)⟩, .inl (scaleRun_lt b frame h t (by omega))⟩

theorem mem_headWrites {frame g : Nat} (hg : g < d.heads.length) {w : Nat × Bytes} (hw : w ∈ headWrites b h frame t (g, d.heads[g])) :
    ∃ n, n / 2 = g ∧ (w.1 = elementRun b frame t n ∧ w.2.length = headBytes b ∨ w.1 = scaleRun b h frame t n ∧ w.2.length = 4) := by
  obtain ⟨hkey, hvalue, hkeyScale, hvalueScale⟩ := slotFits_head hfits (List.getElem_mem hg)
  simp only [headWrites_eq, List.mem_cons, List.not_mem_nil, or_false] at hw
  rcases hw with rfl | rfl | rfl | rfl
  · exact ⟨2 * g, by omega, .inl ⟨rfl, hkey⟩⟩
  · exact ⟨2 * g + 1, by omega, .inl ⟨rfl, hvalue⟩⟩
  · exact ⟨2 * g, by omega, .inr ⟨rfl, hkeyScale⟩⟩
  · exact ⟨2 * g + 1, by omega, .inr ⟨rfl, hvalueScale⟩⟩

/-- The runs of two heads share no address: the elements of a head fill an area of its own, and the scales of a head eight bytes of their own. -/
theorem headWrites_apart_heads (ht : t < 16) {frame g k : Nat} (hg : g < d.heads.length) (hk : k < d.heads.length) (hgk : g < k) {v w : Nat × Bytes}
    (hv : v ∈ headWrites b h frame t (g, d.heads[g])) (hw : w ∈ headWrites b h frame t (k, d.heads[k])) : runsApart v w := by
  have hlength := slotFits_length hfits
  obtain ⟨n, hn, hv⟩ := mem_headWrites hfits hg hv
  obtain ⟨m, hm, hw⟩ := mem_headWrites hfits hk hw
  rw [runsApart]
  rcases hv with ⟨hv, hvl⟩ | ⟨hv, hvl⟩ <;> rcases hw with ⟨hw, hwl⟩ | ⟨hw, hwl⟩ <;> rw [hv, hvl, hw, hwl]
  · exact .inl (elementRun_lt b frame ht (by omega))
  · exact .inl (elementRun_scaleRun b frame ht (by omega) m)
  · exact .inr (elementRun_scaleRun b frame ht (by omega) n)
  · exact .inl (scaleRun_lt b frame h t (by omega))

theorem slotWrites_apart (ht : t < 16) (frame : Nat) : (slotWrites b h frame t d).Pairwise runsApart := by
  refine List.pairwise_flatMap.2 ⟨fun e he => ?_, List.pairwise_iff_getElem.2 fun g k hg hk hgk v hv w hw => ?_⟩
  · obtain ⟨g, hg, rfl⟩ := List.mem_mapIdx.1 he
    exact headWrites_apart hfits ht frame hg
  · rw [List.length_mapIdx] at hg hk
    rw [List.getElem_mapIdx] at hv hw
    exact headWrites_apart_heads hfits ht hg hk hgk hv hw

/-- A slot reads back as it was written (R203). -/
theorem readSlot_writeSlot (ht : t < 16) (m : Memory) (frame : Nat) :
    readSlot (writeSlot m b h frame t d) b h frame t d.position d.node = d := by
  obtain ⟨position, node, heads⟩ := d
  have hlength := slotFits_length hfits
  refine congrArg (SlotData.mk position node) (List.ext_getElem (by simpa using hlength.symm) fun g hg hg' => ?_)
  have hread : ∀ v ∈ headWrites b h frame t (g, heads[g]), memRead (writeSlot m b h frame t ⟨position, node, heads⟩) v.1 v.2.length = v.2 := by
    intro v hv
    rw [writeSlot_eq_writeAll]
    exact memRead_writeAll (slotWrites_apart hfits ht frame) (mem_slotWrites hg' hv) m
  obtain ⟨hkey, hvalue, hkeyScale, hvalueScale⟩ := slotFits_head hfits (List.getElem_mem hg')
  simp only [headWrites, List.mem_cons, List.not_mem_nil, or_false, forall_eq_or_imp, forall_eq] at hread
  rw [hkey, hvalue, hkeyScale, hvalueScale] at hread
  obtain ⟨hkey, hvalue, hkeyScale, hvalueScale⟩ := hread
  rw [List.getElem_map, List.getElem_range, hkey, hvalue, hkeyScale, hvalueScale]

/-- A slot written leaves every byte outside its keys, values and scales (R201, R202). -/
theorem memByte_writeSlot_of_outside (m : Memory) (frame : Nat) {a : Nat}
    (ha : ∀ g, g < h → (a < frame + keyOff b g t ∨ frame + keyOff b g t + headBytes b ≤ a) ∧
      (a < frame + valueOff b g t ∨ frame + valueOff b g t + headBytes b ≤ a) ∧
      (a < frame + keyScaleOff b h g t ∨ frame + keyScaleOff b h g t + 4 ≤ a) ∧
      (a < frame + valueScaleOff b h g t ∨ frame + valueScaleOff b h g t + 4 ≤ a)) :
    memByte (writeSlot m b h frame t d) a = memByte m a := by
  rw [writeSlot_eq_writeAll]
  refine memByte_writeAll_of_outside (fun w hw => ?_) m
  obtain ⟨e, he, hw⟩ := List.mem_flatMap.1 hw
  obtain ⟨g, hg, rfl⟩ := List.mem_mapIdx.1 he
  obtain ⟨hkey, hvalue, hkeyScale, hvalueScale⟩ := slotFits_head hfits (List.getElem_mem hg)
  obtain ⟨hatKey, hatValue, hatKeyScale, hatValueScale⟩ := ha g (slotFits_length hfits ▸ hg)
  simp only [headWrites, List.mem_cons, List.not_mem_nil, or_false] at hw
  rcases hw with rfl | rfl | rfl | rfl
  · simpa only [hkey] using hatKey
  · simpa only [hvalue] using hatValue
  · simpa only [hkeyScale] using hatKeyScale
  · simpa only [hvalueScale] using hatValueScale

end Fits

/-! ### What attention work leaves alone (R138, R206, R228, R365) -/

theorem State.prickT_of_layerT {s : State} {t : StepTag} {r : LayerRec} (h : s.layerT t = some r) : ∃ p, s.prickT t = some p := by
  rw [State.layerT] at h
  obtain ⟨p, hp, -⟩ := Option.bind_eq_some_iff.1 h
  exact ⟨p, hp⟩

/-- A precision record reads as its new value once it is changed. -/
theorem State.prec_setPrec (s : State) (motif gen layer : Nat) (f : LayerPrec → LayerPrec) :
    (s.setPrec motif gen layer f).prec motif gen layer = f (s.prec motif gen layer) := by
  have hfound : (s.setPrec motif gen layer f).motifs.layers.find? (fun e => e.1 = precKey motif gen layer) =
      some (precKey motif gen layer, f (s.prec motif gen layer)) := List.find?_cons_of_pos (decide_eq_true rfl)
  rw [State.prec, hfound]

/-- Rows taken as they are received count no requantisation. -/
theorem State.countQuant_received (s : State) (t : StepTag) : s.countQuant t (Quant.sum []) = s := if_pos rfl

theorem State.sendData_out (s : State) (t : StepTag) (dest : Nat) (last attn : Bool) (body : MsgBody) :
    (s.sendData t dest last attn body).fabric.out = { s.msg dest (some t) body with last := last } :: s.fabric.out := State.send_out ..

theorem State.sendData_frame (s : State) (t : StepTag) (dest : Nat) (last attn : Bool) (body : MsgBody) :
    s.sendData t dest last attn body = { s with steps := (s.sendData t dest last attn body).steps, fabric := (s.sendData t dest last attn body).fabric } := by
  rw [State.sendData, State.noteSent, State.setStep, State.send_frame]

/-! ### Slots written here (R206, R212, R225) -/

section Slot
variable {tag : StepTag} {d : SlotData} {p : Pricking} {r : LayerRec} {s : State} (hp : s.prickT tag = some p) (hr : s.layerT tag = some r)
  (hfits : slotFits (kvBits p) r.kvHeads d = true)
include hp hr hfits

theorem exec_compact : exec (.compact tag d) s = .next (if s.stepOver tag then s.writeCopy tag (kvBits p) r.kvHeads d
    else { s with attn := { s.attn with compactWait := s.attn.compactWait ++ [(tag, d)] } }) := by
  show execCompact tag d s = _
  simp only [execCompact, hp, hr, hfits, Bool.not_true, Bool.false_eq_true, if_false]

/-- A slot that reaches a module of the layer's spread waits for the layer's lists, or is taken. -/
theorem exec_slot_received {source : Nat} {u : State} (harrive : s.arrive tag = (u, true)) (hsource : source ≠ s.machineId) (hranks : u.ranksHeld r ≠ [])
    (heads : List (List (List Fp32 × List Fp32))) : exec (.slot source tag ⟨[d], heads⟩) s =
      .next (if (u.latchOf tag).isNone then { u with attn := { u.attn with slotsWait := u.attn.slotsWait ++ [(tag, d)] } }
        else u.takeSlots tag (kvBits p) r.kvHeads [d]) := by
  show execSlot source tag ⟨[d], heads⟩ s = _
  simp [execSlot, slotsFor, State.taken, State.countQuant_received, hp, hr, hfits, hsource, harrive, hranks]

end Slot

/-- A slot of the step is written into the frames latched for its page, once the lists cover it. -/
theorem State.takeSlots_covered {u v : State} {tag : StepTag} {d : SlotData} {c : StepRec} {l : Latch} (hstep : u.stepOf tag = some c)
    (hown : c.ownsSlot d = true) (hcover : u.latchPages tag d.position = (v, true)) (hlatch : v.latchOf tag = some l) (b h : Nat) :
    ∃ written, u.takeSlots tag b h [d] = { v with
      mem := (framesOf l (d.position / 16)).foldl (fun m f => writeSlot m b h f (d.position % 16) d) v.mem
      attn := { v.attn with written := written } } := by
  have hmine : [d].filter c.ownsSlot = [d] := List.filter_cons_of_pos hown
  rw [State.takeSlots, hstep]
  simp only [hmine, List.cons_ne_nil, if_false, List.foldl_cons, List.foldl_nil, Nat.zero_max, hcover, Bool.not_true, Bool.false_eq_true,
    State.writeSlots, hlatch]
  exact ⟨_, rfl⟩

/-! ### Query rows (R212, R228) -/

/-- What query rows tell leaves the step that a record describes. -/
theorem sameStep_learn {t : StepTag} {c : StepRec} (h : sameStep t c = true) (rows : List QueryRow) (all qHeads : Nat) (last : Bool) :
    sameStep t (c.learn rows all qHeads last) = true := by
  unfold StepRec.learn
  split
  · exact h
  · dsimp only
    split_ifs <;> exact h

theorem State.releaseSlots_of_none {s : State} {t : StepTag} (h : ∀ x ∈ s.attn.slotsWait, x.1 ≠ t) (b g : Nat) : s.releaseSlots t b g = s := by
  have hmine : s.attn.slotsWait.filter (fun x => x.1 = t) = [] := List.filter_eq_nil_iff.2 fun x hx => by simpa using h x hx
  simp [State.releaseSlots, hmine]

/-- Rows whose lists cover their step are kept and counted. -/
theorem State.keepRows_covered {s v : State} {tag : StepTag} {last : Bool} {rows : List QueryRow} {r : LayerRec} {c : StepRec} (hranks : s.ranksHeld r ≠ [])
    (hstep : s.stepOf tag = some c) (hcover : s.latchPages tag (lastSlot c rows) = (v, true)) (hwait : ∀ x ∈ v.attn.slotsWait, x.1 ≠ tag) (p : Pricking) :
    let t := s.keepRows tag last rows p r
    t.attn.rows = addRows tag rows v.attn.rows ∧ (last = true → tag ∈ t.attn.closed) ∧
      (t.prec tag.motif tag.gen tag.layer).rows = (v.prec tag.motif tag.gen tag.layer).rows + rows.length ∧ t.mem = v.mem ∧
      t = { v with attn := t.attn, motifs := t.motifs } := by
  simp only [State.keepRows, hranks, if_false, hstep, hcover, Bool.not_true, Bool.false_eq_true]
  rw [State.releaseSlots_of_none (by exact hwait)]
  refine ⟨rfl, fun hlast => ?_, congrArg LayerPrec.rows (State.prec_setPrec ..), rfl, rfl⟩
  show tag ∈ ite _ _ _
  split_ifs with hnew
  · exact List.mem_cons_self ..
  · simpa [hlast] using hnew

theorem State.keepRows_elsewhere {s : State} {r : LayerRec} (hranks : s.ranksHeld r = []) (t : StepTag) (last : Bool) (rows : List QueryRow) (p : Pricking) :
    s.keepRows t last rows p r = s := if_pos hranks

/-- The layer module with the rows it has formed counted and learnt from, before it sends them. -/
def State.rowsFormed (s : State) (tag : StepTag) (last : Bool) (r : LayerRec) (f : List QueryRow × Quant) : State :=
  (s.countQuant tag f.2).setStep tag fun c => c.learn f.1 ((addRows tag f.1 s.attn.rows).filter (·.1 = tag)).length r.qHeads last

theorem State.rowsFormed_frame (s : State) (tag : StepTag) (last : Bool) (r : LayerRec) (f : List QueryRow × Quant) :
    s.rowsFormed tag last r f = { s with steps := (s.rowsFormed tag last r f).steps, motifs := (s.rowsFormed tag last r f).motifs } := by
  rw [State.rowsFormed, State.countQuant_frame]
  rfl

section Query
variable {tag : StepTag} {source : Nat} {r : LayerRec} {s : State} (hr : s.layerT tag = some r) (last : Bool) (rows : List QueryRow) (heads : List (List Fp32))
include hr

theorem exec_query_received {u : State} {c : StepRec} (hsource : source ≠ s.machineId) (harrive : s.arrive tag = (u, true)) (hstep : u.stepOf tag = some c)
    (hranks : u.ranksHeld r ≠ []) :
    let all := ((addRows tag rows u.attn.rows).filter (·.1 = tag)).length
    ∀ v, (u.setStep tag fun c => c.learn rows all r.qHeads last).latchPages tag (lastSlot (c.learn rows all r.qHeads last) rows) = (v, true) →
      (∀ x ∈ v.attn.slotsWait, x.1 ≠ tag) →
      ∃ t, exec (.query source tag last ⟨rows, heads⟩) s = .next t ∧ t.attn.rows = addRows tag rows v.attn.rows ∧
        (last = true → tag ∈ t.attn.closed) ∧
        (t.prec tag.motif tag.gen tag.layer).rows = (v.prec tag.motif tag.gen tag.layer).rows + rows.length ∧ t.mem = v.mem ∧
        t = { v with attn := t.attn, motifs := t.motifs } := by
  intro all v hcover hwait
  obtain ⟨p, hp⟩ := State.prickT_of_layerT hr
  have hknown := State.stepOf_setStep (f := fun c => c.learn rows all r.qHeads last) hstep (sameStep_learn (List.find?_some hstep) ..)
  refine ⟨_, ?_, State.keepRows_covered (by exact hranks) hknown hcover hwait p⟩
  show execQuery source tag last ⟨rows, heads⟩ s = _
  simp [execQuery, rowsFor, State.taken, State.countQuant_received, hp, hr, hsource, harrive, all]

/-- The layer module of a spread of one other module sends its rows there and keeps none. -/
theorem exec_query_own {d : Nat} (husable : s.usable tag = true) (howns : s.owns r = true) (hlength : heads.length = rows.length)
    (hspread : s.spreadIds r = [d]) (hd : d ≠ s.machineId) (hk : r.k = 1) :
    let f := rowsFor true r rows heads
    exec (.query s.machineId tag last ⟨rows, heads⟩) s = .next ((s.rowsFormed tag last r f).sendData tag d last true (.query f.1)) := by
  intro f
  obtain ⟨p, hp⟩ := State.prickT_of_layerT hr
  have htaken : s.taken s.machineId tag = (s, true) := by simp [State.taken, husable, hr, howns]
  have hspread' : (s.rowsFormed tag last r f).spreadIds r = [d] := by
    rw [State.rowsFormed_frame]
    exact hspread
  have hnone : ((s.rowsFormed tag last r f).sendData tag d last true (.query f.1)).ranksHeld r = [] := by
    have hranks : s.ranksHeld r = [] := by simp [State.ranksHeld, hspread, hk, hd]
    rw [State.sendData_frame, State.rowsFormed_frame]
    exact hranks
  have hsent : (((s.rowsFormed tag last r f).spreadIds r).dedup.filter (· ≠ s.machineId)).foldl (fun u d => u.sendData tag d last true (.query f.1))
      (s.rowsFormed tag last r f) = (s.rowsFormed tag last r f).sendData tag d last true (.query f.1) := by simp [hspread', hd]
  rw [← State.keepRows_elsewhere hnone tag last f.1 p]
  show execQuery s.machineId tag last ⟨rows, heads⟩ s = _
  simp only [execQuery, hp, hr, htaken, hlength, decide_true, Bool.not_true, ne_eq, not_true_eq_false, decide_false, Bool.and_false, Bool.or_false,
    Bool.false_eq_true, if_false, if_true]
  exact congrArg (fun u => Host.Outcome.next (State.keepRows u tag last f.1 p r)) hsent

end Query

/-- Settles O26: a slot's runs of bytes share no address, so it reads back and leaves the rest; which lists a slot, a copy or query rows meet decides
where they go, and the layer module's rows go to the one other module of the spread. -/
theorem slotsAndQueryRowsAreKept : Obligations.SlotsAndQueryRowsAreKept := by
  unfold Obligations.SlotsAndQueryRowsAreKept
  refine ⟨fun m b h frame t d _ ht hfits => ⟨readSlot_writeSlot hfits ht m frame, fun a => memByte_writeSlot_of_outside hfits m frame⟩,
    fun source tag d heads p r s hp hr hfits => ⟨fun hover => ?_, fun hflight => ?_, fun u harrive hsource hranks => ⟨fun hlatch => ?_, ?_⟩⟩,
    fun source tag last rows heads r s hr =>
      ⟨fun u c hsource harrive hstep hranks => exec_query_received hr last rows heads hsource harrive hstep hranks,
       fun d hsource husable howns hlength hspread hd hk => ?_⟩⟩
  · exact ⟨_, (exec_compact hp hr hfits).trans (by rw [if_pos hover]), rfl, rfl⟩
  · rw [exec_compact hp hr hfits, hflight]
    rfl
  · rw [exec_slot_received hp hr hfits harrive hsource hranks, hlatch]
    rfl
  · intro c v l hlatch hstep hown hcover hl
    obtain ⟨written, hwritten⟩ := State.takeSlots_covered hstep hown hcover hl (kvBits p) r.kvHeads
    rw [exec_slot_received hp hr hfits harrive hsource hranks, if_neg (by simp [Option.isSome_iff_ne_none.1 hlatch]), hwritten]
    exact ⟨_, rfl, rfl, rfl⟩
  · subst hsource
    rw [exec_query_own hr last rows heads husable howns hlength hspread hd hk]
    refine ⟨_, _, rfl, (State.sendData_out ..).trans (by rw [State.rowsFormed_frame]), rfl, rfl, rfl, congrArg MsgBody.query (List.map_map ..), ?_, ?_, ?_⟩
    all_goals rw [State.sendData_frame, State.rowsFormed_frame]

/-! ### Work units (R193 to R196, R219, R220) -/

/-- A state after the notes of a unit's start: counts, the step's record, the log and the audits alone have changed. -/
def State.UnitNoted (s t : State) : Prop :=
  t = { s with motifs := t.motifs, steps := t.steps, log := t.log, data := { s.data with unitAudits := t.data.unitAudits }, draws := t.draws }

namespace State.UnitNoted

theorem refl (s : State) : s.UnitNoted s := rfl

theorem trans {s t u : State} (hst : s.UnitNoted t) (htu : t.UnitNoted u) : s.UnitNoted u := Eq.trans htu (by rw [hst])

theorem ite {c : Prop} [Decidable c] {s t u : State} (ht : s.UnitNoted t) (hu : s.UnitNoted u) : s.UnitNoted (if c then t else u) := by
  split
  · exact ht
  · exact hu

theorem event (s : State) (e : Event) : s.UnitNoted (s.event e) := by
  rw [State.event_frame]
  rfl

theorem unitServes (s : State) (t : StepTag) (island : Nat) (work : Nat × Nat) : s.UnitNoted (s.unitServes t island work) := by
  unfold State.unitServes
  split
  · rfl
  · dsimp only
    split_ifs <;> rfl

end State.UnitNoted

/-- A pipeline with a unit assigned to it. -/
def State.unitAssigned (s : State) (pipe : Nat) (u : Unit_) : State := { s with attn := { s.attn with pipes := (pipe, u) :: s.attn.pipes } }

/-- A unit that starts takes its pipeline; the rest is notes. -/
theorem State.startUnit_noted (s : State) (pipe : Nat) (t : StepTag) (r : LayerRec) (b group run : Nat) (rows : List QueryRow) (pages : List (Nat × Nat)) :
    (s.unitAssigned pipe (s.computeUnit t r b group run rows pages)).UnitNoted (s.startUnit pipe t r b group run rows pages) := by
  unfold State.startUnit
  have hserved : ∀ u e, (s.unitAssigned pipe (s.computeUnit t r b group run rows pages)).UnitNoted u →
      (s.unitAssigned pipe (s.computeUnit t r b group run rows pages)).UnitNoted
        (if badScaleIn s.mem r b rows pages then (u.unitServes t (192 + pipe) (group, run)).event e else u.unitServes t (192 + pipe) (group, run)) :=
    fun u e hu => UnitNoted.ite ((hu.trans (UnitNoted.unitServes ..)).trans (UnitNoted.event ..)) (hu.trans (UnitNoted.unitServes ..))
  exact hserved _ _ (UnitNoted.ite (UnitNoted.refl _) rfl)

section Unit
variable {pipe group run groups : Nat} {tag : StepTag} {p : Pricking} {r : LayerRec} {l : Latch} {rows : List QueryRow} {s : State} (hpipe : pipe < 48)
include hpipe

theorem exec_workUnit_starts (hp : s.prickT tag = some p) (hr : s.layerT tag = some r) (hl : s.latchOf tag = some l)
    (hgroups : s.groupCount tag r = some groups) (hrows : s.rowGroup tag r group = some rows) :
    let pages := s.pagesServed tag r l
    let runs := runCount groups pages.length
    let mine := runOf pages runs run
    s.usable tag = true → group < groups → run < runs → (s.island (192 + pipe)).state = 0 → (∀ e ∈ s.attn.pipes, e.1 ≠ pipe) →
      s.unitKnown tag group run runs = false → s.unitTurn tag group run runs = true → s.compacted tag = true →
      (∀ e ∈ mine, s.slotsReady tag e.1 = true ∧ s.frameFlagged e.2 (frameSize p) = false) →
      exec (.workUnit pipe tag group run) s = .next (s.startUnit pipe tag r (kvBits p) group run rows mine) := by
  intro pages runs mine husable hgroup hrun hisland hfree hknown hturn hcompacted hready
  have hidle : (s.attn.pipes.any fun e => e.1 = pipe) = false := List.any_eq_false.2 fun e he => by simpa using hfree e he
  have hmine : mine.all (fun e => s.slotsReady tag e.1 && !s.frameFlagged e.2 (frameSize p)) = true := List.all_eq_true.2 fun e he => by simp [hready e he]
  show execWorkUnit pipe tag group run s = _
  rw [execWorkUnit, need_of (decide_eq_true hpipe), hp, hr, hl]
  dsimp only
  rw [hgroups, hrows]
  refine congrArg Host.Outcome.next (if_pos ?_)
  change (s.usable tag && decide (group < groups ∧ run < runs) && decide ((s.island (192 + pipe)).state = 0) && !(s.attn.pipes.any fun e => e.1 = pipe) &&
    !s.unitKnown tag group run runs && s.unitTurn tag group run runs && s.compacted tag &&
    mine.all fun e => s.slotsReady tag e.1 && !s.frameFlagged e.2 (frameSize p)) = true
  rw [husable, decide_eq_true ⟨hgroup, hrun⟩, decide_eq_true hisland, hidle, hknown, hturn, hcompacted, hmine]
  rfl

theorem exec_workUnitEnd_hands {u : Nat × Unit_} (hu : s.attn.pipes.find? (fun e => e.1 = pipe) = some u) : exec (.workUnitEnd pipe) s =
    .next { s with attn := { s.attn with pipes := s.attn.pipes.filter fun x => x.1 ≠ pipe, units := u.2 :: s.attn.units } } := by
  show execWorkUnitEnd pipe s = _
  rw [execWorkUnitEnd, need_of (decide_eq_true hpipe), hu]

end Unit

/-! ### Merged rows at the layer module (R227, R231) -/

/-- The layer module with merged rows that were not in yet, and their outputs. -/
def State.mergedIn (s : State) (t : StepTag) (new : List RowPartial) : State :=
  { s with attn := { s.attn with merged := s.attn.merged ++ new.map (fun r => (t, r)), outs := s.attn.outs ++ new.map fun r => (t, r.row, attnOut r) } }

/-- What the layer module notes of merged rows: clamped results, rows that a shadow list served, and void rows. -/
def State.mergedNoted (s : State) (t : StepTag) (new : List RowPartial) : State :=
  let s1 := s.countClamps t (new.map attnOver).sum
  let s2 := if new.any (·.shadow) then s1.stepSlow t slowTakeover else s1
  let voids := (new.filter (·.empty)).length
  if voids = 0 then s2
  else (s2.setPrecT t fun p => { p with voidRows := p.voidRows + voids }).count fun c => { c with voidRows := sat64 c.voidRows voids }

theorem State.takeMerged_of_none {s : State} (hnone : s.attn.merged = []) (t : StepTag) (recs : List RowPartial) :
    s.takeMerged t recs = (s.mergedIn t recs).mergedNoted t recs := by
  have hnew : (recs.filter fun r => !(s.attn.merged.any fun x => decide (x.1 = t ∧ x.2.row = r.row))) = recs := List.filter_eq_self.2 fun x _ => by simp [hnone]
  rw [State.takeMerged, hnew]
  rfl

theorem State.countClamps_frame (s : State) (t : StepTag) (n : Nat) : s.countClamps t n = { s with motifs := (s.countClamps t n).motifs } := by
  unfold State.countClamps
  split <;> rfl

/-- Void rows are counted, a step that no shadow list served is left alone, and so is all but counts and the step. -/
theorem State.mergedNoted_spec (s : State) (tag : StepTag) (recs : List RowPartial) :
    let t := s.mergedNoted tag recs
    t.counters.voidRows = (if (recs.filter (·.empty)).length = 0 then s.counters.voidRows
        else min (s.counters.voidRows + (recs.filter (·.empty)).length) (2 ^ 64 - 1)) ∧
      ((∀ x ∈ recs, x.shadow = false) → t.steps = s.steps) ∧ t = { s with motifs := t.motifs, counters := t.counters, steps := t.steps } := by
  have hany : (∀ x ∈ recs, x.shadow = false) → ¬ recs.any (·.shadow) = true := fun h => by simpa using h
  simp only [State.mergedNoted]
  rw [State.countClamps_frame]
  generalize (s.countClamps tag _).motifs = counted
  split_ifs with hvoids hshadow hshadow
  · exact ⟨rfl, fun h => absurd hshadow (hany h), rfl⟩
  · exact ⟨rfl, fun _ => rfl, rfl⟩
  · exact ⟨rfl, fun h => absurd hshadow (hany h), rfl⟩
  · exact ⟨rfl, fun _ => rfl, rfl⟩

/-- Rows taken while none of the layer is in become merged rows and outputs. -/
theorem State.takeMerged_spec {s : State} (hnone : s.attn.merged = []) (tag : StepTag) (recs : List RowPartial) :
    let t := s.takeMerged tag recs
    t.attn.merged = recs.map (fun x => (tag, x)) ∧ t.attn.outs = s.attn.outs ++ recs.map (fun x => (tag, x.row, attnOut x)) ∧
      t.counters.voidRows = (if (recs.filter (·.empty)).length = 0 then s.counters.voidRows
        else min (s.counters.voidRows + (recs.filter (·.empty)).length) (2 ^ 64 - 1)) ∧
      ((∀ x ∈ recs, x.shadow = false) → t.steps = s.steps) ∧
      t = { s with attn := { s.attn with merged := t.attn.merged, outs := t.attn.outs }, motifs := t.motifs, counters := t.counters, steps := t.steps } := by
  obtain ⟨hvoids, hsteps, hframe⟩ := (s.mergedIn tag recs).mergedNoted_spec tag recs
  rw [State.takeMerged_of_none hnone]
  generalize (s.mergedIn tag recs).mergedNoted tag recs = t at *
  refine ⟨(congrArg (·.attn.merged) hframe).trans ?_, congrArg (·.attn.outs) hframe, hvoids, hsteps, ?_⟩
  · exact (congrArg (· ++ _) hnone).trans (List.nil_append _)
  · rw [hframe]
    rfl

/-! ### Partials at a merge holder (R221, R229, R230, R233) -/

/-- A row of which the partial of a rank is missing is not ready. -/
theorem rowReady_eq_none {t : StepTag} {k row i : Nat} {parts : List (StepTag × RowPartial)} (hi : i < k)
    (h : parts.find? (fun x => decide (x.1 = t ∧ x.2.row = row ∧ x.2.rank = i)) = none) : rowReady t k row parts = none := by
  have hmem := List.mem_range.2 hi
  unfold rowReady
  generalize List.range k = ranks at hmem
  induction ranks with
  | nil => cases hmem
  | cons j ranks ih =>
    rw [List.foldr_cons]
    rcases List.mem_cons.1 hmem with rfl | hmem
    · rw [h]
      generalize List.foldr _ _ _ = later
      cases later <;> rfl
    · rw [ih hmem]

/-- With one partial per row no row of a layer on several modules is ready. -/
theorem rowReady_of_nodup {t : StepTag} {k : Nat} (hk : 2 ≤ k) {recs : List RowPartial} (hrows : (recs.map (·.row)).Nodup) (row : Nat) :
    rowReady t k row (recs.map fun x => (t, x)) = none := by
  cases hfirst : (recs.map fun x => (t, x)).find? fun x => decide (x.1 = t ∧ x.2.row = row ∧ x.2.rank = 0) with
  | none => exact rowReady_eq_none (by omega) hfirst
  | some x =>
    cases hsecond : (recs.map fun x => (t, x)).find? fun x => decide (x.1 = t ∧ x.2.row = row ∧ x.2.rank = 1) with
    | none => exact rowReady_eq_none (by omega) hsecond
    | some y =>
      obtain ⟨a, ha, rfl⟩ := List.mem_map.1 (List.mem_of_find?_eq_some hfirst)
      obtain ⟨b, hb, rfl⟩ := List.mem_map.1 (List.mem_of_find?_eq_some hsecond)
      have hfirst := List.find?_some hfirst
      have hsecond := List.find?_some hsecond
      simp only [decide_eq_true_eq, true_and] at hfirst hsecond
      obtain rfl := List.inj_on_of_nodup_map hrows ha hb (hfirst.1.trans hsecond.1.symm)
      omega

theorem State.mergeRows_of_waiting {s : State} {t : StepTag} {r : LayerRec} {rows : List Nat} (h : ∀ row ∈ rows, rowReady t r.k row s.attn.parts = none) :
    s.mergeRows t r rows = s := by
  have hsets : (rows.filterMap fun row => (rowReady t r.k row s.attn.parts).map fun l => (row, l)) = [] :=
    List.filterMap_eq_nil_iff.2 fun row hrow => by simp [h row hrow]
  simp only [State.mergeRows, hsets, List.map_nil, if_true]

theorem addParts_nil (t : StepTag) (recs : List RowPartial) : addParts t recs [] = recs.map fun x => (t, x) := by simp [addParts]

theorem exec_partialRows_waits {tag : StepTag} {recs : List RowPartial} {r : LayerRec} {s u : State} (hr : s.layerT tag = some r)
    (harrive : s.arrive tag = (u, true)) (hnone : u.attn.parts = []) (hk : 2 ≤ r.k) (hrows : (recs.map (·.row)).Nodup) (source : Nat) :
    exec (.partialRows source tag recs) s =
      .next { u with attn := { u.attn with parts := (recordsFor u r u.machineId recs).map fun x => (tag, x) } } := by
  have hmine : ((recordsFor u r u.machineId recs).map (·.row)).Nodup := hrows.sublist (List.filter_sublist.map _)
  show execPartialRows source tag recs s = _
  simp only [execPartialRows, hr, harrive, Bool.not_true, Bool.false_eq_true, if_false, hnone, addParts_nil]
  rw [State.mergeRows_of_waiting fun row _ => rowReady_of_nodup hk hmine row]

theorem exec_merged_taken {tag : StepTag} {recs : List RowPartial} {r : LayerRec} {s u : State} (hr : s.layerT tag = some r) (harrive : s.arrive tag = (u, true))
    (howns : u.owns r = true) : exec (.merged tag recs) s = .next (u.takeMerged tag recs) := by
  show execMerged tag recs s = _
  simp only [execMerged, hr, harrive, howns, Bool.not_true, Bool.or_self, Bool.false_eq_true, if_false]

/-- The clamps that a partial counts change no value of its merge. -/
theorem mergeParts_single_clamps (x : Part) (c : Nat) : ∃ n, mergeParts [{ x with clamps := c }] = { mergeParts [x] with clamps := n } := by
  cases hempty : x.empty with
  | true => exact ⟨0, by simp [mergeParts, hempty, Part.none]⟩
  | false => exact ⟨_, by simp [mergeParts, hempty]; rfl⟩

/-- A row whose one partial is in is merged, and the layer module that merges it takes it at once (R230, R246). -/
theorem State.mergeRows_own {s : State} {tag : StepTag} {r : LayerRec} {x : RowPartial} (hk : r.k = 1) (hrank : x.rank = 0) (hparts : s.attn.parts = [(tag, x)])
    (howner : s.holder r.owner = s.machineId) :
    ∃ u : State, s.mergeRows tag r [x.row] = u.takeMerged tag [mergedRecord [x] x.row tag.layer 0] ∧ u.attn.parts = [] ∧
      u = { s with attn := { s.attn with parts := u.attn.parts, sentRows := u.attn.sentRows }, motifs := u.motifs } := by
  have hready : rowReady tag r.k x.row s.attn.parts = some [x] := by simp [rowReady, hk, hparts, hrank]
  have hfirst : mergeRank r.k x.row = 0 := by rw [mergeRank, hk, Nat.mod_one]
  have hgone : s.attn.parts.filter (fun y => !(decide (y.1 = tag) && [mergedRecord [x] x.row tag.layer 0].any fun d => d.row = y.2.row)) = [] := by
    simp [hparts, mergedRecord, Part.record]
  simp only [State.mergeRows, List.filterMap_cons, List.filterMap_nil, hready, hfirst, Option.map_some, List.map_cons, List.map_nil, List.cons_ne_nil,
    if_false, hgone]
  exact ⟨_, if_pos howner, by rw [State.countClamps_frame], by rw [State.countClamps_frame]⟩

section ModuleMerge
variable {tag : StepTag} {group groups : Nat} {r : LayerRec} {l : Latch} {s : State} {q : QueryRow} (hr : s.layerT tag = some r) (hl : s.latchOf tag = some l)
  (husable : s.usable tag = true) (hgroups : s.groupCount tag r = some groups) (hrows : s.rowGroup tag r group = some [q]) (hgroup : group < groups)
include hr hl husable hgroups hrows hgroup

/-- A row group of one row, on a layer of one module that merges its own rows: the partial of its units is kept here and merged at once. -/
theorem exec_moduleMerge_own {runs : Nat} {units : List Unit_} (hruns : runCount groups (s.pagesServed tag r l).length = runs)
    (hunits : (s.attn.units.filter fun u => decide (u.tag = tag ∧ u.group = group)) = units) (hunmerged : ∀ u ∈ units, u.run ≠ runs)
    (hall : ∀ i, i < runs → ∃ u ∈ units, u.run = i) (hranks : s.ranksHeld r = [0]) (hholder : ∀ row, s.mergeHolder r row = s.machineId)
    (hparts : s.attn.parts = []) :
    ∃ u : State, exec (.moduleMerge tag group) s = .next (u.mergeRows tag r [q.row]) ∧
      u.attn.parts = [(tag, (modulePart units q).record q.row tag.layer 0 (units.any (·.shadow)) false)] ∧
      u = { s with attn := { s.attn with units := u.attn.units, parts := u.attn.parts }, motifs := u.motifs } := by
  have hnone : units.any (fun u => u.run = runs) = false := List.any_eq_false.2 fun u hu => by simpa using hunmerged u hu
  have hrun : (List.range runs).all (fun i => units.any fun u => u.run = i) = true := List.all_eq_true.2 fun i hi => by
    simpa using hall i (List.mem_range.1 hi)
  have hdests : ([s.mergeHolder r q.row].dedup.filter fun x => decide (x ≠ s.machineId)) = [] := by simp [hholder]
  have hrecs : recordsFor s r s.machineId (rankRecords [0] (modulePart units q) q.row tag.layer (units.any (·.shadow))) =
      [(modulePart units q).record q.row tag.layer 0 (units.any (·.shadow)) false] := by simp [recordsFor, rankRecords, hholder]
  show ∃ u : State, execModuleMerge tag group s = _ ∧ _
  simp only [execModuleMerge, hr, hl, hgroups, hrows, hruns, hunits, husable, hgroup, hnone, hrun, decide_true, Bool.not_true, Bool.or_self, Bool.false_eq_true,
    if_false, List.map_cons, List.map_nil, hdests, List.foldl_nil, List.flatMap_singleton, hranks, hrecs, hparts, addParts_nil]
  exact ⟨_, rfl, by rw [State.countClamps_frame], by rw [State.countClamps_frame]⟩

end ModuleMerge

/-- The record that a merged partial gives holds the values of its merge, whatever its clamps. -/
theorem mergedRecord_single (w : Part) (row layer rank : Nat) (shadow : Bool) :
    let x := mergedRecord [w.record row layer rank shadow false] row layer rank
    x.row = row ∧ x.merged = true ∧ (x.m, x.l, x.o, x.empty) = ((mergeParts [w]).m, (mergeParts [w]).l, (mergeParts [w]).o, (mergeParts [w]).empty) := by
  obtain ⟨n, hn⟩ := mergeParts_single_clamps w 0
  refine ⟨rfl, rfl, ?_⟩
  show ((mergeParts [{ w with clamps := 0 }]).m, (mergeParts [{ w with clamps := 0 }]).l, (mergeParts [{ w with clamps := 0 }]).o,
    (mergeParts [{ w with clamps := 0 }]).empty) = _
  rw [hn]

/-- Settles O27: a unit that starts is computed into its pipeline and handed over at its end; a holder with every rank of a row merges it and, as layer
module, takes the merged row at once, one without keeps the partials; merged rows taken become outputs. -/
theorem attentionUnitsAndMerges : Obligations.AttentionUnitsAndMerges := by
  unfold Obligations.AttentionUnitsAndMerges
  refine ⟨fun pipe group run tag p r l s hpipe => ⟨?start, fun u => exec_workUnitEnd_hands hpipe⟩, ?merge,
    fun source tag recs r u s hr harrive => ⟨?partials, ?merged⟩⟩
  case start =>
    intro groups rows hp hr hl hgroups hrows pages runs mine husable hgroup hrun hisland hfree hknown hturn hcompacted hready
    have hnoted := s.startUnit_noted pipe tag r (kvBits p) group run rows mine
    refine ⟨_, exec_workUnit_starts hpipe hp hr hl hgroups hrows husable hgroup hrun hisland hfree hknown hturn hcompacted hready, ?_, ?_, ?_, ?_⟩
    all_goals
      generalize s.startUnit _ _ _ _ _ _ _ _ = t at hnoted
      rw [hnoted]
      rfl
  case merge =>
    intro tag group r l s hr hl husable groups q hgroups hrows runs units hgroup hunmerged hall hk hranks hholder howner hparts hmerged
    obtain ⟨u, hexec, hkept, hu⟩ := exec_moduleMerge_own hr hl husable hgroups hrows hgroup rfl rfl hunmerged hall hranks hholder hparts
    obtain ⟨v, htaken, hgone, hv⟩ := State.mergeRows_own hk rfl hkept (by rw [hu]; exact howner)
    have hnone : v.attn.merged = [] := by rw [hv, hu]; exact hmerged
    obtain ⟨hin, houts, -, -, hframe⟩ := State.takeMerged_spec hnone tag _
    refine ⟨_, hexec.trans (congrArg Host.Outcome.next htaken), ?_⟩
    generalize v.takeMerged tag _ = t at hin houts hframe ⊢
    refine ⟨by rw [hframe]; exact hgone, by rw [hin]; rfl, fun x hx => ?_, by rw [houts, List.length_append, hv, hu]; rfl,
      by rw [hframe, hv, hu], by rw [hframe, hv, hu]⟩
    rw [hin] at hx
    obtain rfl := List.mem_singleton.1 hx
    exact mergedRecord_single ..
  case partials =>
    intro hnone hk hrows _
    exact ⟨_, exec_partialRows_waits hr harrive hnone hk hrows source, rfl, rfl⟩
  case merged =>
    intro howns hnone
    obtain ⟨hin, houts, hvoids, hsteps, hframe⟩ := State.takeMerged_spec hnone tag recs
    refine ⟨_, exec_merged_taken hr harrive howns, hin, houts, hvoids, hsteps, ?_⟩
    generalize u.takeMerged tag recs = t at hframe
    rw [hframe]

end Sys2Proof.Machine
